-- ==== Sys2Proof/Word.lean ====
section
/-! DEFINITION. The word types of the machine and their plainest arithmetic. -/

namespace Sys2Proof

/-- A byte of memory. -/
abbrev Byte := BitVec 8

/-- A 32-bit word: an instruction word, or a vector register (R31, R45). -/
abbrev Word := BitVec 32

/-- A 64-bit word: a front-end register or a 64-bit system register (R21, R355). -/
abbrev DWord := BitVec 64

end Sys2Proof
end

