-- ==== Sys2Proof/Config.lean ====
section
/-! DEFINITION. The free values of the model: constants with no body, so that nothing can be proved of any value of
them. Each is applied to the draw number of the step, which State holds, and to what else the value may depend on. -/

namespace Sys2Proof.Config

/-- A free choice among two outcomes that the spec lists (R36, R37, R41, R84, R192, R281, R381; log 9). -/
opaque freeBool : Nat → Nat → Nat → Bool

/-- A free choice among the moves that may come next (R60, R186, R208; log 11). -/
opaque freeNat : Nat → Nat

/-- A word whose value the spec leaves open. -/
opaque freeWord : Nat → Nat → Nat → Word

/-- What a special function of pipe Y would like to answer for an input, by the function's number: one fixed function of
the input (R148). The model takes it where it lies within the bound of R148. -/
opaque special : Nat → Word → Word

/-- What the boot ROM's self-test finds (R405), packed: the model reads its bits as the outcome of one power-on. -/
opaque freeBoot : Nat → BitVec 84

/-- SHA3-256 of a message (R372, R406): an external standard whose digest the spec does not define. -/
opaque sha3 : List Byte → List Byte

/-- The SHA3-256 digest of the public key and the version counter that are fused in the die (R406). -/
opaque fusedKey : List Byte
opaque fusedVersion : Nat

/-- Whether an image carries a good ML-DSA-44 signature, over the digest of its contents, under the key of a digest (R406). -/
opaque signatureGood : List Byte → List Byte → List Byte → Bool

/-- The contents of an image, and its version, in a layout that the spec does not give (R406). -/
opaque imageContents : List Byte → List Byte
opaque imageVersion : List Byte → Nat

/-- The signature and the certificate bytes of the SPDM responder (R407). -/
opaque spdmBytes : Nat → List Byte → List Byte

end Sys2Proof.Config
end

