-- ==== Sys2Proof/Syntax.lean ====
section
/-! DEFINITION. The instructions and events of the Nerino Chrozan: one constructor of `Instr` for each row of
spec/opcode_table.json. Word constructors carry the fields of R47 in descending bit order; event constructors
carry what the event's rule lets it name. Outside inputs, which the machine is given and never makes, stand last. -/

namespace Sys2Proof

/-- The chain bit C and the distance D of a word (R31). -/
structure Link where
  c : Bool
  d : BitVec 2
  deriving DecidableEq, Repr

/-- A 7-bit register specifier (R45, R46). -/
abbrev Reg := BitVec 7

/-- What the boot ROM finds at power-on (R405): the stages that fail, with the failing unit of the first one, and
the stacks and ports that train. -/
structure BootOutcome where
  firmwareOk : Bool
  bistOk : Bool
  linksOk : Bool
  imagesOk : Bool
  failingUnit : BitVec 32
  hbmStacks : BitVec 12
  cxlPorts : BitVec 4
  deriving DecidableEq, Repr

/-- The registers that an outside register write reaches beside those with rows of their own (R397, R398), and the
system registers of a partition or VF that system software writes. -/
inductive RegTarget where
  | ptroot (vf : Nat)
  | vfweight (vf : Nat)
  | trapbase (vf : Nat)
  | ckptctl (part : Nat)
  | ckptbuf (part : Nat)
  | ckptrsv (part : Nat)
  | haqhead (part : Nat)
  | haqtail (part : Nat)
  | haresp (part : Nat)
  | hastat (part : Nat)
  | drainsel (part : Nat)
  | faultq (core : Nat)
  | vocab (core : Nat)
  | vocabpad (core : Nat)
  | devcap
  | pretimers (vf : Nat)
  | trigger (vf : Nat)
  | graphload (vf : Nat)
  | graphstat (vf slot : Nat)
  /-- Eight bytes of a VF's MSI-X table, by their number (R397). -/
  | msix (vf half : Nat)
  /-- What stands at an offset of BAR 0 of the PF (R397, R398). -/
  | pfBar0 (offset : Nat)
  /-- What stands at an offset of BAR 0 of a VF (R397). -/
  | vfBar0 (vf offset : Nat)
  | unlisted
  deriving DecidableEq, Repr

/-- What a controller's DMA does (R403): it writes bytes, or reads as many as it asks for. -/
inductive DmaXfer where
  | write (bytes : List (BitVec 8))
  | read (len : Nat)
  deriving DecidableEq, Repr

/-- The instructions and the events. -/
inductive Instr where
  /-- HDR (R39). Opens a clause, sets its flag wait and flag selection, and with Y set performs a yield first. -/
  | hdr (wait : BitVec 12) (setA : BitVec 4) (setB : BitVec 4) (y : Bool)
  /-- NOP (R78). Issues on pipe S and changes nothing but YC. -/
  | nop (lk : Link)
  /-- BRA (R79). Branches every active lane to a packet at a signed offset. -/
  | bra (i : BitVec 2) (off : BitVec 19)
  /-- BRC (R79). Branches each active lane whose predicate XOR N is 1. -/
  | brc (i : BitVec 2) (p : BitVec 3) (n : Bool) (off : BitVec 19)
  /-- CALL (R80). Branches and writes the return packet number to the link register. -/
  | call (i : BitVec 2) (off : BitVec 19)
  /-- BRX (R81). Branches each active lane to the packet number held in a register. -/
  | brx (i : BitVec 2) (a : Reg)
  /-- RET (R81). Returns each active lane to the packet number held in a register. -/
  | ret (i : BitVec 2) (a : Reg)
  /-- EXIT (R83). Ends the thread once its flags are zero and its helpers have ended. -/
  | exit (lk : Link)
  /-- TAIL (R84). Ends the thread at once, handing outstanding memory work to the retirement tracker. -/
  | tail (lk : Link)
  /-- PRIO (R87). Passes the core's issue-priority token to a group. -/
  | prio (lk : Link) (a : Reg)
  /-- SLEEP (R88). Makes each active thread not runnable for a count of cycles. -/
  | sleep (lk : Link) (a : Reg)
  /-- YIELD (R82). Waits for all flags and helpers, resets YC, sets the deadline and honours a pending soft request. -/
  | yield (lk : Link) (l : BitVec 8)
  /-- DQPUT (R85). Front end appends a decision for the warps of named roles to the decision queue. -/
  | dqput (i : BitVec 2) (a : Reg) (b : Reg)
  /-- DQTAKE (R86). Collective that writes the warp's next decision-queue entry to a register. -/
  | dqtake (lk : Link) (d : Reg)
  /-- JOIN (R109). Makes each active thread a member of a named or new group. -/
  | join (lk : Link) (d : Reg) (a : Reg)
  /-- LEAVE (R110). Removes each active thread from a group. -/
  | leave (lk : Link) (a : Reg)
  /-- GBAR (R111). Arrives at the group's current phase and waits for it to complete. -/
  | gbar (lk : Link) (a : Reg)
  /-- GFIRE (R112). Arrives at the group's current phase without waiting and returns its phase. -/
  | gfire (lk : Link) (d : Reg) (a : Reg)
  /-- GSIG (R113). Tests whether a group phase has completed, acquiring when it has. -/
  | gsig (lk : Link) (d : Reg) (a : Reg) (b : Reg)
  /-- MOVI (R119). Writes a zero-extended 16-bit immediate. -/
  | movi (lk : Link) (d : Reg) (m : BitVec 16)
  /-- MOVH (R119). Replaces bits 31:16 of the destination with an immediate. -/
  | movh (lk : Link) (d : Reg) (m : BitVec 16)
  /-- IADDI (R120). Adds a signed 9-bit immediate, wrapping or saturating. -/
  | iaddi (lk : Link) (d : Reg) (a : Reg) (m : BitVec 9)
  /-- IADD (R120). Integer addition, wrapping or saturating. -/
  | iadd (lk : Link) (d : Reg) (a : Reg) (b : Reg)
  /-- ISUB (R120). Integer subtraction, wrapping or saturating. -/
  | isub (lk : Link) (d : Reg) (a : Reg) (b : Reg)
  /-- IMUL (R121). Low half of an integer product. -/
  | imul (lk : Link) (d : Reg) (a : Reg) (b : Reg)
  /-- IMULH (R121). High half of an unsigned, signed or mixed integer product. -/
  | imulh (lk : Link) (d : Reg) (a : Reg) (b : Reg)
  /-- AND (R123). Bitwise AND. -/
  | and (lk : Link) (d : Reg) (a : Reg) (b : Reg)
  /-- OR (R123). Bitwise OR. -/
  | or (lk : Link) (d : Reg) (a : Reg) (b : Reg)
  /-- XOR (R123). Bitwise XOR. -/
  | xor (lk : Link) (d : Reg) (a : Reg) (b : Reg)
  /-- ANDN (R123). A AND NOT B. -/
  | andn (lk : Link) (d : Reg) (a : Reg) (b : Reg)
  /-- SHL (R124). Logical shift left. -/
  | shl (lk : Link) (d : Reg) (a : Reg) (b : Reg)
  /-- SHR (R124). Logical shift right. -/
  | shr (lk : Link) (d : Reg) (a : Reg) (b : Reg)
  /-- SAR (R124). Arithmetic shift right. -/
  | sar (lk : Link) (d : Reg) (a : Reg) (b : Reg)
  /-- ROT (R124). Left rotation. -/
  | rot (lk : Link) (d : Reg) (a : Reg) (b : Reg)
  /-- IMIN (R125). Signed minimum. -/
  | imin (lk : Link) (d : Reg) (a : Reg) (b : Reg)
  /-- IMAX (R125). Signed maximum. -/
  | imax (lk : Link) (d : Reg) (a : Reg) (b : Reg)
  /-- UMIN (R125). Unsigned minimum. -/
  | umin (lk : Link) (d : Reg) (a : Reg) (b : Reg)
  /-- UMAX (R125). Unsigned maximum. -/
  | umax (lk : Link) (d : Reg) (a : Reg) (b : Reg)
  /-- POPC (R126). Counts the set bits of A. -/
  | popc (lk : Link) (d : Reg) (a : Reg)
  /-- CLZ (R126). Counts leading zero bits of A. -/
  | clz (lk : Link) (d : Reg) (a : Reg)
  /-- BREV (R126). Reverses the bits of A. -/
  | brev (lk : Link) (d : Reg) (a : Reg)
  /-- IABS (R126). Integer absolute value, optionally saturating. -/
  | iabs (lk : Link) (d : Reg) (a : Reg)
  /-- SEL (R127). Chooses A or B per lane by a predicate named in the EXT. -/
  | sel (lk : Link) (d : Reg) (a : Reg) (b : Reg)
  /-- LEA (R128). Forms A plus B shifted left by SEL. -/
  | lea (lk : Link) (d : Reg) (a : Reg) (b : Reg)
  /-- IMAD (R121). Integer multiply-add with a third source or the old destination. -/
  | imad (lk : Link) (d : Reg) (a : Reg) (b : Reg)
  /-- IDIVS (R122). Integer quotient or remainder, unsigned or signed, with fixed results for zero divisors. -/
  | idivs (lk : Link) (d : Reg) (a : Reg) (b : Reg)
  /-- BFX (R129). Extracts an unsigned bit field. -/
  | bfx (lk : Link) (d : Reg) (a : Reg) (b : Reg)
  /-- BFXS (R129). Extracts a sign-extended bit field. -/
  | bfxs (lk : Link) (d : Reg) (a : Reg) (b : Reg)
  /-- BFI (R129). Inserts a bit field into the destination. -/
  | bfi (lk : Link) (d : Reg) (a : Reg) (b : Reg)
  /-- ICMP (R130). Integer compare writing a predicate. -/
  | icmp (lk : Link) (k : BitVec 4) (p : BitVec 3) (a : Reg) (b : Reg)
  /-- FADD (R145). FP32 addition with one rounding. -/
  | fadd (lk : Link) (d : Reg) (a : Reg) (b : Reg)
  /-- FSUB (R145). FP32 subtraction with one rounding. -/
  | fsub (lk : Link) (d : Reg) (a : Reg) (b : Reg)
  /-- FMUL (R145). FP32 multiplication with one rounding. -/
  | fmul (lk : Link) (d : Reg) (a : Reg) (b : Reg)
  /-- FFMA (R145). FP32 fused multiply-add with one rounding. -/
  | ffma (lk : Link) (d : Reg) (a : Reg) (b : Reg)
  /-- FMIN (R146). FP32 minimum. -/
  | fmin (lk : Link) (d : Reg) (a : Reg) (b : Reg)
  /-- FMAX (R146). FP32 maximum. -/
  | fmax (lk : Link) (d : Reg) (a : Reg) (b : Reg)
  /-- FABS (R146). Clears the FP32 sign bit. -/
  | fabs (lk : Link) (d : Reg) (a : Reg)
  /-- FCMP (R147). FP32 compare writing a predicate. -/
  | fcmp (lk : Link) (k : BitVec 4) (p : BitVec 3) (a : Reg) (b : Reg)
  /-- FRCP (R148). FP32 reciprocal. -/
  | frcp (lk : Link) (d : Reg) (a : Reg)
  /-- FRSQ (R148). FP32 reciprocal square root. -/
  | frsq (lk : Link) (d : Reg) (a : Reg)
  /-- FSQRT (R148). FP32 square root. -/
  | fsqrt (lk : Link) (d : Reg) (a : Reg)
  /-- FEX2 (R148). FP32 base-2 exponential. -/
  | fex2 (lk : Link) (d : Reg) (a : Reg)
  /-- FLG2 (R148). FP32 base-2 logarithm. -/
  | flg2 (lk : Link) (d : Reg) (a : Reg)
  /-- FTANH (R148). FP32 hyperbolic tangent. -/
  | ftanh (lk : Link) (d : Reg) (a : Reg)
  /-- FSIN (R148). FP32 sine. -/
  | fsin (lk : Link) (d : Reg) (a : Reg)
  /-- FCOS (R148). FP32 cosine. -/
  | fcos (lk : Link) (d : Reg) (a : Reg)
  /-- CVTF (R151). Widens an element to FP32 or narrows FP32 into an element of the destination. -/
  | cvtf (lk : Link) (d : Reg) (a : Reg) (b : Reg)
  /-- CVTFI (R152). Converts FP32 to a 32-bit or 8-bit integer. -/
  | cvtfi (lk : Link) (d : Reg) (a : Reg) (b : Reg)
  /-- CVTIF (R153). Converts a 32-bit or 8-bit integer to FP32. -/
  | cvtif (lk : Link) (d : Reg) (a : Reg) (b : Reg)
  /-- CVTSR (R154). Stochastically narrows FP32 with supplied random bits. -/
  | cvtsr (lk : Link) (d : Reg) (a : Reg) (b : Reg)
  /-- HFMA2 (R155). Packed-pair FP16 or BF16 fused multiply-add. -/
  | hfma2 (lk : Link) (d : Reg) (a : Reg) (b : Reg)
  /-- HADD2 (R155). Packed-pair FP16 or BF16 addition. -/
  | hadd2 (lk : Link) (d : Reg) (a : Reg) (b : Reg)
  /-- HMUL2 (R155). Packed-pair FP16 or BF16 multiplication. -/
  | hmul2 (lk : Link) (d : Reg) (a : Reg) (b : Reg)
  /-- HMAX2 (R155). Packed-pair FP16 or BF16 maximum or minimum. -/
  | hmax2 (lk : Link) (d : Reg) (a : Reg) (b : Reg)
  /-- SEED (R156). Sets the thread's random generator state from A, B and the TID. -/
  | seed (lk : Link) (a : Reg) (b : Reg)
  /-- RAND (R156). Steps the generator and writes its 32-bit output. -/
  | rand (lk : Link) (d : Reg)
  /-- EXT (R50). Prefix that gives the next word a third source, rounding, saturation, guard and selector. -/
  | ext (c3 : Reg) (rm : BitVec 3) (sr : Bool) (sat : Bool) (g : BitVec 4) (sel : BitVec 4)
  /-- PERM (R162). Reads a register from a lane that each lane chooses. -/
  | perm (lk : Link) (d : Reg) (a : Reg) (b : Reg)
  /-- BCAST (R162). Broadcasts one lane's register to every active lane. -/
  | bcast (lk : Link) (d : Reg) (a : Reg) (b : Reg)
  /-- SCAN (R163). Prefix combination across member lanes in ascending order. -/
  | scan (lk : Link) (d : Reg) (a : Reg) (b : Reg)
  /-- REDL (R164). Reduction across lanes by a fixed pairwise tree. -/
  | redl (lk : Link) (d : Reg) (a : Reg) (b : Reg)
  /-- VOTE (R165). Combines per-lane votes into any, all, ballot or count. -/
  | vote (lk : Link) (d : Reg) (a : Reg) (b : Reg)
  /-- MATCH (R166). Writes the mask of member lanes holding the same value. -/
  | matchLanes (lk : Link) (d : Reg) (a : Reg)
  /-- ELECT (R167). Marks the lowest active member lane. -/
  | elect (lk : Link) (d : Reg)
  /-- LANEMASK (R168). Writes a lane mask chosen by SEL. -/
  | lanemask (lk : Link) (d : Reg) (a : Reg)
  /-- LD (R196). Loads through a buffer record from memory via the L1 and Brocade. -/
  | ld (lk : Link) (d : Reg) (buf : BitVec 5) (idx : Reg) (f : Bool) (sz : BitVec 3)
  /-- ST (R196). Stores through a buffer record to memory, registered at the home slice. -/
  | st (lk : Link) (d : Reg) (buf : BitVec 5) (idx : Reg) (f : Bool) (sz : BitVec 3)
  /-- LDS (R196). Loads from the core's scratchpad. -/
  | lds (lk : Link) (d : Reg) (buf : BitVec 5) (idx : Reg) (f : Bool) (sz : BitVec 3)
  /-- STS (R196). Stores to the core's scratchpad. -/
  | sts (lk : Link) (d : Reg) (buf : BitVec 5) (idx : Reg) (f : Bool) (sz : BitVec 3)
  /-- LDW (R196). Loads through the cluster window. -/
  | ldw (lk : Link) (d : Reg) (buf : BitVec 5) (idx : Reg) (f : Bool) (sz : BitVec 3)
  /-- STW (R196). Stores through the cluster window. -/
  | stw (lk : Link) (d : Reg) (buf : BitVec 5) (idx : Reg) (f : Bool) (sz : BitVec 3)
  /-- PREF (R197). Prefetches lines into Brocade and optionally the L1. -/
  | pref (lk : Link) (buf : BitVec 5) (idx : Reg) (sz : BitVec 3)
  /-- BUFSET (R198). Front end checks and sets a buffer record. -/
  | bufset (i : BitVec 2) (d : Reg) (a : Reg) (b : Reg)
  /-- FREC (R201). Pops the oldest fault record of the launch into eight registers. -/
  | frec (lk : Link) (d : Reg)
  /-- FREC_XLATE (R201). Handler role waits for and takes a pending translation request. -/
  | frecXlate (lk : Link) (d : Reg)
  /-- MIGCTL_START (R202). Opens the migration of a mapped 64 KiB page to a new frame. -/
  | migctlStart (lk : Link) (d : Reg) (a : Reg) (b : Reg)
  /-- MIGCTL_QUERY (R202). Reads the progress of a page migration. -/
  | migctlQuery (lk : Link) (d : Reg) (a : Reg) (b : Reg)
  /-- MIGCTL_RESOLVE (R202). Releases, then replays every line attached to a translation entry. -/
  | migctlResolve (lk : Link) (d : Reg) (a : Reg) (b : Reg)
  /-- MIGCTL_ABORT (R202). Completes the lines attached to a translation entry with XLATE. -/
  | migctlAbort (lk : Link) (d : Reg) (a : Reg) (b : Reg)
  /-- MIGCTL_INVPG (R202). Removes a page's translations from every core of the partition. -/
  | migctlInvpg (lk : Link) (d : Reg) (a : Reg) (b : Reg)
  /-- QPUSH (R199). Front end posts a 64-bit value to a role's warp queue. -/
  | qpush (i : BitVec 2) (a : Reg) (b : Reg)
  /-- QPOP (R200). Collective that takes the warp's next warp-queue entry. -/
  | qpop (lk : Link) (d : Reg)
  /-- ATOM (R221). Atomic read-modify-write at the home slice returning the old value. -/
  | atom (lk : Link) (d : Reg) (buf : BitVec 5) (idx : Reg) (f : Bool) (sz : BitVec 3)
  /-- ATOM_ACQ (R221). Atomic read-modify-write followed by the acquire invalidation. -/
  | atomAcq (lk : Link) (d : Reg) (buf : BitVec 5) (idx : Reg) (f : Bool) (sz : BitVec 3)
  /-- ATOM_REL (R221). Atomic read-modify-write after the release condition. -/
  | atomRel (lk : Link) (d : Reg) (buf : BitVec 5) (idx : Reg) (f : Bool) (sz : BitVec 3)
  /-- CAS (R222). Compare and swap with optional acquire and release. -/
  | cas (lk : Link) (d : Reg) (buf : BitVec 5) (idx : Reg) (f : Bool) (sz : BitVec 3)
  /-- ATOMNR (R221). Atomic read-modify-write that returns nothing. -/
  | atomnr (lk : Link) (d : Reg) (buf : BitVec 5) (idx : Reg) (f : Bool) (sz : BitVec 3)
  /-- SATOM (R221). Atomic read-modify-write at a scratchpad bank. -/
  | satom (lk : Link) (d : Reg) (buf : BitVec 5) (idx : Reg) (f : Bool) (sz : BitVec 3)
  /-- ACQ (R223). Waits for loads to complete, then invalidates unowned L1 words. -/
  | acq (lk : Link)
  /-- REL (R223). Waits until earlier stores are registered and loads complete. -/
  | rel (lk : Link)
  /-- FENCE (R223). Release condition followed by the acquire invalidation. -/
  | fence (lk : Link)
  /-- BWAIT (R227). Waits until a barrier phase completes, then observes it. -/
  | bwait (lk : Link) (a : Reg) (b : Reg)
  /-- BINIT (R224). Initialises a barrier object's count and clears its pending bytes. -/
  | binit (lk : Link) (a : Reg) (b : Reg)
  /-- BARRIVE (R226). Arrives at a barrier after loads complete and returns the phase. -/
  | barrive (lk : Link) (d : Reg) (a : Reg)
  /-- BEXPECT (R225). Adds expected bytes to a barrier's pending count. -/
  | bexpect (lk : Link) (a : Reg) (b : Reg)
  /-- BTEST (R228). Tests a barrier phase without waiting, observing it when complete. -/
  | btest (lk : Link) (d : Reg) (a : Reg) (b : Reg)
  /-- NDEF (R242). Makes a Jacquard slot an empty node, or frees it. -/
  | ndef (lk : Link) (f : Bool) (node : BitVec 8) (a : Reg)
  /-- NEDGE (R242). Adds or removes a dependence edge between two slots. -/
  | nedge (lk : Link) (f : Bool) (node : BitVec 8) (a : Reg)
  /-- NFIRE (R243). After the release condition, fires a slot for launch. -/
  | nfire (lk : Link) (f : Bool) (node : BitVec 8)
  /-- CPY (R237). Loads a copy command into a Jacquard slot. -/
  | cpy (lk : Link) (f : Bool) (node : BitVec 8) (a : Reg)
  /-- GATH (R237). Loads a gather command into a Jacquard slot. -/
  | gath (lk : Link) (f : Bool) (node : BitVec 8) (a : Reg)
  /-- SCAT (R237). Loads a scatter command into a Jacquard slot. -/
  | scat (lk : Link) (f : Bool) (node : BitVec 8) (a : Reg)
  /-- NWAIT (R244). Waits until a slot is at rest and returns its STATUS. -/
  | nwait (lk : Link) (f : Bool) (node : BitVec 8) (a : Reg)
  /-- MRESV (R259). Claims an accumulator index for the warp, zeroing its tiles. -/
  | mresv (lk : Link) (acc : BitVec 3) (a : Reg)
  /-- MLDB (R260). Loads B latches with 32 rows from a scratchpad record. -/
  | mldb (lk : Link) (f : Bool) (a : Reg) (k : BitVec 4)
  /-- MGATH (R261). Gathers A latch rows by a per-lane index vector. -/
  | mgath (lk : Link) (f : Bool) (a : Reg) (h : Bool) (k : BitVec 4)
  /-- MMA (R265). Posts one matrix pass on an accumulator. -/
  | mma (lk : Link) (acc : BitVec 3) (mode : BitVec 2) (f : Bool) (z : Bool) (t : BitVec 4)
  /-- MTRN (R262). Loads B latches transposed from K-row storage. -/
  | mtrn (lk : Link) (f : Bool) (a : Reg) (s : Bool) (k : BitVec 4)
  /-- MZERO (R264). Zeroes an accumulator tile in the masked sub-arrays. -/
  | mzero (lk : Link) (acc : BitVec 3) (f : Bool) (k : BitVec 4)
  /-- MST (R267). Converts and stores accumulator tiles, crediting a barrier. -/
  | mst (lk : Link) (acc : BitVec 3) (mode : BitVec 2) (f : Bool) (a : Reg) (l : Bool) (t : BitVec 4)
  /-- MSCALE (R263). Writes E8M0 block scales from registers into scale latches. -/
  | mscale (lk : Link) (g : BitVec 3) (f : Bool) (a : Reg) (e : Bool) (h : Bool) (k : BitVec 4)
  /-- MFREE (R259). Puts the warp's claimed accumulator index into FREEING. -/
  | mfree (lk : Link) (acc : BitVec 3)
  /-- TREG (R277). Registers a tensor in the VF's tensor table and advances its generation. -/
  | treg (lk : Link) (d : Reg) (a : Reg)
  /-- TDROP (R278). Frees a tensor entry after draining accepted requests and writing back. -/
  | tdrop (lk : Link) (a : Reg)
  /-- TFETCH (R279). Fills a tile and its neighbours into their home slices. -/
  | tfetch (lk : Link) (a : Reg) (b : Reg)
  /-- THALO (R280). Pushes a tile's halo lines into the L1s of named cores. -/
  | thalo (lk : Link) (d : Reg) (a : Reg) (b : Reg)
  /-- TINV (R281). Invalidates every line of a tensor with write-back or discard. -/
  | tinv (lk : Link) (a : Reg) (b : Reg)
  /-- TLOOK (R282). Asks a home slice the status of one tensor line. -/
  | tlook (lk : Link) (d : Reg) (a : Reg) (b : Reg)
  /-- SNAP (R296). Freezes the thread into a Damask entry and writes its handle. -/
  | snap (lk : Link) (d : Reg) (a : Reg)
  /-- REST (R297). Replaces the thread's state with a handle's and resumes after the SNAP. -/
  | rest (lk : Link) (d : Reg) (a : Reg)
  /-- SPAWN (R298). Starts siblings from a handle in the handle's slice. -/
  | spawn (lk : Link) (d : Reg) (a : Reg) (n : BitVec 4)
  /-- SPAWN_FAR (R299). Starts siblings from a handle, spilling into other slices of the core. -/
  | spawnFar (lk : Link) (d : Reg) (a : Reg) (n : BitVec 4)
  /-- DROP (R300). Frees a handle's entry and advances its generation. -/
  | drop (lk : Link) (a : Reg)
  /-- HINFO (R301). Reads one information word of a handle. -/
  | hinfo (lk : Link) (d : Reg) (a : Reg) (n : BitVec 4)
  /-- RECRUIT (R304). Forms a helper team in offered or empty lanes. -/
  | recruit (lk : Link) (d : Reg) (a : Reg) (n : BitVec 4)
  /-- OFFER (R302). Parks the thread and makes its lane available to RECRUIT. -/
  | offer (lk : Link) (d : Reg) (a : Reg)
  /-- HEND (R307). Ends a helper after a release and records its value for the team. -/
  | hend (lk : Link) (a : Reg) (n : BitVec 4)
  /-- HWAIT (R308). Waits for the team's helpers, combines their values and acquires. -/
  | hwait (lk : Link) (d : Reg)
  /-- HKILL (R310). Ends every unfinished helper of the thread's team. -/
  | hkill (lk : Link) (d : Reg)
  /-- KVNEW_SEQ (R331). Takes a free sequence record of a pool. -/
  | kvnewSeq (lk : Link) (d : Reg) (a : Reg) (pd : BitVec 3) (pe : Bool)
  /-- KVNEW_POOL (R331). Creates a key-value pool as a FORMAT 2 tensor entry. -/
  | kvnewPool (lk : Link) (d : Reg) (a : Reg) (pd : BitVec 3) (pe : Bool)
  /-- KVNEW_DROP (R331). Frees a pool and abandons its pages and records. -/
  | kvnewDrop (lk : Link) (d : Reg) (a : Reg) (pd : BitVec 3) (pe : Bool)
  /-- KVAPP (R332). Appends one tagged token slot to a sequence. -/
  | kvapp (lk : Link) (d : Reg) (a : Reg) (pd : BitVec 3) (pe : Bool)
  /-- KVFORK (R333). Forks a sequence into a new record sharing its pages. -/
  | kvfork (lk : Link) (d : Reg) (a : Reg) (pd : BitVec 3) (pe : Bool)
  /-- KVFORK_COW (R333). Handler role services the oldest key-value copy request. -/
  | kvforkCow (lk : Link) (d : Reg) (pd : BitVec 3) (pe : Bool)
  /-- KVFREE (R334). Unlinks every page of a sequence and clears its record. -/
  | kvfree (lk : Link) (d : Reg) (a : Reg) (pd : BitVec 3) (pe : Bool)
  /-- KVFREE_TRUNC (R334). Shortens a sequence back to a position. -/
  | kvfreeTrunc (lk : Link) (d : Reg) (a : Reg) (pd : BitVec 3) (pe : Bool)
  /-- KVWALK (R335). Returns the next page of a chain and starts a Twill chase. -/
  | kvwalk (lk : Link) (d : Reg) (a : Reg) (pd : BitVec 3) (pe : Bool)
  /-- KVINV_SET (R336). Sets invalid bits of slots in a page of a sequence. -/
  | kvinvSet (lk : Link) (d : Reg) (a : Reg) (pd : BitVec 3) (pe : Bool)
  /-- KVINV_CLR (R336). Clears invalid bits of slots in a page of a sequence. -/
  | kvinvClr (lk : Link) (d : Reg) (a : Reg) (pd : BitVec 3) (pe : Bool)
  /-- RSPAN (R337). Retires every slot of a tag in a sequence, unlinking wholly tagged pages. -/
  | rspan (lk : Link) (d : Reg) (a : Reg) (pd : BitVec 3) (pe : Bool)
  /-- XQSEND (R343). After a release, sends a 64-byte message to another die's queue. -/
  | xqsend (lk : Link) (d : Reg) (a : Reg)
  /-- XQRECV (R344). Waits for and takes a message of matching sequence number, then acquires. -/
  | xqrecv (lk : Link) (d : Reg) (a : Reg)
  /-- XQRECV_DRAFT (R344). Takes a draft message and checks its identifiers against the vocabulary. -/
  | xqrecvDraft (lk : Link) (d : Reg) (a : Reg)
  /-- GSTEP (R348). Advances grammar state blocks by a token. -/
  | gstep (lk : Link) (d : Reg) (a : Reg) (pd : BitVec 3) (pe : Bool)
  /-- GSTEP_BIND (R347). Binds or unbinds a grammar slot to a table. -/
  | gstepBind (lk : Link) (d : Reg) (a : Reg) (pd : BitVec 3) (pe : Bool)
  /-- GMASK (R349). Writes a chunk of the allowed-token mask with count and lowest token. -/
  | gmask (lk : Link) (d : Reg) (a : Reg) (pd : BitVec 3) (pe : Bool)
  /-- KVQUOTA_RD (R338). Reads a quota register. -/
  | kvquotaRd (lk : Link) (d : Reg) (a : Reg)
  /-- KVQUOTA_WR (R338). Writes a quota register. -/
  | kvquotaWr (lk : Link) (d : Reg) (a : Reg)
  /-- TRAP (R378). Raises USER_TRAP with a code. -/
  | trap (lk : Link) (a : Reg)
  /-- TRET_RETRY (R379). Resumes the trapped thread at the trapping group. -/
  | tretRetry (lk : Link) (d : Reg) (a : Reg) (b : Reg)
  /-- TRET_NEXT (R379). Resumes the trapped thread after the trapping group with returned values. -/
  | tretNext (lk : Link) (d : Reg) (a : Reg) (b : Reg)
  /-- TRET_END (R379). Drops the trap entry and ends the thread as EXIT does. -/
  | tretEnd (lk : Link) (d : Reg) (a : Reg) (b : Reg)
  /-- SYSRD (R380). Reads a system register. -/
  | sysrd (lk : Link) (d : Reg) (b : Reg)
  /-- SYSWR (R380). Writes a system register by its map. -/
  | syswr (lk : Link) (a : Reg) (b : Reg)
  /-- PERF (R381). Reads, and optionally clears, a performance counter. -/
  | perf (lk : Link) (d : Reg) (a : Reg)
  /-- HALTCTX (R382). Makes a pre-emption rung of a VF's context happen at once, or queries it. -/
  | haltctx (lk : Link) (d : Reg) (a : Reg)
  /-- CKPT_CUT (R383). Starts a checkpoint cut of the partition. -/
  | ckptCut (lk : Link) (d : Reg)
  /-- CKPT_QUERY (R383). Returns CKPTCTL. -/
  | ckptQuery (lk : Link) (d : Reg)
  /-- CKPT_ABORT (R383). Aborts a running checkpoint and unfreezes every piece. -/
  | ckptAbort (lk : Link) (d : Reg)
  /-- CKPT_RESTORE (R374). Tears down covered contexts and restores a checkpoint image. -/
  | ckptRestore (lk : Link) (d : Reg)
  /-- WDOG (R384). Returns the units left before WATCHDOG. -/
  | wdog (lk : Link) (d : Reg)
  /-- WDOG_SET (R384). Sets the thread's deadline and returns the units left. -/
  | wdogSet (lk : Link) (d : Reg) (a : Reg)
  /-- WATCHDOG (R69). YC passing DL times 1,024 ends the launch. -/
  | watchdog (core : Nat) (uid : Nat)
  /-- SLEEP_WAKE (R88). A sleeping thread's count runs out and it becomes runnable. -/
  | sleepWake (core : Nat) (uid : Nat)
  /-- OFFER_TIMEOUT (R302). A parked thread's cycle limit passes and it leaves the park with 0. -/
  | offerTimeout (core : Nat) (uid : Nat)
  /-- TEARDOWN_COMPLETE (R362). Teardown of a launch finishes and its node is failed. -/
  | teardownComplete (launch : Nat)
  /-- LOAD_DATA_ARRIVAL (R184). Fill data arrive, the destination is written and the lane's flag falls. -/
  | loadDataArrival (core : Nat) (req : Nat)
  /-- STORE_REGISTRATION (R184). A home slice registers store bytes, revokes the previous owner and acknowledges. -/
  | storeRegistration (core : Nat) (req : Nat)
  /-- STORE_GRANT (R184). The ownership grant returns and the storing core marks the words owned. -/
  | storeGrant (core : Nat) (req : Nat)
  /-- ATOMIC_PERFORMANCE (R205). A home slice performs an atomic lane operation on a word. -/
  | atomicPerformance (core : Nat) (req : Nat)
  /-- ATOMIC_RESULT_ARRIVAL (R208). An atomic's returned value or acknowledgement reaches the core and its flag falls. -/
  | atomicResultArrival (core : Nat) (req : Nat)
  /-- TRANSLATION_WALK (R176). A page walk for a line request completes. -/
  | translationWalk (core : Nat) (req : Nat)
  /-- MIGRATION_LINE_COPY (R190). The migration controller copies one line and advances its progress pointer. -/
  | migrationLineCopy (die : Nat) (entry : Nat)
  /-- BARRIER_RECHECK (R214). A barrier whose new phase has no arrivals left is checked again in the next cycle. -/
  | barrierRecheck (core : Nat) (barrier : Nat)
  /-- JACQUARD_WORD_APPLY (R232). The Jacquard unit applies one engine word to a slot. -/
  | jacquardWordApply (cluster : Nat)
  /-- ENGINE_LAUNCH (R232). A launchable slot launches on a free channel. -/
  | engineLaunch (cluster : Nat)
  /-- ENGINE_LAUNCH_COMPLETION (R235). A launch finishes its elements, credits its barrier and releases its successors. -/
  | engineLaunchCompletion (cluster : Nat) (slot : Nat)
  /-- MATRIX_WORD_APPLY (R249). A matrix word reaches the engine and applies in the core's order. -/
  | matrixWordApply (core : Nat)
  /-- MATRIX_PASS_GRANT (R250). The arbiter grants one eligible reservation entry. -/
  | matrixPassGrant (cluster : Nat)
  /-- MATRIX_PASS_COMPLETE (R251). A granted pass finishes and its tiles hold the result. -/
  | matrixPassComplete (cluster : Nat)
  /-- LATCH_LOAD_COMPLETE (R251). The last latch row is written and the load's flag falls. -/
  | latchLoadComplete (core : Nat)
  /-- MST_CREDIT (R267). Every MST element is written and the barrier is credited. -/
  | mstCredit (core : Nat) (id : Nat)
  /-- BROCADE_SWEEP (R273). A home slice sweeps one line, removing stale generations. -/
  | brocadeSweep (n : Nat)
  /-- TINV_SLICE_APPLY (R281). A home slice makes the old generation of a tensor unreachable. -/
  | tinvSliceApply (core : Nat) (uid : Nat) (slice : Nat)
  /-- TWILL_CHASE (R335). The Twill walker fills the pages that follow in a chain. -/
  | twillChase (die : Nat)
  /-- POOL_LANE_OPERATION (R323). A pool agent applies one lane operation atomically. -/
  | poolLaneOperation (vf : Nat) (pool : Nat)
  /-- GRAPH_LOAD_COMPLETE (R95). The image read and check finish and the slot is loaded or left empty. -/
  | graphLoadComplete (vf : Nat) (slot : Nat)
  /-- RUN_START (R97). A queued trigger reaches the head and its run starts. -/
  | runStart (vf : Nat) (slot : Nat)
  /-- SCHEDULER_DISPATCH (R101). The scheduler places one ready instance on free cores. -/
  | schedulerDispatch
  /-- LAUNCH_COMPLETE (R99). A launch completes when its threads have ended and its trackers drained. -/
  | launchComplete (launch : Nat)
  /-- SLICE_EXPIRY (R365). The time slice ends and the soft request is made or the slice restarts. -/
  | sliceExpiry (vf : Nat)
  /-- GRACE_EXPIRY (R365). The grace timer expires before the save begins. -/
  | graceExpiry (vf : Nat)
  /-- KILL_EXPIRY (R365). The kill timer expires and the context is torn down. -/
  | killExpiry (vf : Nat)
  /-- CONTEXT_SAVE (R366). A halted and drained context is written to the SAVE region. -/
  | contextSave (vf : Nat)
  /-- CONTEXT_RESUME (R368). A saved context is restored onto cores and resumes. -/
  | contextResume (vf : Nat)
  /-- CHECKPOINT_SWEEP (R370). All contexts saved, the register part is formed and memory pieces are frozen. -/
  | checkpointSweep (part : Nat)
  /-- PIECE_RESERVE_COPY (R371). A write to a frozen piece is held while the piece is copied to the reserve. -/
  | pieceReserveCopy (part : Nat) (piece : Nat)
  /-- CHECKPOINT_DRAIN (R372). The drain streams a piece to the host buffer and unfreezes it. -/
  | checkpointDrain (part : Nat)
  /-- QUANTUM_SCRUB (R390). Firmware scrubs a drained quantum and sets it offline. -/
  | quantumScrub (q : Nat)
  /-- POWER_ON (R405). The boot ROM runs the start-up stages or enters the safe state. -/
  | powerOn (outcome : BootOutcome)
  /-- UNALLOCATED_ENCODING (R54). Fetch and issue of a word that is no instruction, or of a packet outside the segment, raises ILLEGAL_INSTRUCTION or ILLEGAL_PACKET. -/
  | unallocatedEncoding (packet : Bool) (slot : Nat)
  /-- MESSAGE_ENQUEUED (R343). An XQSEND message arrives over the fabric in the target die's queue, the XQSEND completes, and a waiting XQRECV can take it. -/
  | messageEnqueued (core : Nat) (uid : Nat)
  /-- GRAPHLOAD_LOAD (R95). A GRAPHLOAD write starts reading and checking a graph image into a slot. -/
  | graphloadLoad (vf : Nat) (slot : Nat) (va : BitVec 64)
  /-- GRAPHLOAD_UNLOAD (R95). A GRAPHLOAD write with UNLOAD empties a graph slot. -/
  | graphloadUnload (vf : Nat) (slot : Nat)
  /-- TRIGGER_WRITE (R96). A TRIGGER write queues a run of a graph slot. -/
  | triggerWrite (vf : Nat) (slot : Nat) (patch : BitVec 64)
  /-- GRAPHSTAT_WRITE (R100). A write with nonzero ERR clears ERR and NODE and restarts a stopped slot. -/
  | graphstatWrite (vf : Nat) (slot : Nat) (v : BitVec 64)
  /-- PCFG (R387). Firmware checks and creates or updates a partition from a partition record. -/
  | pcfg (part : Nat) (record : List (BitVec 8))
  /-- QMOVE (R390). Starts draining a quantum for transfer to another partition. -/
  | qmove (q : Nat) (target : Nat)
  /-- QUANTUM_ONLINE (R390). The target OS brings an offline quantum into its partition. -/
  | quantumOnline (q : Nat) (part : Nat)
  /-- MEMORY_RELEASE (R389). Firmware removes released memory from a partition and zeroes it. -/
  | memoryRelease (part : Nat) (cxl : Bool) (unit : Nat) (count : Nat)
  /-- FWUPDATE (R405). Safe-state mailbox command to update firmware. -/
  | fwupdate (image : List (BitVec 8))
  /-- HOST_CXL_MEM_WRITE (R400). A host CXL.mem write is registered at its home slice and completed. -/
  | hostCxlMemWrite (pf : Bool) (vf : Nat) (addr : Nat) (bytes : List (BitVec 8))
  /-- HOST_CXL_MEM_READ (R399). A host CXL.mem read is served through a home slice. -/
  | hostCxlMemRead (pf : Bool) (vf : Nat) (addr : Nat) (len : Nat)
  /-- HARESP_RESOLVE (R393). Host answer that resolves a translation request. -/
  | harespResolve (part : Nat) (arg : BitVec 32) (tag : BitVec 16)
  /-- HARESP_ABORT (R393). Host answer that aborts a translation request. -/
  | harespAbort (part : Nat) (arg : BitVec 32) (tag : BitVec 16)
  /-- HARESP_MAKE_COPY (R393). Host answer that makes a key-value page copy at the agent. -/
  | harespMakeCopy (part : Nat) (arg : BitVec 32) (tag : BitVec 16)
  /-- HARESP_START_RUN (R395). Host answer that queues a device-side trigger. -/
  | harespStartRun (part : Nat) (arg : BitVec 32) (tag : BitVec 16)
  /-- HARESP_DISCARD_RUN (R395). Host answer that drops a device-side trigger. -/
  | harespDiscardRun (part : Nat) (arg : BitVec 32) (tag : BitVec 16)
  /-- HARESP_PIECE_DRAINED (R396). Host answer that unfreezes a drained checkpoint piece. -/
  | harespPieceDrained (part : Nat) (arg : BitVec 32) (tag : BitVec 16)
  /-- HAQHEAD_WRITE (R398). Host advances the host-assist queue head, refused if it would pass TAIL. -/
  | haqheadWrite (part : Nat) (v : BitVec 32)
  /-- CLHANDLER_WRITE (R354). Claims or releases the cluster's handler launch. -/
  | clhandlerWrite (core : Nat) (uid : Nat) (fe : Bool) (v : BitVec 32)
  /-- PERFSEL_WRITE (R375). Selects a counter's event and clears the counter. -/
  | perfselWrite (vf : Nat) (n : Nat) (v : BitVec 32)
  /-- PRETIMERS_WRITE (R364). Sets the slice, grace and kill times, raising KILL above GRACE. -/
  | pretimersWrite (vf : Nat) (v : BitVec 32)
  /-- REGISTER_WRITE (R380). A write to a register with no row of its own takes effect by its map. -/
  | registerWrite (target : RegTarget) (v : BitVec 64)
  /-- UNCORRECTABLE_ERROR (R402). An uncorrectable memory error poisons sectors. -/
  | uncorrectableError (pa : Nat)
  /-- CLOCK_STEP (R410). Firmware lowers or raises the core clock by one 50 MHz step. -/
  | clockStep (up : Bool)
  /-- GET_CERTIFICATE (R407). SPDM request for the device certificate chain. -/
  | getCertificate (offset : Nat) (len : Nat)
  /-- CHALLENGE (R407). SPDM challenge signed by the device identity. -/
  | challenge (nonce : List (BitVec 8))
  /-- GET_MEASUREMENTS (R407). SPDM request for firmware, Zynrus or partition image measurements. -/
  | getMeasurements (index : Nat)
  /-- UNSUPPORTED_REQUEST (R407). An unsupported SPDM request returns ERROR with UnsupportedRequest. -/
  | unsupportedRequest (code : BitVec 8)
  /-- OTHER_HOST_WRITE (R401). Another host writes a shared or multi-headed CXL memory device behind a die's port without passing a home slice, leaving Brocade lines stale. -/
  | otherHostWrite (pa : Nat) (bytes : List (BitVec 8))
  /-- CONTROLLER_DMA (R403). An NVMe controller or Ethernet port writes or reads partition memory by DMA through the home slices under the system VF's flat keys. -/
  | controllerDma (part : Nat) (addr : Nat) (xfer : DmaXfer)
  /-- NVME_COMMAND (R403). An NVMe command of a partition is checked, and one naming another namespace is rejected with status Invalid Namespace or Format. -/
  | nvmeCommand (part : Nat) (nsid : Nat)
  /-- REPORT (R405). Safe-state mailbox command returning the self-test report. -/
  | report
  /-- RETRAIN (R405). Safe-state mailbox command to retrain links. -/
  | retrain
  /-- PCIE_LINK_ERROR (R397). An uncorrectable host link error fails a running checkpoint. -/
  | pcieLinkError
  /-- DEVICE_RESET (R405). Reset returns the device to power-on start-up. -/
  | deviceReset
  /-- GET_VERSION (R407). SPDM request for supported versions. -/
  | getVersion
  /-- GET_CAPABILITIES (R407). SPDM request for capabilities. -/
  | getCapabilities
  /-- NEGOTIATE_ALGORITHMS (R407). SPDM request that settles ML-DSA-44 and SHA3-256. -/
  | negotiateAlgorithms
  /-- GET_DIGESTS (R407). SPDM request for certificate chain digests. -/
  | getDigests
  deriving DecidableEq, Repr

end Sys2Proof
end

