-- ==== Sys2Proof/Decode.lean ====
section
/-! DEFINITION. The decoder of the instruction words (R31, R47 to R54) and the encoder written from the same tables.
Rows that share a word are told apart by the SEL field of the EXT before them (R50), which `decodeWord` takes. -/

namespace Sys2Proof

/-- C of R31. -/
def wordC (w : Word) : Bool := w.extractLsb' 31 1 == 1#1
/-- D of R31. -/
def wordD (w : Word) : BitVec 2 := w.extractLsb' 29 2
/-- MAJ of R31. -/
def wordMaj (w : Word) : BitVec 6 := w.extractLsb' 23 6
/-- C and D together. -/
def wordLink (w : Word) : Link := ⟨wordC w, wordD w⟩


/-! Format H of R47. -/
def hWait (w : Word) : BitVec 12 := w.extractLsb' 11 12
def hSetA (w : Word) : BitVec 4 := w.extractLsb' 7 4
def hSetB (w : Word) : BitVec 4 := w.extractLsb' 3 4
def hY (w : Word) : Bool := w.extractLsb' 2 1 == 1#1
def hRes (w : Word) : BitVec 2 := w.extractLsb' 0 2

/-! Format V of R47. -/
def vFn (w : Word) : BitVec 2 := w.extractLsb' 21 2
def vDst (w : Word) : BitVec 7 := w.extractLsb' 14 7
def vA (w : Word) : BitVec 7 := w.extractLsb' 7 7
def vB (w : Word) : BitVec 7 := w.extractLsb' 0 7

/-! Format I of R47. -/
def iDst (w : Word) : BitVec 7 := w.extractLsb' 16 7
def iA (w : Word) : BitVec 7 := w.extractLsb' 9 7
def iImm (w : Word) : BitVec 9 := w.extractLsb' 0 9

/-! Format K of R47. -/
def kDst (w : Word) : BitVec 7 := w.extractLsb' 16 7
def kImm (w : Word) : BitVec 16 := w.extractLsb' 0 16

/-! Format B of R47. -/
def bP (w : Word) : BitVec 3 := w.extractLsb' 20 3
def bN (w : Word) : Bool := w.extractLsb' 19 1 == 1#1
def bOff (w : Word) : BitVec 19 := w.extractLsb' 0 19

/-! Format M of R47. -/
def mData (w : Word) : BitVec 7 := w.extractLsb' 16 7
def mBuf (w : Word) : BitVec 5 := w.extractLsb' 11 5
def mIdx (w : Word) : BitVec 7 := w.extractLsb' 4 7
def mF (w : Word) : Bool := w.extractLsb' 3 1 == 1#1
def mSz (w : Word) : BitVec 3 := w.extractLsb' 0 3

/-! Format X of R47. -/
def xC3 (w : Word) : BitVec 7 := w.extractLsb' 16 7
def xRm (w : Word) : BitVec 3 := w.extractLsb' 13 3
def xSr (w : Word) : Bool := w.extractLsb' 12 1 == 1#1
def xSat (w : Word) : Bool := w.extractLsb' 11 1 == 1#1
def xG (w : Word) : BitVec 4 := w.extractLsb' 7 4
def xSel (w : Word) : BitVec 4 := w.extractLsb' 3 4
def xRes (w : Word) : BitVec 3 := w.extractLsb' 0 3

/-! Format E of R47. -/
def eOp (w : Word) : BitVec 3 := w.extractLsb' 20 3
def eF (w : Word) : Bool := w.extractLsb' 19 1 == 1#1
def eNode (w : Word) : BitVec 8 := w.extractLsb' 11 8
def eA (w : Word) : BitVec 7 := w.extractLsb' 4 7
def eRes (w : Word) : BitVec 4 := w.extractLsb' 0 4

/-! Format MX of R47. -/
def mxOp (w : Word) : BitVec 4 := w.extractLsb' 19 4
def mxAcc (w : Word) : BitVec 3 := w.extractLsb' 16 3
def mxMode (w : Word) : BitVec 2 := w.extractLsb' 14 2
def mxF (w : Word) : Bool := w.extractLsb' 13 1 == 1#1
def mxA (w : Word) : BitVec 7 := w.extractLsb' 6 7
def mxOpt (w : Word) : BitVec 6 := w.extractLsb' 0 6

/-! Format S of R47. -/
def sOp (w : Word) : BitVec 4 := w.extractLsb' 19 4
def sF (w : Word) : Bool := w.extractLsb' 18 1 == 1#1
def sDst (w : Word) : BitVec 7 := w.extractLsb' 11 7
def sA (w : Word) : BitVec 7 := w.extractLsb' 4 7
def sN (w : Word) : BitVec 4 := w.extractLsb' 0 4

/-! Format KV of R47. -/
def kvOp (w : Word) : BitVec 4 := w.extractLsb' 19 4
def kvF (w : Word) : Bool := w.extractLsb' 18 1 == 1#1
def kvDst (w : Word) : BitVec 7 := w.extractLsb' 11 7
def kvA (w : Word) : BitVec 7 := w.extractLsb' 4 7
def kvPd (w : Word) : BitVec 3 := w.extractLsb' 1 3
def kvPe (w : Word) : Bool := w.extractLsb' 0 1 == 1#1

/-! The compare majors split DST into COND and PD (R48). -/
def cmpCond (w : Word) : BitVec 4 := w.extractLsb' 17 4
def cmpPd (w : Word) : BitVec 3 := w.extractLsb' 14 3


/-- Major 0x01 of R52. -/
def decodeMaj01 (_ : BitVec 4) (w : Word) : Option Instr :=
  if wordC w = false ∧ wordD w = 0#2 ∧ hRes w = 0#2 then some (.hdr (hWait w) (hSetA w) (hSetB w) (hY w)) else none

/-- Major 0x02 of R52. -/
def decodeMaj02 (_ : BitVec 4) (w : Word) : Option Instr :=
  if wordC w = false ∧ bP w = 0#3 ∧ bN w = false then some (.bra (wordD w) (bOff w)) else none

/-- Major 0x03 of R52. -/
def decodeMaj03 (_ : BitVec 4) (w : Word) : Option Instr :=
  if wordC w = false then some (.brc (wordD w) (bP w) (bN w) (bOff w)) else none

/-- Major 0x04 of R52. -/
def decodeMaj04 (_ : BitVec 4) (w : Word) : Option Instr :=
  if wordC w = false ∧ bP w = 0#3 ∧ bN w = false then some (.call (wordD w) (bOff w)) else none

/-- Major 0x05 of R52. -/
def decodeMaj05 (_ : BitVec 4) (w : Word) : Option Instr :=
  match (w.extractLsb' 21 2).toNat with
  | 0 => if vDst w = 0#7 ∧ vA w = 0#7 ∧ vB w = 0#7 then some (.nop (wordLink w)) else none
  | 1 => if wordC w = false ∧ vDst w = 0#7 ∧ vB w = 0#7 then some (.brx (wordD w) (vA w)) else none
  | 2 => if wordC w = false ∧ vDst w = 0#7 ∧ vB w = 0#7 then some (.ret (wordD w) (vA w)) else none
  | 3 => if vDst w = 0#7 ∧ vA w = 0#7 ∧ vB w = 0#7 then some (.exit (wordLink w)) else none
  | _ => none

/-- Major 0x06 of R52. -/
def decodeMaj06 (_ : BitVec 4) (w : Word) : Option Instr :=
  match (w.extractLsb' 21 2).toNat with
  | 0 => if vDst w = 0#7 ∧ vA w = 0#7 ∧ vB w = 0#7 then some (.tail (wordLink w)) else none
  | 1 => if vDst w = 0#7 ∧ vB w = 0#7 then some (.prio (wordLink w) (vA w)) else none
  | 2 => if vDst w = 0#7 ∧ vB w = 0#7 then some (.sleep (wordLink w) (vA w)) else none
  | _ => none

/-- Major 0x07 of R52. -/
def decodeMaj07 (_ : BitVec 4) (w : Word) : Option Instr :=
  if kDst w = 0#7 ∧ (kImm w).extractLsb' 8 8 = 0#8 then some (.yield (wordLink w) ((kImm w).extractLsb' 0 8)) else none

/-- Major 0x08 of R52. -/
def decodeMaj08 (_ : BitVec 4) (w : Word) : Option Instr :=
  match (w.extractLsb' 21 2).toNat with
  | 0 => if wordC w = false ∧ vDst w = 0#7 then some (.dqput (wordD w) (vA w) (vB w)) else none
  | 1 => if vA w = 0#7 ∧ vB w = 0#7 then some (.dqtake (wordLink w) (vDst w)) else none
  | _ => none

/-- Major 0x09 of R52. -/
def decodeMaj09 (_ : BitVec 4) (w : Word) : Option Instr :=
  match (w.extractLsb' 21 2).toNat with
  | 0 => if vB w = 0#7 then some (.join (wordLink w) (vDst w) (vA w)) else none
  | 1 => if vDst w = 0#7 ∧ vB w = 0#7 then some (.leave (wordLink w) (vA w)) else none
  | 2 => if vDst w = 0#7 ∧ vB w = 0#7 then some (.gbar (wordLink w) (vA w)) else none
  | 3 => if vB w = 0#7 then some (.gfire (wordLink w) (vDst w) (vA w)) else none
  | _ => none

/-- Major 0x0A of R52. -/
def decodeMaj0A (_ : BitVec 4) (w : Word) : Option Instr :=
  match (w.extractLsb' 21 2).toNat with
  | 0 => some (.gsig (wordLink w) (vDst w) (vA w) (vB w))
  | _ => none

/-- Major 0x0B of R52. -/
def decodeMaj0B (_ : BitVec 4) (w : Word) : Option Instr :=
  some (.movi (wordLink w) (kDst w) (kImm w))

/-- Major 0x0C of R52. -/
def decodeMaj0C (_ : BitVec 4) (w : Word) : Option Instr :=
  some (.movh (wordLink w) (kDst w) (kImm w))

/-- Major 0x0D of R52. -/
def decodeMaj0D (_ : BitVec 4) (w : Word) : Option Instr :=
  some (.iaddi (wordLink w) (iDst w) (iA w) (iImm w))

/-- Major 0x0E of R52. -/
def decodeMaj0E (_ : BitVec 4) (w : Word) : Option Instr :=
  match (w.extractLsb' 21 2).toNat with
  | 0 => some (.iadd (wordLink w) (vDst w) (vA w) (vB w))
  | 1 => some (.isub (wordLink w) (vDst w) (vA w) (vB w))
  | 2 => some (.imul (wordLink w) (vDst w) (vA w) (vB w))
  | 3 => some (.imulh (wordLink w) (vDst w) (vA w) (vB w))
  | _ => none

/-- Major 0x0F of R52. -/
def decodeMaj0F (_ : BitVec 4) (w : Word) : Option Instr :=
  match (w.extractLsb' 21 2).toNat with
  | 0 => some (.and (wordLink w) (vDst w) (vA w) (vB w))
  | 1 => some (.or (wordLink w) (vDst w) (vA w) (vB w))
  | 2 => some (.xor (wordLink w) (vDst w) (vA w) (vB w))
  | 3 => some (.andn (wordLink w) (vDst w) (vA w) (vB w))
  | _ => none

/-- Major 0x10 of R52. -/
def decodeMaj10 (_ : BitVec 4) (w : Word) : Option Instr :=
  match (w.extractLsb' 21 2).toNat with
  | 0 => some (.shl (wordLink w) (vDst w) (vA w) (vB w))
  | 1 => some (.shr (wordLink w) (vDst w) (vA w) (vB w))
  | 2 => some (.sar (wordLink w) (vDst w) (vA w) (vB w))
  | 3 => some (.rot (wordLink w) (vDst w) (vA w) (vB w))
  | _ => none

/-- Major 0x11 of R52. -/
def decodeMaj11 (_ : BitVec 4) (w : Word) : Option Instr :=
  match (w.extractLsb' 21 2).toNat with
  | 0 => some (.imin (wordLink w) (vDst w) (vA w) (vB w))
  | 1 => some (.imax (wordLink w) (vDst w) (vA w) (vB w))
  | 2 => some (.umin (wordLink w) (vDst w) (vA w) (vB w))
  | 3 => some (.umax (wordLink w) (vDst w) (vA w) (vB w))
  | _ => none

/-- Major 0x12 of R52. -/
def decodeMaj12 (_ : BitVec 4) (w : Word) : Option Instr :=
  match (w.extractLsb' 21 2).toNat with
  | 0 => if vB w = 0#7 then some (.popc (wordLink w) (vDst w) (vA w)) else none
  | 1 => if vB w = 0#7 then some (.clz (wordLink w) (vDst w) (vA w)) else none
  | 2 => if vB w = 0#7 then some (.brev (wordLink w) (vDst w) (vA w)) else none
  | 3 => if vB w = 0#7 then some (.iabs (wordLink w) (vDst w) (vA w)) else none
  | _ => none

/-- Major 0x13 of R52. -/
def decodeMaj13 (_ : BitVec 4) (w : Word) : Option Instr :=
  match (w.extractLsb' 21 2).toNat with
  | 0 => some (.sel (wordLink w) (vDst w) (vA w) (vB w))
  | 1 => some (.lea (wordLink w) (vDst w) (vA w) (vB w))
  | 2 => some (.imad (wordLink w) (vDst w) (vA w) (vB w))
  | 3 => some (.idivs (wordLink w) (vDst w) (vA w) (vB w))
  | _ => none

/-- Major 0x14 of R52. -/
def decodeMaj14 (_ : BitVec 4) (w : Word) : Option Instr :=
  match (w.extractLsb' 21 2).toNat with
  | 0 => some (.bfx (wordLink w) (vDst w) (vA w) (vB w))
  | 1 => some (.bfxs (wordLink w) (vDst w) (vA w) (vB w))
  | 2 => some (.bfi (wordLink w) (vDst w) (vA w) (vB w))
  | 3 => some (.icmp (wordLink w) (cmpCond w) (cmpPd w) (vA w) (vB w))
  | _ => none

/-- Major 0x15 of R52. -/
def decodeMaj15 (_ : BitVec 4) (w : Word) : Option Instr :=
  match (w.extractLsb' 21 2).toNat with
  | 0 => some (.fadd (wordLink w) (vDst w) (vA w) (vB w))
  | 1 => some (.fsub (wordLink w) (vDst w) (vA w) (vB w))
  | 2 => some (.fmul (wordLink w) (vDst w) (vA w) (vB w))
  | 3 => some (.ffma (wordLink w) (vDst w) (vA w) (vB w))
  | _ => none

/-- Major 0x16 of R52. -/
def decodeMaj16 (_ : BitVec 4) (w : Word) : Option Instr :=
  match (w.extractLsb' 21 2).toNat with
  | 0 => some (.fmin (wordLink w) (vDst w) (vA w) (vB w))
  | 1 => some (.fmax (wordLink w) (vDst w) (vA w) (vB w))
  | 2 => if vB w = 0#7 then some (.fabs (wordLink w) (vDst w) (vA w)) else none
  | 3 => some (.fcmp (wordLink w) (cmpCond w) (cmpPd w) (vA w) (vB w))
  | _ => none

/-- Major 0x17 of R52. -/
def decodeMaj17 (_ : BitVec 4) (w : Word) : Option Instr :=
  match (w.extractLsb' 21 2).toNat with
  | 0 => if vB w = 0#7 then some (.frcp (wordLink w) (vDst w) (vA w)) else none
  | 1 => if vB w = 0#7 then some (.frsq (wordLink w) (vDst w) (vA w)) else none
  | 2 => if vB w = 0#7 then some (.fsqrt (wordLink w) (vDst w) (vA w)) else none
  | 3 => if vB w = 0#7 then some (.fex2 (wordLink w) (vDst w) (vA w)) else none
  | _ => none

/-- Major 0x18 of R52. -/
def decodeMaj18 (_ : BitVec 4) (w : Word) : Option Instr :=
  match (w.extractLsb' 21 2).toNat with
  | 0 => if vB w = 0#7 then some (.flg2 (wordLink w) (vDst w) (vA w)) else none
  | 1 => if vB w = 0#7 then some (.ftanh (wordLink w) (vDst w) (vA w)) else none
  | 2 => if vB w = 0#7 then some (.fsin (wordLink w) (vDst w) (vA w)) else none
  | 3 => if vB w = 0#7 then some (.fcos (wordLink w) (vDst w) (vA w)) else none
  | _ => none

/-- Major 0x19 of R52. -/
def decodeMaj19 (_ : BitVec 4) (w : Word) : Option Instr :=
  match (w.extractLsb' 21 2).toNat with
  | 0 => some (.cvtf (wordLink w) (vDst w) (vA w) (vB w))
  | 1 => some (.cvtfi (wordLink w) (vDst w) (vA w) (vB w))
  | 2 => some (.cvtif (wordLink w) (vDst w) (vA w) (vB w))
  | 3 => some (.cvtsr (wordLink w) (vDst w) (vA w) (vB w))
  | _ => none

/-- Major 0x1A of R52. -/
def decodeMaj1A (_ : BitVec 4) (w : Word) : Option Instr :=
  match (w.extractLsb' 21 2).toNat with
  | 0 => some (.hfma2 (wordLink w) (vDst w) (vA w) (vB w))
  | 1 => some (.hadd2 (wordLink w) (vDst w) (vA w) (vB w))
  | 2 => some (.hmul2 (wordLink w) (vDst w) (vA w) (vB w))
  | 3 => some (.hmax2 (wordLink w) (vDst w) (vA w) (vB w))
  | _ => none

/-- Major 0x1B of R52. -/
def decodeMaj1B (_ : BitVec 4) (w : Word) : Option Instr :=
  match (w.extractLsb' 21 2).toNat with
  | 0 => if vDst w = 0#7 then some (.seed (wordLink w) (vA w) (vB w)) else none
  | 1 => if vA w = 0#7 ∧ vB w = 0#7 then some (.rand (wordLink w) (vDst w)) else none
  | _ => none

/-- Major 0x1C of R52. -/
def decodeMaj1C (_ : BitVec 4) (w : Word) : Option Instr :=
  if wordC w = false ∧ wordD w = 0#2 ∧ xRes w = 0#3 then some (.ext (xC3 w) (xRm w) (xSr w) (xSat w) (xG w) (xSel w)) else none

/-- Major 0x1D of R52. -/
def decodeMaj1D (_ : BitVec 4) (w : Word) : Option Instr :=
  match (w.extractLsb' 21 2).toNat with
  | 0 => some (.perm (wordLink w) (vDst w) (vA w) (vB w))
  | 1 => some (.bcast (wordLink w) (vDst w) (vA w) (vB w))
  | 2 => some (.scan (wordLink w) (vDst w) (vA w) (vB w))
  | 3 => some (.redl (wordLink w) (vDst w) (vA w) (vB w))
  | _ => none

/-- Major 0x1E of R52. -/
def decodeMaj1E (_ : BitVec 4) (w : Word) : Option Instr :=
  match (w.extractLsb' 21 2).toNat with
  | 0 => some (.vote (wordLink w) (vDst w) (vA w) (vB w))
  | 1 => if vB w = 0#7 then some (.matchLanes (wordLink w) (vDst w) (vA w)) else none
  | 2 => if vA w = 0#7 ∧ vB w = 0#7 then some (.elect (wordLink w) (vDst w)) else none
  | 3 => if vB w = 0#7 then some (.lanemask (wordLink w) (vDst w) (vA w)) else none
  | _ => none

/-- Major 0x1F of R52. -/
def decodeMaj1F (_ : BitVec 4) (w : Word) : Option Instr :=
  some (.ld (wordLink w) (mData w) (mBuf w) (mIdx w) (mF w) (mSz w))

/-- Major 0x20 of R52. -/
def decodeMaj20 (_ : BitVec 4) (w : Word) : Option Instr :=
  some (.st (wordLink w) (mData w) (mBuf w) (mIdx w) (mF w) (mSz w))

/-- Major 0x21 of R52. -/
def decodeMaj21 (_ : BitVec 4) (w : Word) : Option Instr :=
  some (.lds (wordLink w) (mData w) (mBuf w) (mIdx w) (mF w) (mSz w))

/-- Major 0x22 of R52. -/
def decodeMaj22 (_ : BitVec 4) (w : Word) : Option Instr :=
  some (.sts (wordLink w) (mData w) (mBuf w) (mIdx w) (mF w) (mSz w))

/-- Major 0x23 of R52. -/
def decodeMaj23 (_ : BitVec 4) (w : Word) : Option Instr :=
  some (.ldw (wordLink w) (mData w) (mBuf w) (mIdx w) (mF w) (mSz w))

/-- Major 0x24 of R52. -/
def decodeMaj24 (_ : BitVec 4) (w : Word) : Option Instr :=
  some (.stw (wordLink w) (mData w) (mBuf w) (mIdx w) (mF w) (mSz w))

/-- Major 0x25 of R52. -/
def decodeMaj25 (_ : BitVec 4) (w : Word) : Option Instr :=
  if mData w = 0#7 ∧ mF w = false then some (.pref (wordLink w) (mBuf w) (mIdx w) (mSz w)) else none

/-- Major 0x26 of R52. -/
def decodeMaj26 (sel : BitVec 4) (w : Word) : Option Instr :=
  match (w.extractLsb' 21 2).toNat with
  | 0 => if wordC w = false then some (.bufset (wordD w) (vDst w) (vA w) (vB w)) else none
  | 1 => match (sel).toNat with
    | 0 => if vA w = 0#7 ∧ vB w = 0#7 then some (.frec (wordLink w) (vDst w)) else none
    | 1 => if vA w = 0#7 ∧ vB w = 0#7 then some (.frecXlate (wordLink w) (vDst w)) else none
    | _ => none
  | 2 => match (sel).toNat with
    | 0 => some (.migctlStart (wordLink w) (vDst w) (vA w) (vB w))
    | 1 => some (.migctlQuery (wordLink w) (vDst w) (vA w) (vB w))
    | 2 => some (.migctlResolve (wordLink w) (vDst w) (vA w) (vB w))
    | 3 => some (.migctlAbort (wordLink w) (vDst w) (vA w) (vB w))
    | 4 => some (.migctlInvpg (wordLink w) (vDst w) (vA w) (vB w))
    | _ => none
  | 3 => if wordC w = false ∧ vDst w = 0#7 then some (.qpush (wordD w) (vA w) (vB w)) else none
  | _ => none

/-- Major 0x27 of R52. -/
def decodeMaj27 (_ : BitVec 4) (w : Word) : Option Instr :=
  match (w.extractLsb' 21 2).toNat with
  | 0 => if vA w = 0#7 ∧ vB w = 0#7 then some (.qpop (wordLink w) (vDst w)) else none
  | _ => none

/-- Major 0x28 of R52. -/
def decodeMaj28 (_ : BitVec 4) (w : Word) : Option Instr :=
  some (.atom (wordLink w) (mData w) (mBuf w) (mIdx w) (mF w) (mSz w))

/-- Major 0x29 of R52. -/
def decodeMaj29 (_ : BitVec 4) (w : Word) : Option Instr :=
  some (.atomAcq (wordLink w) (mData w) (mBuf w) (mIdx w) (mF w) (mSz w))

/-- Major 0x2A of R52. -/
def decodeMaj2A (_ : BitVec 4) (w : Word) : Option Instr :=
  some (.atomRel (wordLink w) (mData w) (mBuf w) (mIdx w) (mF w) (mSz w))

/-- Major 0x2B of R52. -/
def decodeMaj2B (_ : BitVec 4) (w : Word) : Option Instr :=
  some (.cas (wordLink w) (mData w) (mBuf w) (mIdx w) (mF w) (mSz w))

/-- Major 0x2C of R52. -/
def decodeMaj2C (_ : BitVec 4) (w : Word) : Option Instr :=
  some (.atomnr (wordLink w) (mData w) (mBuf w) (mIdx w) (mF w) (mSz w))

/-- Major 0x2D of R52. -/
def decodeMaj2D (_ : BitVec 4) (w : Word) : Option Instr :=
  some (.satom (wordLink w) (mData w) (mBuf w) (mIdx w) (mF w) (mSz w))

/-- Major 0x2E of R52. -/
def decodeMaj2E (_ : BitVec 4) (w : Word) : Option Instr :=
  match (w.extractLsb' 21 2).toNat with
  | 0 => if vDst w = 0#7 ∧ vA w = 0#7 ∧ vB w = 0#7 then some (.acq (wordLink w)) else none
  | 1 => if vDst w = 0#7 ∧ vA w = 0#7 ∧ vB w = 0#7 then some (.rel (wordLink w)) else none
  | 2 => if vDst w = 0#7 ∧ vA w = 0#7 ∧ vB w = 0#7 then some (.fence (wordLink w)) else none
  | 3 => if vDst w = 0#7 then some (.bwait (wordLink w) (vA w) (vB w)) else none
  | _ => none

/-- Major 0x2F of R52. -/
def decodeMaj2F (_ : BitVec 4) (w : Word) : Option Instr :=
  match (w.extractLsb' 21 2).toNat with
  | 0 => if vDst w = 0#7 then some (.binit (wordLink w) (vA w) (vB w)) else none
  | 1 => if vB w = 0#7 then some (.barrive (wordLink w) (vDst w) (vA w)) else none
  | 2 => if vDst w = 0#7 then some (.bexpect (wordLink w) (vA w) (vB w)) else none
  | 3 => some (.btest (wordLink w) (vDst w) (vA w) (vB w))
  | _ => none

/-- Major 0x30 of R52. -/
def decodeMaj30 (_ : BitVec 4) (w : Word) : Option Instr :=
  match (w.extractLsb' 20 3).toNat with
  | 0 => if eRes w = 0#4 then some (.ndef (wordLink w) (eF w) (eNode w) (eA w)) else none
  | 1 => if eRes w = 0#4 then some (.nedge (wordLink w) (eF w) (eNode w) (eA w)) else none
  | 2 => if eA w = 0#7 ∧ eRes w = 0#4 then some (.nfire (wordLink w) (eF w) (eNode w)) else none
  | 3 => if eRes w = 0#4 then some (.cpy (wordLink w) (eF w) (eNode w) (eA w)) else none
  | 4 => if eRes w = 0#4 then some (.gath (wordLink w) (eF w) (eNode w) (eA w)) else none
  | 5 => if eRes w = 0#4 then some (.scat (wordLink w) (eF w) (eNode w) (eA w)) else none
  | 6 => if eRes w = 0#4 then some (.nwait (wordLink w) (eF w) (eNode w) (eA w)) else none
  | _ => none

/-- Major 0x31 of R52. -/
def decodeMaj31 (_ : BitVec 4) (w : Word) : Option Instr :=
  match (w.extractLsb' 19 4).toNat with
  | 0 => if mxMode w = 0#2 ∧ mxF w = false ∧ mxOpt w = 0#6 then some (.mresv (wordLink w) (mxAcc w) (mxA w)) else none
  | 1 => if mxAcc w = 0#3 ∧ mxMode w = 0#2 ∧ (mxOpt w).extractLsb' 4 2 = 0#2 then some (.mldb (wordLink w) (mxF w) (mxA w) ((mxOpt w).extractLsb' 0 4)) else none
  | 2 => if mxAcc w = 0#3 ∧ mxMode w = 0#2 ∧ (mxOpt w).extractLsb' 5 1 = 0#1 then some (.mgath (wordLink w) (mxF w) (mxA w) ((mxOpt w).extractLsb' 4 1 == 1#1) ((mxOpt w).extractLsb' 0 4)) else none
  | 3 => if mxA w = 0#7 ∧ (mxOpt w).extractLsb' 5 1 = 0#1 then some (.mma (wordLink w) (mxAcc w) (mxMode w) (mxF w) ((mxOpt w).extractLsb' 4 1 == 1#1) ((mxOpt w).extractLsb' 0 4)) else none
  | 4 => if mxAcc w = 0#3 ∧ mxMode w = 0#2 ∧ (mxOpt w).extractLsb' 5 1 = 0#1 then some (.mtrn (wordLink w) (mxF w) (mxA w) ((mxOpt w).extractLsb' 4 1 == 1#1) ((mxOpt w).extractLsb' 0 4)) else none
  | 5 => if mxMode w = 0#2 ∧ mxA w = 0#7 ∧ (mxOpt w).extractLsb' 4 2 = 0#2 then some (.mzero (wordLink w) (mxAcc w) (mxF w) ((mxOpt w).extractLsb' 0 4)) else none
  | 6 => if (mxOpt w).extractLsb' 5 1 = 0#1 then some (.mst (wordLink w) (mxAcc w) (mxMode w) (mxF w) (mxA w) ((mxOpt w).extractLsb' 4 1 == 1#1) ((mxOpt w).extractLsb' 0 4)) else none
  | 7 => if mxMode w = 0#2 then some (.mscale (wordLink w) (mxAcc w) (mxF w) (mxA w) ((mxOpt w).extractLsb' 5 1 == 1#1) ((mxOpt w).extractLsb' 4 1 == 1#1) ((mxOpt w).extractLsb' 0 4)) else none
  | 8 => if mxMode w = 0#2 ∧ mxF w = false ∧ mxA w = 0#7 ∧ mxOpt w = 0#6 then some (.mfree (wordLink w) (mxAcc w)) else none
  | _ => none

/-- Major 0x32 of R52. -/
def decodeMaj32 (_ : BitVec 4) (w : Word) : Option Instr :=
  match (w.extractLsb' 21 2).toNat with
  | 0 => if vB w = 0#7 then some (.treg (wordLink w) (vDst w) (vA w)) else none
  | 1 => if vDst w = 0#7 ∧ vB w = 0#7 then some (.tdrop (wordLink w) (vA w)) else none
  | 2 => if vDst w = 0#7 then some (.tfetch (wordLink w) (vA w) (vB w)) else none
  | 3 => some (.thalo (wordLink w) (vDst w) (vA w) (vB w))
  | _ => none

/-- Major 0x33 of R52. -/
def decodeMaj33 (_ : BitVec 4) (w : Word) : Option Instr :=
  match (w.extractLsb' 21 2).toNat with
  | 0 => if vDst w = 0#7 then some (.tinv (wordLink w) (vA w) (vB w)) else none
  | 1 => some (.tlook (wordLink w) (vDst w) (vA w) (vB w))
  | _ => none

/-- Major 0x34 of R52. -/
def decodeMaj34 (_ : BitVec 4) (w : Word) : Option Instr :=
  match (w.extractLsb' 19 4).toNat with
  | 0 => if sF w = false ∧ sN w = 0#4 then some (.snap (wordLink w) (sDst w) (sA w)) else none
  | 1 => if sF w = false ∧ sN w = 0#4 then some (.rest (wordLink w) (sDst w) (sA w)) else none
  | 2 => if sF w = false then some (.spawn (wordLink w) (sDst w) (sA w) (sN w)) else none
  | 3 => if sF w = false then some (.spawnFar (wordLink w) (sDst w) (sA w) (sN w)) else none
  | 4 => if sF w = false ∧ sDst w = 0#7 ∧ sN w = 0#4 then some (.drop (wordLink w) (sA w)) else none
  | 5 => if sF w = false then some (.hinfo (wordLink w) (sDst w) (sA w) (sN w)) else none
  | 6 => if sF w = false then some (.recruit (wordLink w) (sDst w) (sA w) (sN w)) else none
  | 7 => if sF w = false ∧ sN w = 0#4 then some (.offer (wordLink w) (sDst w) (sA w)) else none
  | 8 => if sF w = false ∧ sDst w = 0#7 then some (.hend (wordLink w) (sA w) (sN w)) else none
  | 9 => if sF w = false ∧ sA w = 0#7 ∧ sN w = 0#4 then some (.hwait (wordLink w) (sDst w)) else none
  | 10 => if sF w = false ∧ sA w = 0#7 ∧ sN w = 0#4 then some (.hkill (wordLink w) (sDst w)) else none
  | _ => none

/-- Major 0x35 of R52. -/
def decodeMaj35 (sel : BitVec 4) (w : Word) : Option Instr :=
  match (w.extractLsb' 19 4).toNat with
  | 0 => match (sel).toNat with
    | 0 => if kvF w = false then some (.kvnewSeq (wordLink w) (kvDst w) (kvA w) (kvPd w) (kvPe w)) else none
    | 1 => if kvF w = false then some (.kvnewPool (wordLink w) (kvDst w) (kvA w) (kvPd w) (kvPe w)) else none
    | 2 => if kvF w = false then some (.kvnewDrop (wordLink w) (kvDst w) (kvA w) (kvPd w) (kvPe w)) else none
    | _ => none
  | 1 => if kvF w = false then some (.kvapp (wordLink w) (kvDst w) (kvA w) (kvPd w) (kvPe w)) else none
  | 2 => match (sel).toNat with
    | 0 => if kvF w = false then some (.kvfork (wordLink w) (kvDst w) (kvA w) (kvPd w) (kvPe w)) else none
    | 1 => if kvF w = false ∧ kvA w = 0#7 then some (.kvforkCow (wordLink w) (kvDst w) (kvPd w) (kvPe w)) else none
    | _ => none
  | 3 => match (sel).toNat with
    | 0 => if kvF w = false then some (.kvfree (wordLink w) (kvDst w) (kvA w) (kvPd w) (kvPe w)) else none
    | 1 => if kvF w = false then some (.kvfreeTrunc (wordLink w) (kvDst w) (kvA w) (kvPd w) (kvPe w)) else none
    | _ => none
  | 4 => if kvF w = false then some (.kvwalk (wordLink w) (kvDst w) (kvA w) (kvPd w) (kvPe w)) else none
  | 5 => match (sel).toNat with
    | 0 => if kvF w = false then some (.kvinvSet (wordLink w) (kvDst w) (kvA w) (kvPd w) (kvPe w)) else none
    | 1 => if kvF w = false then some (.kvinvClr (wordLink w) (kvDst w) (kvA w) (kvPd w) (kvPe w)) else none
    | _ => none
  | 6 => if kvF w = false then some (.rspan (wordLink w) (kvDst w) (kvA w) (kvPd w) (kvPe w)) else none
  | 7 => if kvF w = false ∧ kvPd w = 0#3 ∧ kvPe w = false then some (.xqsend (wordLink w) (kvDst w) (kvA w)) else none
  | 8 => match (sel).toNat with
    | 0 => if kvF w = false ∧ kvPd w = 0#3 ∧ kvPe w = false then some (.xqrecv (wordLink w) (kvDst w) (kvA w)) else none
    | 1 => if kvF w = false ∧ kvPd w = 0#3 ∧ kvPe w = false then some (.xqrecvDraft (wordLink w) (kvDst w) (kvA w)) else none
    | _ => none
  | 9 => match (sel).toNat with
    | 0 => if kvF w = false then some (.gstep (wordLink w) (kvDst w) (kvA w) (kvPd w) (kvPe w)) else none
    | 1 => if kvF w = false then some (.gstepBind (wordLink w) (kvDst w) (kvA w) (kvPd w) (kvPe w)) else none
    | _ => none
  | 10 => if kvF w = false then some (.gmask (wordLink w) (kvDst w) (kvA w) (kvPd w) (kvPe w)) else none
  | 11 => match (sel).toNat with
    | 0 => if kvF w = false ∧ kvPd w = 0#3 ∧ kvPe w = false then some (.kvquotaRd (wordLink w) (kvDst w) (kvA w)) else none
    | 1 => if kvF w = false ∧ kvPd w = 0#3 ∧ kvPe w = false then some (.kvquotaWr (wordLink w) (kvDst w) (kvA w)) else none
    | _ => none
  | _ => none

/-- Major 0x36 of R52. -/
def decodeMaj36 (sel : BitVec 4) (w : Word) : Option Instr :=
  match (w.extractLsb' 21 2).toNat with
  | 0 => if vDst w = 0#7 ∧ vB w = 0#7 then some (.trap (wordLink w) (vA w)) else none
  | 1 => match (sel.extractLsb' 0 2).toNat with
    | 0 => some (.tretRetry (wordLink w) (vDst w) (vA w) (vB w))
    | 1 => some (.tretNext (wordLink w) (vDst w) (vA w) (vB w))
    | 2 => some (.tretEnd (wordLink w) (vDst w) (vA w) (vB w))
    | _ => none
  | 2 => if vA w = 0#7 then some (.sysrd (wordLink w) (vDst w) (vB w)) else none
  | 3 => if vDst w = 0#7 then some (.syswr (wordLink w) (vA w) (vB w)) else none
  | _ => none

/-- Major 0x37 of R52. -/
def decodeMaj37 (sel : BitVec 4) (w : Word) : Option Instr :=
  match (w.extractLsb' 21 2).toNat with
  | 0 => if vB w = 0#7 then some (.perf (wordLink w) (vDst w) (vA w)) else none
  | 1 => if vB w = 0#7 then some (.haltctx (wordLink w) (vDst w) (vA w)) else none
  | 2 => match (sel).toNat with
    | 0 => if vA w = 0#7 ∧ vB w = 0#7 then some (.ckptCut (wordLink w) (vDst w)) else none
    | 1 => if vA w = 0#7 ∧ vB w = 0#7 then some (.ckptQuery (wordLink w) (vDst w)) else none
    | 2 => if vA w = 0#7 ∧ vB w = 0#7 then some (.ckptAbort (wordLink w) (vDst w)) else none
    | 3 => if vA w = 0#7 ∧ vB w = 0#7 then some (.ckptRestore (wordLink w) (vDst w)) else none
    | _ => none
  | 3 => match (sel).toNat with
    | 0 => if vA w = 0#7 ∧ vB w = 0#7 then some (.wdog (wordLink w) (vDst w)) else none
    | 1 => if vB w = 0#7 then some (.wdogSet (wordLink w) (vDst w) (vA w)) else none
    | _ => none
  | _ => none

/-- The decoder: the instruction of a word, given the SEL of the EXT before it (0 without one); none for every
encoding that R54 sends to ILLEGAL_INSTRUCTION on the word alone. -/
def decodeSel (sel : BitVec 4) (w : Word) : Option Instr :=
  match (wordMaj w).toNat with
  | 0x01 => decodeMaj01 sel w
  | 0x02 => decodeMaj02 sel w
  | 0x03 => decodeMaj03 sel w
  | 0x04 => decodeMaj04 sel w
  | 0x05 => decodeMaj05 sel w
  | 0x06 => decodeMaj06 sel w
  | 0x07 => decodeMaj07 sel w
  | 0x08 => decodeMaj08 sel w
  | 0x09 => decodeMaj09 sel w
  | 0x0A => decodeMaj0A sel w
  | 0x0B => decodeMaj0B sel w
  | 0x0C => decodeMaj0C sel w
  | 0x0D => decodeMaj0D sel w
  | 0x0E => decodeMaj0E sel w
  | 0x0F => decodeMaj0F sel w
  | 0x10 => decodeMaj10 sel w
  | 0x11 => decodeMaj11 sel w
  | 0x12 => decodeMaj12 sel w
  | 0x13 => decodeMaj13 sel w
  | 0x14 => decodeMaj14 sel w
  | 0x15 => decodeMaj15 sel w
  | 0x16 => decodeMaj16 sel w
  | 0x17 => decodeMaj17 sel w
  | 0x18 => decodeMaj18 sel w
  | 0x19 => decodeMaj19 sel w
  | 0x1A => decodeMaj1A sel w
  | 0x1B => decodeMaj1B sel w
  | 0x1C => decodeMaj1C sel w
  | 0x1D => decodeMaj1D sel w
  | 0x1E => decodeMaj1E sel w
  | 0x1F => decodeMaj1F sel w
  | 0x20 => decodeMaj20 sel w
  | 0x21 => decodeMaj21 sel w
  | 0x22 => decodeMaj22 sel w
  | 0x23 => decodeMaj23 sel w
  | 0x24 => decodeMaj24 sel w
  | 0x25 => decodeMaj25 sel w
  | 0x26 => decodeMaj26 sel w
  | 0x27 => decodeMaj27 sel w
  | 0x28 => decodeMaj28 sel w
  | 0x29 => decodeMaj29 sel w
  | 0x2A => decodeMaj2A sel w
  | 0x2B => decodeMaj2B sel w
  | 0x2C => decodeMaj2C sel w
  | 0x2D => decodeMaj2D sel w
  | 0x2E => decodeMaj2E sel w
  | 0x2F => decodeMaj2F sel w
  | 0x30 => decodeMaj30 sel w
  | 0x31 => decodeMaj31 sel w
  | 0x32 => decodeMaj32 sel w
  | 0x33 => decodeMaj33 sel w
  | 0x34 => decodeMaj34 sel w
  | 0x35 => decodeMaj35 sel w
  | 0x36 => decodeMaj36 sel w
  | 0x37 => decodeMaj37 sel w
  | _ => none

/-- The decoder on a word with no EXT before it. -/
def decodeWord (w : Word) : Option Instr := decodeSel 0#4 w

/-- The word whose bits stand in memory at the lowest address first (R6): four bytes, little-endian. -/
def wordOfBytes : List Byte → Word
  | [b0, b1, b2, b3] => b3 ++ b2 ++ b1 ++ b0
  | _ => 0#32

/-- The four bytes of a word as memory holds them (R6). -/
def wordBytes (w : Word) : List Byte :=
  [w.extractLsb' 0 8, w.extractLsb' 8 8, w.extractLsb' 16 8, w.extractLsb' 24 8]

/-- The decoder on four bytes of a code segment. -/
def decodeBytes (bs : List Byte) : Option Instr :=
  if bs.length = 4 then decodeWord (wordOfBytes bs) else none

/-- The instruction of a table word, whose bits the table numbers as R31 does. -/
def decodeTableWord (nbits w : Nat) : Option Instr :=
  if nbits = 32 then decodeBytes (wordBytes (BitVec.ofNat 32 w)) else none

/-- A flag as one bit. -/
def bit (b : Bool) : BitVec 1 := if b then 1#1 else 0#1

/-! The encoder: a word by format, C, D and MAJ first (R31, R47). -/

def encH (c : Bool) (d : BitVec 2) (maj : BitVec 6) (wait : BitVec 12) (setA : BitVec 4) (setB : BitVec 4) (y : Bool) (res : BitVec 2) : Word :=
  bit c ++ d ++ maj ++ wait ++ setA ++ setB ++ bit y ++ res
def encV (c : Bool) (d : BitVec 2) (maj : BitVec 6) (fn : BitVec 2) (dst : BitVec 7) (a : BitVec 7) (b : BitVec 7) : Word :=
  bit c ++ d ++ maj ++ fn ++ dst ++ a ++ b
def encI (c : Bool) (d : BitVec 2) (maj : BitVec 6) (dst : BitVec 7) (a : BitVec 7) (imm : BitVec 9) : Word :=
  bit c ++ d ++ maj ++ dst ++ a ++ imm
def encK (c : Bool) (d : BitVec 2) (maj : BitVec 6) (dst : BitVec 7) (imm : BitVec 16) : Word :=
  bit c ++ d ++ maj ++ dst ++ imm
def encB (c : Bool) (d : BitVec 2) (maj : BitVec 6) (p : BitVec 3) (n : Bool) (off : BitVec 19) : Word :=
  bit c ++ d ++ maj ++ p ++ bit n ++ off
def encM (c : Bool) (d : BitVec 2) (maj : BitVec 6) (data : BitVec 7) (buf : BitVec 5) (idx : BitVec 7) (f : Bool) (sz : BitVec 3) : Word :=
  bit c ++ d ++ maj ++ data ++ buf ++ idx ++ bit f ++ sz
def encX (c : Bool) (d : BitVec 2) (maj : BitVec 6) (c3 : BitVec 7) (rm : BitVec 3) (sr : Bool) (sat : Bool) (g : BitVec 4) (sel : BitVec 4) (res : BitVec 3) : Word :=
  bit c ++ d ++ maj ++ c3 ++ rm ++ bit sr ++ bit sat ++ g ++ sel ++ res
def encE (c : Bool) (d : BitVec 2) (maj : BitVec 6) (op : BitVec 3) (f : Bool) (node : BitVec 8) (a : BitVec 7) (res : BitVec 4) : Word :=
  bit c ++ d ++ maj ++ op ++ bit f ++ node ++ a ++ res
def encMX (c : Bool) (d : BitVec 2) (maj : BitVec 6) (op : BitVec 4) (acc : BitVec 3) (mode : BitVec 2) (f : Bool) (a : BitVec 7) (opt : BitVec 6) : Word :=
  bit c ++ d ++ maj ++ op ++ acc ++ mode ++ bit f ++ a ++ opt
def encS (c : Bool) (d : BitVec 2) (maj : BitVec 6) (op : BitVec 4) (f : Bool) (dst : BitVec 7) (a : BitVec 7) (n : BitVec 4) : Word :=
  bit c ++ d ++ maj ++ op ++ bit f ++ dst ++ a ++ n
def encKV (c : Bool) (d : BitVec 2) (maj : BitVec 6) (op : BitVec 4) (f : Bool) (dst : BitVec 7) (a : BitVec 7) (pd : BitVec 3) (pe : Bool) : Word :=
  bit c ++ d ++ maj ++ op ++ bit f ++ dst ++ a ++ pd ++ bit pe

/-- The word of an instruction; none for an event, which has no word. -/
def encode : Instr → Option Word
  | .hdr wait setA setB y => some (encH false 0 0x01 wait setA setB y 0)
  | .nop lk => some (encV lk.c lk.d 0x05 0 0 0 0)
  | .bra i off => some (encB false i 0x02 0 false off)
  | .brc i p n off => some (encB false i 0x03 p n off)
  | .call i off => some (encB false i 0x04 0 false off)
  | .brx i a => some (encV false i 0x05 1 0 a 0)
  | .ret i a => some (encV false i 0x05 2 0 a 0)
  | .exit lk => some (encV lk.c lk.d 0x05 3 0 0 0)
  | .tail lk => some (encV lk.c lk.d 0x06 0 0 0 0)
  | .prio lk a => some (encV lk.c lk.d 0x06 1 0 a 0)
  | .sleep lk a => some (encV lk.c lk.d 0x06 2 0 a 0)
  | .yield lk l => some (encK lk.c lk.d 0x07 0 (0#8 ++ l))
  | .dqput i a b => some (encV false i 0x08 0 0 a b)
  | .dqtake lk d => some (encV lk.c lk.d 0x08 1 d 0 0)
  | .join lk d a => some (encV lk.c lk.d 0x09 0 d a 0)
  | .leave lk a => some (encV lk.c lk.d 0x09 1 0 a 0)
  | .gbar lk a => some (encV lk.c lk.d 0x09 2 0 a 0)
  | .gfire lk d a => some (encV lk.c lk.d 0x09 3 d a 0)
  | .gsig lk d a b => some (encV lk.c lk.d 0x0A 0 d a b)
  | .movi lk d m => some (encK lk.c lk.d 0x0B d m)
  | .movh lk d m => some (encK lk.c lk.d 0x0C d m)
  | .iaddi lk d a m => some (encI lk.c lk.d 0x0D d a m)
  | .iadd lk d a b => some (encV lk.c lk.d 0x0E 0 d a b)
  | .isub lk d a b => some (encV lk.c lk.d 0x0E 1 d a b)
  | .imul lk d a b => some (encV lk.c lk.d 0x0E 2 d a b)
  | .imulh lk d a b => some (encV lk.c lk.d 0x0E 3 d a b)
  | .and lk d a b => some (encV lk.c lk.d 0x0F 0 d a b)
  | .or lk d a b => some (encV lk.c lk.d 0x0F 1 d a b)
  | .xor lk d a b => some (encV lk.c lk.d 0x0F 2 d a b)
  | .andn lk d a b => some (encV lk.c lk.d 0x0F 3 d a b)
  | .shl lk d a b => some (encV lk.c lk.d 0x10 0 d a b)
  | .shr lk d a b => some (encV lk.c lk.d 0x10 1 d a b)
  | .sar lk d a b => some (encV lk.c lk.d 0x10 2 d a b)
  | .rot lk d a b => some (encV lk.c lk.d 0x10 3 d a b)
  | .imin lk d a b => some (encV lk.c lk.d 0x11 0 d a b)
  | .imax lk d a b => some (encV lk.c lk.d 0x11 1 d a b)
  | .umin lk d a b => some (encV lk.c lk.d 0x11 2 d a b)
  | .umax lk d a b => some (encV lk.c lk.d 0x11 3 d a b)
  | .popc lk d a => some (encV lk.c lk.d 0x12 0 d a 0)
  | .clz lk d a => some (encV lk.c lk.d 0x12 1 d a 0)
  | .brev lk d a => some (encV lk.c lk.d 0x12 2 d a 0)
  | .iabs lk d a => some (encV lk.c lk.d 0x12 3 d a 0)
  | .sel lk d a b => some (encV lk.c lk.d 0x13 0 d a b)
  | .lea lk d a b => some (encV lk.c lk.d 0x13 1 d a b)
  | .imad lk d a b => some (encV lk.c lk.d 0x13 2 d a b)
  | .idivs lk d a b => some (encV lk.c lk.d 0x13 3 d a b)
  | .bfx lk d a b => some (encV lk.c lk.d 0x14 0 d a b)
  | .bfxs lk d a b => some (encV lk.c lk.d 0x14 1 d a b)
  | .bfi lk d a b => some (encV lk.c lk.d 0x14 2 d a b)
  | .icmp lk k p a b => some (encV lk.c lk.d 0x14 3 (k ++ p) a b)
  | .fadd lk d a b => some (encV lk.c lk.d 0x15 0 d a b)
  | .fsub lk d a b => some (encV lk.c lk.d 0x15 1 d a b)
  | .fmul lk d a b => some (encV lk.c lk.d 0x15 2 d a b)
  | .ffma lk d a b => some (encV lk.c lk.d 0x15 3 d a b)
  | .fmin lk d a b => some (encV lk.c lk.d 0x16 0 d a b)
  | .fmax lk d a b => some (encV lk.c lk.d 0x16 1 d a b)
  | .fabs lk d a => some (encV lk.c lk.d 0x16 2 d a 0)
  | .fcmp lk k p a b => some (encV lk.c lk.d 0x16 3 (k ++ p) a b)
  | .frcp lk d a => some (encV lk.c lk.d 0x17 0 d a 0)
  | .frsq lk d a => some (encV lk.c lk.d 0x17 1 d a 0)
  | .fsqrt lk d a => some (encV lk.c lk.d 0x17 2 d a 0)
  | .fex2 lk d a => some (encV lk.c lk.d 0x17 3 d a 0)
  | .flg2 lk d a => some (encV lk.c lk.d 0x18 0 d a 0)
  | .ftanh lk d a => some (encV lk.c lk.d 0x18 1 d a 0)
  | .fsin lk d a => some (encV lk.c lk.d 0x18 2 d a 0)
  | .fcos lk d a => some (encV lk.c lk.d 0x18 3 d a 0)
  | .cvtf lk d a b => some (encV lk.c lk.d 0x19 0 d a b)
  | .cvtfi lk d a b => some (encV lk.c lk.d 0x19 1 d a b)
  | .cvtif lk d a b => some (encV lk.c lk.d 0x19 2 d a b)
  | .cvtsr lk d a b => some (encV lk.c lk.d 0x19 3 d a b)
  | .hfma2 lk d a b => some (encV lk.c lk.d 0x1A 0 d a b)
  | .hadd2 lk d a b => some (encV lk.c lk.d 0x1A 1 d a b)
  | .hmul2 lk d a b => some (encV lk.c lk.d 0x1A 2 d a b)
  | .hmax2 lk d a b => some (encV lk.c lk.d 0x1A 3 d a b)
  | .seed lk a b => some (encV lk.c lk.d 0x1B 0 0 a b)
  | .rand lk d => some (encV lk.c lk.d 0x1B 1 d 0 0)
  | .ext c3 rm sr sat g sel => some (encX false 0 0x1C c3 rm sr sat g sel 0)
  | .perm lk d a b => some (encV lk.c lk.d 0x1D 0 d a b)
  | .bcast lk d a b => some (encV lk.c lk.d 0x1D 1 d a b)
  | .scan lk d a b => some (encV lk.c lk.d 0x1D 2 d a b)
  | .redl lk d a b => some (encV lk.c lk.d 0x1D 3 d a b)
  | .vote lk d a b => some (encV lk.c lk.d 0x1E 0 d a b)
  | .matchLanes lk d a => some (encV lk.c lk.d 0x1E 1 d a 0)
  | .elect lk d => some (encV lk.c lk.d 0x1E 2 d 0 0)
  | .lanemask lk d a => some (encV lk.c lk.d 0x1E 3 d a 0)
  | .ld lk d buf idx f sz => some (encM lk.c lk.d 0x1F d buf idx f sz)
  | .st lk d buf idx f sz => some (encM lk.c lk.d 0x20 d buf idx f sz)
  | .lds lk d buf idx f sz => some (encM lk.c lk.d 0x21 d buf idx f sz)
  | .sts lk d buf idx f sz => some (encM lk.c lk.d 0x22 d buf idx f sz)
  | .ldw lk d buf idx f sz => some (encM lk.c lk.d 0x23 d buf idx f sz)
  | .stw lk d buf idx f sz => some (encM lk.c lk.d 0x24 d buf idx f sz)
  | .pref lk buf idx sz => some (encM lk.c lk.d 0x25 0 buf idx false sz)
  | .bufset i d a b => some (encV false i 0x26 0 d a b)
  | .frec lk d => some (encV lk.c lk.d 0x26 1 d 0 0)
  | .frecXlate lk d => some (encV lk.c lk.d 0x26 1 d 0 0)
  | .migctlStart lk d a b => some (encV lk.c lk.d 0x26 2 d a b)
  | .migctlQuery lk d a b => some (encV lk.c lk.d 0x26 2 d a b)
  | .migctlResolve lk d a b => some (encV lk.c lk.d 0x26 2 d a b)
  | .migctlAbort lk d a b => some (encV lk.c lk.d 0x26 2 d a b)
  | .migctlInvpg lk d a b => some (encV lk.c lk.d 0x26 2 d a b)
  | .qpush i a b => some (encV false i 0x26 3 0 a b)
  | .qpop lk d => some (encV lk.c lk.d 0x27 0 d 0 0)
  | .atom lk d buf idx f sz => some (encM lk.c lk.d 0x28 d buf idx f sz)
  | .atomAcq lk d buf idx f sz => some (encM lk.c lk.d 0x29 d buf idx f sz)
  | .atomRel lk d buf idx f sz => some (encM lk.c lk.d 0x2A d buf idx f sz)
  | .cas lk d buf idx f sz => some (encM lk.c lk.d 0x2B d buf idx f sz)
  | .atomnr lk d buf idx f sz => some (encM lk.c lk.d 0x2C d buf idx f sz)
  | .satom lk d buf idx f sz => some (encM lk.c lk.d 0x2D d buf idx f sz)
  | .acq lk => some (encV lk.c lk.d 0x2E 0 0 0 0)
  | .rel lk => some (encV lk.c lk.d 0x2E 1 0 0 0)
  | .fence lk => some (encV lk.c lk.d 0x2E 2 0 0 0)
  | .bwait lk a b => some (encV lk.c lk.d 0x2E 3 0 a b)
  | .binit lk a b => some (encV lk.c lk.d 0x2F 0 0 a b)
  | .barrive lk d a => some (encV lk.c lk.d 0x2F 1 d a 0)
  | .bexpect lk a b => some (encV lk.c lk.d 0x2F 2 0 a b)
  | .btest lk d a b => some (encV lk.c lk.d 0x2F 3 d a b)
  | .ndef lk f node a => some (encE lk.c lk.d 0x30 0 f node a 0)
  | .nedge lk f node a => some (encE lk.c lk.d 0x30 1 f node a 0)
  | .nfire lk f node => some (encE lk.c lk.d 0x30 2 f node 0 0)
  | .cpy lk f node a => some (encE lk.c lk.d 0x30 3 f node a 0)
  | .gath lk f node a => some (encE lk.c lk.d 0x30 4 f node a 0)
  | .scat lk f node a => some (encE lk.c lk.d 0x30 5 f node a 0)
  | .nwait lk f node a => some (encE lk.c lk.d 0x30 6 f node a 0)
  | .mresv lk acc a => some (encMX lk.c lk.d 0x31 0 acc 0 false a 0#6)
  | .mldb lk f a k => some (encMX lk.c lk.d 0x31 1 0 0 f a (0#2 ++ k))
  | .mgath lk f a h k => some (encMX lk.c lk.d 0x31 2 0 0 f a (0#1 ++ bit h ++ k))
  | .mma lk acc mode f z t => some (encMX lk.c lk.d 0x31 3 acc mode f 0 (0#1 ++ bit z ++ t))
  | .mtrn lk f a s k => some (encMX lk.c lk.d 0x31 4 0 0 f a (0#1 ++ bit s ++ k))
  | .mzero lk acc f k => some (encMX lk.c lk.d 0x31 5 acc 0 f 0 (0#2 ++ k))
  | .mst lk acc mode f a l t => some (encMX lk.c lk.d 0x31 6 acc mode f a (0#1 ++ bit l ++ t))
  | .mscale lk g f a e h k => some (encMX lk.c lk.d 0x31 7 g 0 f a (bit e ++ bit h ++ k))
  | .mfree lk acc => some (encMX lk.c lk.d 0x31 8 acc 0 false 0 0#6)
  | .treg lk d a => some (encV lk.c lk.d 0x32 0 d a 0)
  | .tdrop lk a => some (encV lk.c lk.d 0x32 1 0 a 0)
  | .tfetch lk a b => some (encV lk.c lk.d 0x32 2 0 a b)
  | .thalo lk d a b => some (encV lk.c lk.d 0x32 3 d a b)
  | .tinv lk a b => some (encV lk.c lk.d 0x33 0 0 a b)
  | .tlook lk d a b => some (encV lk.c lk.d 0x33 1 d a b)
  | .snap lk d a => some (encS lk.c lk.d 0x34 0 false d a 0)
  | .rest lk d a => some (encS lk.c lk.d 0x34 1 false d a 0)
  | .spawn lk d a n => some (encS lk.c lk.d 0x34 2 false d a n)
  | .spawnFar lk d a n => some (encS lk.c lk.d 0x34 3 false d a n)
  | .drop lk a => some (encS lk.c lk.d 0x34 4 false 0 a 0)
  | .hinfo lk d a n => some (encS lk.c lk.d 0x34 5 false d a n)
  | .recruit lk d a n => some (encS lk.c lk.d 0x34 6 false d a n)
  | .offer lk d a => some (encS lk.c lk.d 0x34 7 false d a 0)
  | .hend lk a n => some (encS lk.c lk.d 0x34 8 false 0 a n)
  | .hwait lk d => some (encS lk.c lk.d 0x34 9 false d 0 0)
  | .hkill lk d => some (encS lk.c lk.d 0x34 10 false d 0 0)
  | .kvnewSeq lk d a pd pe => some (encKV lk.c lk.d 0x35 0 false d a pd pe)
  | .kvnewPool lk d a pd pe => some (encKV lk.c lk.d 0x35 0 false d a pd pe)
  | .kvnewDrop lk d a pd pe => some (encKV lk.c lk.d 0x35 0 false d a pd pe)
  | .kvapp lk d a pd pe => some (encKV lk.c lk.d 0x35 1 false d a pd pe)
  | .kvfork lk d a pd pe => some (encKV lk.c lk.d 0x35 2 false d a pd pe)
  | .kvforkCow lk d pd pe => some (encKV lk.c lk.d 0x35 2 false d 0 pd pe)
  | .kvfree lk d a pd pe => some (encKV lk.c lk.d 0x35 3 false d a pd pe)
  | .kvfreeTrunc lk d a pd pe => some (encKV lk.c lk.d 0x35 3 false d a pd pe)
  | .kvwalk lk d a pd pe => some (encKV lk.c lk.d 0x35 4 false d a pd pe)
  | .kvinvSet lk d a pd pe => some (encKV lk.c lk.d 0x35 5 false d a pd pe)
  | .kvinvClr lk d a pd pe => some (encKV lk.c lk.d 0x35 5 false d a pd pe)
  | .rspan lk d a pd pe => some (encKV lk.c lk.d 0x35 6 false d a pd pe)
  | .xqsend lk d a => some (encKV lk.c lk.d 0x35 7 false d a 0 false)
  | .xqrecv lk d a => some (encKV lk.c lk.d 0x35 8 false d a 0 false)
  | .xqrecvDraft lk d a => some (encKV lk.c lk.d 0x35 8 false d a 0 false)
  | .gstep lk d a pd pe => some (encKV lk.c lk.d 0x35 9 false d a pd pe)
  | .gstepBind lk d a pd pe => some (encKV lk.c lk.d 0x35 9 false d a pd pe)
  | .gmask lk d a pd pe => some (encKV lk.c lk.d 0x35 10 false d a pd pe)
  | .kvquotaRd lk d a => some (encKV lk.c lk.d 0x35 11 false d a 0 false)
  | .kvquotaWr lk d a => some (encKV lk.c lk.d 0x35 11 false d a 0 false)
  | .trap lk a => some (encV lk.c lk.d 0x36 0 0 a 0)
  | .tretRetry lk d a b => some (encV lk.c lk.d 0x36 1 d a b)
  | .tretNext lk d a b => some (encV lk.c lk.d 0x36 1 d a b)
  | .tretEnd lk d a b => some (encV lk.c lk.d 0x36 1 d a b)
  | .sysrd lk d b => some (encV lk.c lk.d 0x36 2 d 0 b)
  | .syswr lk a b => some (encV lk.c lk.d 0x36 3 0 a b)
  | .perf lk d a => some (encV lk.c lk.d 0x37 0 d a 0)
  | .haltctx lk d a => some (encV lk.c lk.d 0x37 1 d a 0)
  | .ckptCut lk d => some (encV lk.c lk.d 0x37 2 d 0 0)
  | .ckptQuery lk d => some (encV lk.c lk.d 0x37 2 d 0 0)
  | .ckptAbort lk d => some (encV lk.c lk.d 0x37 2 d 0 0)
  | .ckptRestore lk d => some (encV lk.c lk.d 0x37 2 d 0 0)
  | .wdog lk d => some (encV lk.c lk.d 0x37 3 d 0 0)
  | .wdogSet lk d a => some (encV lk.c lk.d 0x37 3 d a 0)
  | .watchdog .. => none
  | .sleepWake .. => none
  | .offerTimeout .. => none
  | .teardownComplete .. => none
  | .loadDataArrival .. => none
  | .storeRegistration .. => none
  | .storeGrant .. => none
  | .atomicPerformance .. => none
  | .atomicResultArrival .. => none
  | .translationWalk .. => none
  | .migrationLineCopy .. => none
  | .barrierRecheck .. => none
  | .jacquardWordApply .. => none
  | .engineLaunch .. => none
  | .engineLaunchCompletion .. => none
  | .matrixWordApply .. => none
  | .matrixPassGrant .. => none
  | .matrixPassComplete .. => none
  | .latchLoadComplete .. => none
  | .mstCredit .. => none
  | .brocadeSweep .. => none
  | .tinvSliceApply .. => none
  | .twillChase .. => none
  | .poolLaneOperation .. => none
  | .graphloadLoad .. => none
  | .graphloadUnload .. => none
  | .graphLoadComplete .. => none
  | .triggerWrite .. => none
  | .runStart .. => none
  | .graphstatWrite .. => none
  | .schedulerDispatch => none
  | .launchComplete .. => none
  | .sliceExpiry .. => none
  | .graceExpiry .. => none
  | .killExpiry .. => none
  | .contextSave .. => none
  | .contextResume .. => none
  | .checkpointSweep .. => none
  | .pieceReserveCopy .. => none
  | .checkpointDrain .. => none
  | .pcfg .. => none
  | .qmove .. => none
  | .quantumScrub .. => none
  | .quantumOnline .. => none
  | .memoryRelease .. => none
  | .report => none
  | .retrain => none
  | .fwupdate .. => none
  | .hostCxlMemWrite .. => none
  | .hostCxlMemRead .. => none
  | .harespResolve .. => none
  | .harespAbort .. => none
  | .harespMakeCopy .. => none
  | .harespStartRun .. => none
  | .harespDiscardRun .. => none
  | .harespPieceDrained .. => none
  | .haqheadWrite .. => none
  | .clhandlerWrite .. => none
  | .perfselWrite .. => none
  | .pretimersWrite .. => none
  | .registerWrite .. => none
  | .pcieLinkError => none
  | .uncorrectableError .. => none
  | .powerOn .. => none
  | .deviceReset => none
  | .clockStep .. => none
  | .getVersion => none
  | .getCapabilities => none
  | .negotiateAlgorithms => none
  | .getDigests => none
  | .getCertificate .. => none
  | .challenge .. => none
  | .getMeasurements .. => none
  | .unsupportedRequest .. => none
  | .unallocatedEncoding .. => none
  | .messageEnqueued .. => none
  | .otherHostWrite .. => none
  | .controllerDma .. => none
  | .nvmeCommand .. => none

/-- The SEL that the EXT of an instruction must carry for the word to mean it (R50); 0 where SEL tells nothing apart.
For TRET it is the MODE of R379 with one result. -/
def encodeSel : Instr → BitVec 4
  | .frecXlate .. => 1
  | .migctlQuery .. => 1
  | .migctlResolve .. => 2
  | .migctlAbort .. => 3
  | .migctlInvpg .. => 4
  | .kvnewPool .. => 1
  | .kvnewDrop .. => 2
  | .kvforkCow .. => 1
  | .kvfreeTrunc .. => 1
  | .kvinvClr .. => 1
  | .xqrecvDraft .. => 1
  | .gstepBind .. => 1
  | .kvquotaWr .. => 1
  | .tretNext .. => 1
  | .tretEnd .. => 2
  | .ckptQuery .. => 1
  | .ckptAbort .. => 2
  | .ckptRestore .. => 3
  | .wdogSet .. => 1
  | _ => 0

end Sys2Proof
end

