-- ==== Sys2Proof/Machine/State.lean ====
section
/-! DEFINITION. The state of the machine, as plain data, and the state after reset. Docstrings cite the rule of
spec/ that names each field; a field marked MODEL is the model's own bookkeeping (log 3, 9). -/

namespace Sys2Proof.Machine

open Sys2Proof

/-- Why a step can stop with a fault. -/
inductive Fault where
  /-- An outside event names a physical address that R388 says does not exist. Raised by OTHER_HOST_WRITE and
  UNCORRECTABLE_ERROR. Safe: the machine stops where the spec gives the address no storage. -/
  | noSuchAddress (pa : Nat)
  deriving DecidableEq, Repr

/-- Why an instruction can be refused. -/
inductive Refusal where
  /-- An instruction this model does not give a meaning to, by its mnemonic. Raised by exec alone. Safe. -/
  | notModelled (mnemonic : String)
  deriving DecidableEq, Repr

/-- A finite map as a list of pairs; an absent key reads as a default that the reader names. -/
abbrev AMap (α : Type) := List (Nat × α)

/-- Bytes by address: strictly rising addresses, no entry equal to 0, which an unlisted address reads as (log 1). -/
abbrev Memory := List Host.Cell

/-! ## Causes and trap data -/

/-- The trap causes of R356. -/
inductive Cause where
  | illegalInstruction | illegalPacket | illegalOperand | unitAbsent | illegalConvergence | illegalInHelper
  | staleHandle | foreignHandle | bounds | misaligned | peerAbsent | kvPoison | xqSequence | grammarStack
  | userTrap | watchdog | killed
  deriving DecidableEq, Repr

/-- What decides a trap: its cause, deciding lane, INFO, and for a helper's trap raised at HWAIT the helper index. -/
structure TrapInfo where
  cause : Cause
  lane : Nat
  info : Word
  helper : Option Nat
  deriving DecidableEq, Repr

/-- The trap record of R359, TRAPREC0 to TRAPREC3. -/
structure TrapRec where
  r0 : Word
  r1 : Word
  r2 : Word
  r3 : Word
  deriving DecidableEq, Repr

/-! ## Threads -/

/-- The EXT fields a word reads (R50). -/
structure Ext where
  c3 : Reg
  rm : BitVec 3
  sr : Bool
  sat : Bool
  g : BitVec 4
  sel : BitVec 4
  deriving DecidableEq, Repr

/-- A short-latency result not yet certainly visible (R36): the register code, the value before the producer, the thread's
own time from which a read is well-spaced, and the cycles in which the result was issued and lands (R37). `slow` marks the
result of a word of R424, `await` one whose reference group has not issued. MODEL. -/
structure Early where
  code : Nat
  old : DWord
  visAt : Nat
  issued : Nat
  landAt : Nat
  slow : Bool
  await : Bool
  deriving DecidableEq, Repr

/-- A value of a last-result entry: the thread's own time from which it is certainly visible, and the cycle in which it lands
(R36, R44). MODEL. -/
structure LastResult where
  value : Word
  visAt : Nat
  landAt : Nat
  deriving DecidableEq, Repr

/-- Where a word stands that may trap after its issue: its PC, the PC of its group's first word, the words in the group. -/
structure WordAt where
  pc : Word
  gpc : Word
  glen : Nat
  deriving DecidableEq, Repr

/-- A grammar word with the operands it read (R347 to R349): `gstep`'s lanes hold their token and block. -/
inductive GrammarWord where
  | bind (dst : Reg) (pd : Option Nat) (slot va : Nat)
  | step (dst : Reg) (pd : Option Nat) (lanes : List (Nat × Word × List Word))
  | mask (dst : Reg) (pd : Option Nat) (block : List Word) (chunk : Word)
  deriving DecidableEq, Repr

/-- What the home slices apply for a thread: TINV, discarding or not, TDROP, KVNEW.drop with its destination and the
predicate it clears (R278, R281, R331); and a TREG, or a KVNEW.pool with its predicate, that waits for a wrap, with its
destination and descriptor (R277). -/
inductive SliceJob where
  | inv (discard : Bool)
  | drop
  | reg (dst : Reg) (desc : List Word)
  | make (dst : Reg) (pd : Option Nat) (desc : List Word)
  | pool (dst : Reg) (pd : Option Nat)
  deriving DecidableEq, Repr

/-- What a word that has issued does as it completes: KVQUOTA.wr's write, for the executing VF, of a register of a VF and tier
(R338); CKPT's DST, with whether a restore then still reads as in progress (R383). -/
inductive LateJob where
  | quota (own v tier reg n : Nat)
  | ckpt (dst : Reg) (mid : Bool)
  deriving DecidableEq, Repr

/-- Why a thread is held (R59, R294, R302). A word whose wait a forced halt undoes carries the PC at which its thread is then
recorded, where it is the only word of its group (R74, log 88). -/
inductive Hold where
  /-- Runs, or waits at a word that is tried afresh. -/
  | run
  /-- In SLEEP for this many further cycles (R88). -/
  | sleep (n : Nat)
  /-- REST has issued and waits for the flags and the helpers of its thread: the entry, and vV as read at issue (R297). -/
  | rest (e : Nat) (v : Word)
  /-- TRET has issued and waits for the flags of its thread: the bytes to skip, DST, and what it read at issue (R379). -/
  | tret (skip : Nat) (dst : Reg) (vals : List Word) (preds : Option (BitVec 8))
  /-- In GBAR on this group and phase, and the PC after it (R111). -/
  | gbar (g : Nat) (phase : Word) (next : Word) (back : Option Word)
  /-- Parked by OFFER: how many cycles of its limit are left, and the destination of vD (R302). -/
  | parked (limit : Nat) (dst : Reg)
  /-- Waits for a pool word, by its number (R323). -/
  | pool (id : Nat)
  /-- Waits for a tensor word at the home slices: tensor, whether the first slice has applied it, slices left (R278,
  R281). -/
  | slices (job : SliceJob) (t : Nat) (begun : Bool) (left : List Nat)
  /-- Waits for what the named thread of its run waits for (R276). -/
  | follow (lead : Nat)
  /-- Waits for XQSEND's enqueue: control and message (R343). -/
  | xqsend (ctrl : Word) (msg : List Word) (back : Option Word)
  /-- Waits in XQRECV: destination, control, and for `.draft` VOCAB and VOCABPAD as the word met them (R344, R345). -/
  | xqrecv (dst : Reg) (ctrl : Word) (draft : Option (Word × Word)) (place : WordAt) (back : Option Word)
  /-- A word that completes in this cycle and acts then (R338, R383). -/
  | later (done : Nat) (job : LateJob)
  /-- A grammar word whose table read waits on this translation entry (R347). -/
  | grammar (w : GrammarWord) (entry : Nat) (place : WordAt)
  /-- Halted by a soft request at a yield point, to be saved (R82). -/
  | halted
  deriving DecidableEq, Repr

/-- Helper data of a thread (R304, R305). -/
structure HelperInfo where
  recruiter : Nat
  index : Nat
  fresh : Nat
  reserved : List Nat
  deriving DecidableEq, Repr

/-- How a helper ended (R307, R309). -/
inductive HelperEnd where
  | value (v : Word)
  | trap (t : TrapInfo) (pc : Word)
  | killed
  deriving DecidableEq, Repr

/-- A helper team, open until HWAIT closes it: its Damask entry until its last helper has ended, its number granted, the
operation fixed by the first HEND, and how each helper ended (R304, R307, R308). -/
structure Team where
  entry : Nat
  n : Nat
  op : Option Nat
  ends : AMap HelperEnd
  deriving DecidableEq, Repr

/-- A thread (R17) and its control state. -/
structure Thread where
  /-- TID (R18). -/
  tid : Word
  /-- SIB (R45). -/
  sib : Word
  warp : Nat
  lane : Nat
  role : Nat
  /-- Row map: row keys, 1024 × slice + row; entry 0 is the operand row (R285). -/
  map : List Nat
  /-- p0–p7. -/
  pred : BitVec 8
  /-- f0–f11, counters 0 to 15 (R42). -/
  flags : List Nat
  /-- SETA and SETB of the last HDR (R39). -/
  setA : BitVec 4
  setB : BitVec 4
  /-- WAIT of the clause whose first group has not issued (R40). -/
  wait : BitVec 12
  /-- PC as the byte offset from its code base, and whether the base is the handler segment's (R361). -/
  pc : Word
  inHandler : Bool
  /-- TRAPBASE in force at the entry of the handler the thread runs. -/
  handlerBase : DWord
  /-- y0–y3, newest first; empty is unwritten (R44). -/
  y0 : List LastResult
  y1 : List LastResult
  y2 : List LastResult
  y3 : List LastResult
  early : List Early
  /-- The thread's own time: what R35 and the D fields alone guarantee has passed. MODEL. -/
  vt : Nat
  /-- The cycle in which its previous group issued, or the one after it for a taken branch (R35, R66). MODEL. -/
  last : Nat
  /-- The first cycle in which its last snapshot word is complete and it may issue again (R294). MODEL. -/
  busy : Nat
  /-- It spends the cycle in hand waiting for a window peer or for a row (R28, R289). MODEL. -/
  stall : Bool
  /-- The cycle from which its next group may issue, its rows copied; 0 where it has copied none (R287). MODEL. -/
  copyAt : Nat
  hold : Hold
  /-- YC and DL (R68). -/
  yc : Nat
  dl : Nat
  /-- Deadline field of the most recent YIELD, 0 for the launch default (R43). -/
  lastYield : Nat
  /-- FSTAT (R136). -/
  fstat : Word
  /-- The generator G (R138). -/
  gen : DWord
  /-- TSTAT: PL and INTRAP (R355). -/
  pl : Bool
  intrap : Bool
  trapRec : TrapRec
  /-- The trap entry (R358). -/
  trapEntry : Option Nat
  /-- The trap that its run took together, by number (R360). MODEL. -/
  trapNo : Nat
  /-- The open helper team (R304). -/
  team : Option Team
  helper : Option HelperInfo
  deriving DecidableEq, Repr

/-- The front-end thread of a core (R21, R46). -/
structure FrontEnd where
  tid : Word
  k : List DWord
  pred : BitVec 8
  flags : List Nat
  setA : BitVec 4
  setB : BitVec 4
  wait : BitVec 12
  pc : Word
  early : List Early
  vt : Nat
  last : Nat
  ended : Bool
  pl : Bool
  /-- A tensor word that waits (R276). -/
  hold : Hold
  deriving DecidableEq, Repr

/-- A row of the row store: eight 32-bit words and the share count (R9, R287); `fly` lists its short-latency results on their
way, each with its word, the cycle of issue and the cycle of landing (R37, R291; MODEL). -/
structure Row where
  words : List Word
  count : Nat
  fly : List (Nat × Nat × Nat)
  deriving DecidableEq, Repr

/-- A warp of a core (R58, R61, R93). -/
structure Warp where
  id : Nat
  role : Nat
  /-- First slice of its group and number of slices. -/
  slice0 : Nat
  /-- Bit `lane` set: launched in that lane. -/
  launched : BitVec 64
  spawned : Bool
  deriving DecidableEq, Repr

/-- A Damask entry (R285). -/
structure Entry where
  state : Nat
  gen : BitVec 8
  map : List Nat
  resume : Reg
  pc : Word
  pred : BitVec 8
  flags : List Nat
  setA : BitVec 4
  setB : BitVec 4
  fstat : Word
  genG : DWord
  yc : Nat
  dl : Nat
  maker : Word
  role : Nat
  trapEntry : Bool
  deriving DecidableEq, Repr

/-- A group (R104): arrival marks by thread, the phase count, and arrivals whose release has not taken effect, with the
requests they wait for (R107). -/
structure Group where
  members : AMap (Option Word)
  phase : Word
  late : List (Nat × List Nat)
  deriving DecidableEq, Repr

/-- An entry of dq or of a warp queue: its value and the warps that have yet to take it (R71, R199). -/
structure QEntry where
  value : DWord
  left : List Nat
  deriving DecidableEq, Repr

/-! ## Memory requests -/

/-- A line's key (R173), always with its VF (R271). -/
structure Key where
  vf : Nat
  t : Nat
  trow : Nat
  tcol : Nat
  line : Nat
  deriving DecidableEq, Repr

/-- A buffer record as captured (R170, R172). -/
abbrev BufRec := BitVec 128

/-- The atomic operations of R219. -/
inductive AtomOp where
  | add | min | max | umin | umax | and | or | xor | fadd | fmin | fmax | xchg | cas
  deriving DecidableEq, Repr

/-- What a request does. -/
inductive ReqKind where
  | load (sz : BitVec 3)
  | store
  | atomic (op : AtomOp) (wide : Bool) (returns : Bool) (acq : Bool)
  | prefetch (l1 : Bool)
  /-- THALO: the line is read once and copied into the L1s of these cores (R280). -/
  | push (cores : List Nat)
  deriving DecidableEq, Repr

/-- Where a request stands. -/
inductive Stage where
  /-- Waits for translation. -/
  | walk
  /-- Translation faulted and the table or the operand log is full: waits in the core's request queue (R176, R178). -/
  | stuck
  /-- Translation faulted: attached to this entry of the cluster's table (R178). -/
  | faulted (entry : Nat)
  /-- Translated, or a scratchpad access. -/
  | ready
  /-- A store registered and not yet granted, or an atomic performed and its result on the way. -/
  | done
  deriving DecidableEq, Repr

/-- Who counts an operation in a flag (R292). -/
inductive Holder where
  | thread (uid : Nat)
  | entry (e : Nat)
  | frontEnd
  deriving DecidableEq, Repr

/-- The result and flag of one lane of a long-latency word in flight: per result word the rows and word positions it
lands in (R291), the register written, the flag (R41) and everyone who counts it (R292). -/
structure Pend where
  uid : Nat
  dst : Nat
  dests : List (List (Nat × Nat))
  flag : Option Nat
  holders : List Holder
  /-- The cycle of issue. MODEL. -/
  issued : Nat
  deriving DecidableEq, Repr

/-- One lane of a request. -/
structure LaneReq where
  uid : Nat
  lane : Nat
  tid : Word
  /-- Element index and byte address (R173). -/
  index : Nat
  addr : Nat
  /-- Store data or operand, and for CAS the new value, little-endian. -/
  data : List Byte
  data2 : List Byte
  /-- The pending result and flag of this lane, by number. -/
  pend : Nat
  /-- Result of an atomic, once performed. -/
  result : Option (List Byte)
  faulted : Bool
  deriving DecidableEq, Repr

/-- One request: the lanes of a word that share a key line (R175), or one lane of a scratchpad word. -/
structure Req where
  id : Nat
  kind : ReqKind
  stage : Stage
  /-- The word it belongs to, by the number of the word's first request. -/
  word : Nat
  space : Nat
  key : Key
  va : Nat
  /-- Physical lines: the line itself, or the packed lines of a FORMAT 1 line (R274). -/
  pas : List Nat
  /-- Target core of a scratchpad access. -/
  target : Nat
  width : Nat
  buf : Nat
  brec : BufRec
  pc : Word
  runMask : BitVec 64
  nruns : Nat
  lanes : List LaneReq
  /-- Requests that must be registered or read before this one is performed (R209). -/
  after : List Nat
  /-- Acquires completed on the core when the request was accepted (R185). -/
  epoch : Nat
  /-- Its tensor was dropped while it was held: it faults with BOUNDS at replay (R278). -/
  gone : Bool
  deriving DecidableEq, Repr

/-- A fault record (R182). -/
abbrev FaultRecord := List Word

/-- An L1 line (R184): bytes, and per 32-bit word whether it is valid and owned. -/
structure L1Line where
  key : Key
  /-- The virtual line it was formed from. -/
  va : Nat
  data : List Byte
  valid : BitVec 16
  owned : BitVec 16
  deriving DecidableEq, Repr

/-- A translation held by a core (R176): virtual base, physical base, size, writable, tier. -/
structure TlbEntry where
  vf : Nat
  va : Nat
  pa : Nat
  size : Nat
  w : Bool
  tier : Nat
  deriving DecidableEq, Repr

/-! ## Engines -/

/-- An engine command with its captured records (R237). -/
structure Command where
  desc : BitVec 128
  src : BufRec
  dst : BufRec
  idx : BufRec
  deriving DecidableEq, Repr

/-- A Jacquard slot (R230), with SLOT state 0 FREE, 1 IDLE, 2 WAITING, 3 RUNNING. -/
structure JSlot where
  state : Nat
  kind : Nat
  cmd : Command
  fired : Bool
  npred : Nat
  pleft : Nat
  succ : List Nat
  progress : Nat
  gen : BitVec 8
  failed : Nat
  refused : Bool
  cause : Nat
  /-- Failures and first cause of the running launch. -/
  runFailed : Nat
  runCause : Nat
  /-- Order in which it became launchable, when queued for launch. -/
  queued : Option Nat
  /-- Predecessor completions held until it rests (R231). -/
  heldPreds : Nat
  /-- Stalled on this translation entry. -/
  stalled : Option Nat
  /-- Index entry of the row in progress, and its failure cause or 0. -/
  idxVal : Option (Nat × Nat)
  /-- A running launch that a resume brought back and that waits for a channel (R239). -/
  waitCh : Bool
  deriving DecidableEq, Repr

/-- The engine words of R241. -/
inductive EngineOp where
  | ndef (free : Bool)
  | nedge (target : Nat) (remove : Bool)
  | nfire
  | load (kind : Nat) (cmd : Command)
  | nwait (dst : Nat)
  deriving DecidableEq, Repr

/-- An engine word on its way to the Jacquard unit (R232), with the threads whose flag it raised. -/
structure EngineWord where
  core : Nat
  slot : Nat
  op : EngineOp
  /-- Pending results and flags, by number on the issuing core. -/
  pends : List Nat
  /-- NFIRE: requests that must have been registered first. -/
  after : List Nat
  atRest : Bool
  /-- Brought back by a resume, unapplied (R414). -/
  back : Bool
  deriving DecidableEq, Repr

/-- A matrix word posted and not yet applied (R249). A rounding MST carries the generators of its lanes as they stood at its
issue (R138, R267). -/
inductive MatrixOp where
  | mldb (mask : BitVec 4) (buf : BufRec) (idx pitch : Nat)
  | mgath (mask : BitVec 4) (buf : BufRec) (idx pitch : Nat) (rows : List (Nat × Nat))
  | mtrn (mask : BitVec 4) (wide : Bool) (buf : BufRec) (idx pitch : Nat)
  | mscale (side : Bool) (mask : BitVec 4) (group : Nat) (sel : Nat) (rows : List (Nat × Word))
  | mzero (mask : BitVec 4) (acc : Nat)
  | mma (acc mode : Nat) (zero : Bool) (fmt : Nat)
  | mst (acc mode : Nat) (clear : Bool) (ofmt : Nat) (buf : BufRec) (idx pitch bar : Nat) (rm : BitVec 3) (sr sat : Bool)
      (gens : List DWord)
  deriving DecidableEq, Repr

/-- A posted matrix word. -/
structure MatrixWord where
  id : Nat
  warp : Nat
  op : MatrixOp
  pends : List Nat
  /-- MST: what the retirement tracker counts until the bytes are written. -/
  late : List Nat
  /-- Rows or groups that a latch load has read. -/
  progress : Nat
  /-- Lanes of the run, ascending. -/
  uids : List Nat
  /-- Stores that a latch load must follow (R268). -/
  after : List Nat
  /-- Posted MMA: age in the cluster, 0 while not posted; priority; times passed over (R250). -/
  age : Nat
  prio : Bool
  passed : Nat
  deriving DecidableEq, Repr

/-- An MST that has read its accumulators and whose elements are being written (R267). -/
structure MstWrite where
  id : Nat
  buf : BufRec
  /-- Element index and value bytes still to write, in order. -/
  elems : List (Nat × List Byte)
  bar : Nat
  bytes : Nat
  late : List Nat
  stalled : Option Nat
  deriving DecidableEq, Repr

/-- One of the eight claims of a cluster's accumulators (R246): 0 FREE, 1 HELD, 2 FREEING. -/
structure Claim where
  state : Nat
  core : Nat
  warp : Nat
  deriving DecidableEq, Repr

/-- A granted pass in progress (R250, R251). -/
structure Pass where
  core : Nat
  acc : Nat
  tiles : List (List Word)
  tcBad : Bool
  word : MatrixWord
  deriving DecidableEq, Repr

/-- A pool lane operation (R323). -/
inductive PoolOp where
  | newSeq (pos : Word)
  | app (s : Nat) (tag : Nat)
  | fork (s : Nat)
  | free (s : Nat)
  | trunc (s : Nat) (p : Nat)
  | walk (s : Nat) (g : Word)
  | inv (set : Bool) (s : Nat) (g : Nat) (m : BitVec 16)
  | rspan (s : Nat) (tag : Nat)
  deriving DecidableEq, Repr

/-- A lane operation waiting at a pool agent, with its word. -/
structure PoolLane where
  core : Nat
  word : Nat
  uid : Nat
  lane : Nat
  op : PoolOp
  dst : Reg
  pd : Option Nat
  place : WordAt
  /-- Waits on a copy request for this page. -/
  copying : Option Nat
  /-- Its copy request was answered POOL_DRY. -/
  dry : Bool
  deriving DecidableEq, Repr

/-! ## Cores and clusters -/

/-- A core (R9, R21). -/
structure Core where
  /-- Running launch, instance, core index within it (R91). -/
  launch : Option Nat
  inst : Nat
  index : Nat
  started : Bool
  /-- Binding tag of the Damask table (R286). -/
  bind : BitVec 9
  warps : List Warp
  nextWarp : Nat
  threads : AMap Thread
  rows : AMap Row
  fe : Option FrontEnd
  damask : AMap Entry
  groups : AMap Group
  token : Option Nat
  dq : List QEntry
  wq : AMap (List QEntry)
  /-- b0–b31, and the record a recent BUFSET replaced with the cycle of the BUFSET (R193). -/
  bufs : AMap BufRec
  bufOld : List (Nat × BufRec × Nat)
  scratch : Memory
  /-- Barriers that are checked again in the next cycle (R214). -/
  recheck : List Nat
  faultq : List FaultRecord
  /-- FAULTQ.LOST and TRAP (R183). -/
  lost : Nat
  ftrap : BitVec 3
  vocab : Word
  vocabpad : Word
  l1 : List L1Line
  tlb : List TlbEntry
  reqs : List Req
  nextReq : Nat
  pend : AMap Pend
  nextPend : Nat
  epoch : Nat
  /-- Latches: 4 × 32 rows of 512 bytes, by 128 × side + 32 × sub-array + row; scale latches likewise, 32 bytes. -/
  latch : AMap (List Byte)
  scale : AMap (List Byte)
  mwords : List MatrixWord
  nextM : Nat
  msts : List MstWrite
  /-- Pool words outstanding: threads whose lanes are not complete, and the poisoned lane with its page (R323, R326). -/
  poolWords : AMap (List Nat × Option (Nat × Nat))
  nextPool : Nat
  /-- The retirement tracker (R84): per entry the pending results and flags, by number, that it waits for. -/
  tracker : AMap (List Nat)
  /-- What a resume brought back and must take effect before a thread of the context issues: requests and pool words numbered
  below these (R180, R323, R414). -/
  resumeReq : Nat
  resumePool : Nat
  /-- Likewise matrix words numbered below this, and the slots of running engine launches (R239, R255, R414). -/
  resumeM : Nat
  resumeJ : List Nat
  /-- The device's cycle as this core last saw it (R35, R60). MODEL. -/
  clock : Nat
  /-- Entries that a DROP frees once every word issued no later has taken effect, with the cycle of the DROP (R293). MODEL. -/
  drops : List (Nat × Nat)
  /-- How many rows have been copied (R294). MODEL. -/
  copies : Nat
  /-- Contexts of helpers that have ended, by slice and lane, with the pending results that must land first (R309). -/
  ghosts : List (Nat × Nat × List Nat)
  deriving DecidableEq, Repr

/-- An outstanding translation (R176, R201). -/
structure XEntry where
  gen : BitVec 8
  vf : Nat
  /-- VA[51:16]. -/
  page : Nat
  write : Bool
  protect : Bool
  deriving DecidableEq, Repr

/-- A copy request of a pool (R323): pool owner, pool, sequence, page. -/
structure CopyReq where
  vf : Nat
  t : Nat
  s : Nat
  g : Nat
  deriving DecidableEq, Repr

/-- A cluster (R9). -/
structure Cluster where
  /-- CLHANDLER: core that claimed, and its launch (R354). -/
  handler : Option (Nat × Nat)
  /-- The outstanding translation table and the generations last used. -/
  xtab : AMap XEntry
  xgen : AMap (BitVec 8)
  /-- Requests waiting for FREC.xlate, oldest first. -/
  xpend : List Nat
  /-- Copy requests waiting for KVFORK.cow, oldest first (R325). -/
  copies : List CopyReq
  jslots : AMap JSlot
  jwords : List EngineWord
  nextLaunch : Nat
  claims : AMap Claim
  /-- Accumulator cells: by 8 × sub-array + index, 1024 words. -/
  accs : AMap (List Word)
  pass : Option Pass
  /-- The pass before it, whose last cycles the next pass's first overlap: its tiles are written, its flag has yet to fall
  (R251). -/
  ending : Option Pass
  nextAge : Nat
  deriving DecidableEq, Repr

/-- A Brocade line (R273, R184). -/
structure BLine where
  key : Key
  gen : Nat
  pa : Option Nat
  data : List Byte
  dirty : BitVec 4
  poison : BitVec 4
  /-- Bytes written since their sector became poisoned (R181). -/
  covered : BitVec 64
  /-- Owning core of each 32-bit word. -/
  owner : AMap Nat
  deriving DecidableEq, Repr

/-! ## VFs, pools and graphs -/

/-- A tensor-table entry (R269). -/
structure Tensor where
  state : Nat
  vbase : Nat
  pbase : Nat
  rows : Nat
  stride : Nat
  tr : Nat
  tc : Nat
  esize : Nat
  format : Nat
  gen : Nat
  /-- Home slices at which an advance of the generation is still to be applied, once per advance (R281). MODEL. -/
  late : List Nat
  deriving DecidableEq, Repr

/-- A page header (R317). -/
structure PageHeader where
  vf : Nat
  tier : Nat
  poison : Bool
  valid : Nat
  share : Nat
  retired : BitVec 16
  invalid : BitVec 16
  tags : List Nat
  first : Word
  seq : Word
  pred : Word
  succ : Word
  /-- The header's own sector is poisoned, so SUCC is lost (R326). -/
  lost : Bool
  deriving DecidableEq, Repr

/-- A sequence record (R320). -/
structure SeqRec where
  head : Word
  tail : Word
  nextPos : Word
  live : Bool
  branches : List (Word × Word)
  deriving DecidableEq, Repr

/-- A pool (R316). -/
structure Pool where
  npages : Nat
  nhbm : Nat
  pay : Nat
  seqbase : Nat
  nseq : Nat
  quarantine : List Nat
  headers : AMap PageHeader
  seqs : AMap SeqRec
  queue : List PoolLane
  deriving DecidableEq, Repr

/-- A launch header, by the fields of R89. -/
structure Header where
  codeBase : Nat
  codeLen : Nat
  feEntry : Nat
  feBase : Nat
  feLen : Nat
  ftrap : BitVec 3
  scratchKiB : Nat
  deadline : Nat
  level : Nat
  nroles : Nat
  shape : Nat
  width : Nat
  instances : Nat
  /-- Per role: warps, rows, entry packet. -/
  roles : List (Nat × Nat × Nat)
  deriving DecidableEq, Repr

/-- A graph node (R94). -/
structure Node where
  hdr : Header
  npred : Nat
  succ : List Nat
  params : List DWord
  deriving DecidableEq, Repr

/-- How a node of a run stands: instances dispatched, complete, failed; the order in which it became ready. -/
structure NodeRun where
  ready : Option Nat
  dispatched : Nat
  done : Bool
  launch : Option Nat
  deriving DecidableEq, Repr

/-- A graph slot (R95 to R100). -/
structure GraphSlot where
  state : Nat
  err : Nat
  errNode : Nat
  doneCount : Word
  nodes : List Node
  /-- A GRAPHLOAD in progress: the image VA. -/
  loading : Option Nat
  triggers : List Nat
  run : Option (AMap NodeRun)
  /-- The node whose launch failed, while the run's other launches complete (R99). -/
  failed : Option Nat
  deriving DecidableEq, Repr

/-- A VF. -/
structure VF where
  ptroot : DWord
  weight : Nat
  pretimers : Word
  trapbase : DWord
  lasttrap : TrapRec
  /-- The MSI-X table of its function's BAR, by 8-byte word (R397). -/
  msix : AMap DWord
  perfsel : AMap Word
  perfcnt : AMap DWord
  /-- What the counters counted in the last 64 cycles: the cycle and how many events (R381). MODEL. -/
  perfnew : AMap (List (Nat × Nat))
  tensors : AMap Tensor
  pools : AMap Pool
  slots : AMap GraphSlot
  /-- QUOTA, BORROW, USED per tier (R328). -/
  quota : AMap Nat
  borrow : AMap Nat
  used : AMap Nat
  /-- Context: 0 none, 1 running, 2 laddering, 3 saved (R382), and the rung reached. -/
  ctx : Nat
  rung : Nat
  deriving DecidableEq, Repr

/-- A launch in the machine. -/
structure Launch where
  vf : Nat
  slot : Nat
  node : Nat
  hdr : Header
  code : List Word
  fecode : List Word
  /-- Handler segments by TRAPBASE value (R33, R360). -/
  handlers : List (DWord × List Word)
  /-- Memory, poison and home slices as they stood when the launch started, which a handler segment that it comes to name later
  is read from (R33, R360). MODEL. -/
  mem : Memory
  poison : AMap (BitVec 16)
  brocade : List BLine
  spawnNext : Nat
  /-- Cores in use by instance: (instance, first core). -/
  placed : List (Nat × Nat)
  completed : Nat
  tearing : Bool
  deriving DecidableEq, Repr

/-! ## Partitions and the device -/

/-- A pending host-assist record (R392, R393). -/
inductive HaKind where
  | xlate (cluster entry : Nat) (gen : BitVec 8)
  | copy (req : CopyReq)
  | relaunch (vf slot patch : Nat)
  | pieces (first count : Nat)
  deriving DecidableEq, Repr

/-- One 64 KiB piece of a checkpoint (R370, R371). -/
structure Piece where
  pa : Nat
  vf : Nat
  tier : Nat
  drained : Bool
  reserve : Option Nat
  deriving DecidableEq, Repr

/-- A partition (R386, R369, R398). -/
structure Part where
  record : List Byte
  eth : Nat
  sysvf : Nat
  vfmask : DWord
  pch : List DWord
  /-- By CXL port, the 16 GiB units of its range (R386, R388). -/
  cxl : List (BitVec 256)
  nvme : DWord
  save : DWord
  haqbase : Nat
  funcmode : Word
  lowmark : AMap Nat
  ckState : Nat
  ckErr : Nat
  ckRate : Nat
  ckBuf : DWord
  ckRsv : DWord
  pieces : List Piece
  ckDrained : Nat
  ckImage : Option Nat
  haHead : Nat
  haTail : Nat
  haErr : Nat
  haPending : List (BitVec 16 × HaKind)
  /-- Records waiting for room at their source (R392). -/
  haWaiting : List HaKind
  haTag : BitVec 16
  drainsel : Word
  /-- The operating-system image that its record named, as it passed the check (R407, R408). -/
  image : List Byte
  deriving DecidableEq, Repr

/-- Where a quantum's RV64 core stands (R390, R408). -/
inductive RvCore where
  /-- In reset. -/
  | reset
  /-- Taken offline by its operating system. -/
  | offline
  | online
  deriving DecidableEq, Repr

/-- A quantum (R390): 0 OFFLINE, 1 ONLINE, 2 DRAINING, 3 SCRUBBING; its partition; the target of a QMOVE; its RV64 core. -/
structure Quantum where
  state : Nat
  part : Option Nat
  target : Option Nat
  rv : RvCore
  deriving DecidableEq, Repr

/-- A message of an XQ queue (R342). -/
structure XqMsg where
  vf : Nat
  seqno : BitVec 16
  words : List Word
  deriving DecidableEq, Repr

/-- A migration (R190). -/
structure Migration where
  vf : Nat
  page : Nat
  old : Nat
  new : Nat
  tier : Nat
  p : Nat
  leafAt : Nat
  deriving DecidableEq, Repr

/-- A Twill chase (R335): pool, the record as it stood, the page reached, pages left. -/
structure Chase where
  vf : Nat
  t : Nat
  srec : SeqRec
  page : Nat
  left : Nat
  deriving DecidableEq, Repr

/-- A bound slot of a grammar unit: its VF, its table and the table's header (R347). -/
structure GrammarSlot where
  vf : Nat
  va : Nat
  nstates : Nat
  nsym : Nat
  nclass : Nat
  ntok : Nat
  classmap : Nat
  trans : Nat
  deriving DecidableEq, Repr

/-- A key of the grammar unit's caches (R350); a summary's `chunk` is 0. -/
structure MaskKey where
  vf : Nat
  slot : Nat
  state : Nat
  top : Nat
  chunk : Nat
  deriving DecidableEq, Repr

/-- A die (R9). -/
structure Die where
  /-- Inbound queues by 2 × source die + channel. -/
  xq : AMap (List XqMsg)
  /-- Bound slots of the grammar unit (R347). -/
  grammar : AMap GrammarSlot
  /-- Cached chunks, and cached summaries (count and lowest token), the most recently used first (R350). -/
  chunks : List (MaskKey × BitVec 512)
  sums : List (MaskKey × Word × Word)
  mig : List Migration
  chases : List Chase
  deriving DecidableEq, Repr

/-- One core of a saved context (R366). -/
structure SavedCore where
  coreIdx : Nat
  core : Core
  jslots : AMap JSlot
  claims : AMap Claim
  accs : AMap (List Word)
  jwords : List EngineWord
  deriving DecidableEq, Repr

/-- A saved context (R366, R367): its place, its cores, its XQ messages, its pending pool lanes. -/
structure Saved where
  offset : Nat
  length : Nat
  /-- The bytes of each core save, without its padding. -/
  lens : List Nat
  cores : List SavedCore
  msgs : List (Nat × Nat × XqMsg)
  lanes : List (Nat × PoolLane)
  perf : AMap DWord
  deriving DecidableEq, Repr

/-- A checkpoint image as cut: what its header names, its register part and its pieces (R370, R372). -/
structure CkImage where
  part : Nat
  devcap : Word
  saves : AMap Saved
  vfs : AMap VF
  launches : AMap Launch
  pieces : List Piece
  /-- The bytes before the pieces: header, register part and piece table. -/
  front : List Byte
  digest : List Byte
  deriving DecidableEq, Repr

/-- The graph scheduler's own counts (R101, R102). -/
structure Sched where
  /-- Credit by 64 × level + VF; last VF served by level. -/
  credit : AMap Nat
  last : AMap Nat
  /-- The cycle of the last placement: one instance is placed a cycle. -/
  placedAt : Nat
  /-- Passes in a row of the instance that stands first: VF, slot, node, instance, count. -/
  passed : List (Nat × Nat × Nat × Nat × Nat)
  nextReady : Nat
  deriving DecidableEq, Repr

/-- What the device sends out (R397, R407). MODEL record of outputs. -/
inductive Message where
  | msixVf (vf vector : Nat)
  | msixPf (vector : Nat)
  | osInterrupt (part vf : Nat)
  | mailbox (ok : Bool) (offset : Nat)
  | readData (bytes : List Byte) (poisoned : Bool)
  | writeDone
  | writeDropped
  | selfTest (stage code unit : Word) (devcap : Word)
  | spdm (code : BitVec 8) (body : List Byte)
  | nvmeStatus (ok : Bool)
  /-- What a controller's DMA read (R403, R404). -/
  | dmaData (bytes : List Byte) (poisoned : Bool)
  deriving DecidableEq, Repr

/-- How far start-up has come (R405). -/
inductive Boot where
  | off
  | running
  | safe (stage code unit : Word)
  deriving DecidableEq, Repr

/-! ## The issue context -/

/-- What the word in hand did. -/
inductive Status where
  | issued
  | trapped (t : TrapInfo) (slot : Nat)
  /-- Waits; true where each try adds a unit to YC (R28, R289). -/
  | waiting (unit : Bool)
  /-- Waits as one run: no part of the run issues the word without the rest (R202, R276, R330). -/
  | waitingAll
  deriving DecidableEq, Repr

/-- The group in issue (R34, R50): MODEL bookkeeping of one step. -/
structure Cur where
  core : Nat
  fe : Bool
  warp : Nat
  /-- Threads of the run, ascending lane, and whether it is its warp's head run (R59). -/
  run : List Nat
  head : Bool
  /-- PC of the word in hand and of the group's first word; words in the group, EXT included. -/
  pc : Word
  gpc : Word
  glen : Nat
  ext : Option Ext
  extBad : Bool
  /-- Draw number of the step, for free values. -/
  draw : Nat
  status : Status
  deriving DecidableEq, Repr

/-- What a core has still to issue in the cycle in hand, in the order of its sequencers (R60): its front-end word, or the group
of a run of a warp; the last field says whether it is the warp's head run. MODEL. -/
inductive Slot where
  | fe (core : Nat)
  | run (core warp : Nat) (run : List Nat) (head : Bool)
  deriving DecidableEq, Repr

/-- A system register that a SYSWR has just written: the register, the core and the VF whose it is, the writing thread, the value
before, and the cycle of the SYSWR (R380). MODEL. -/
structure SysOld where
  reg : Nat
  core : Nat
  vf : Nat
  uid : Nat
  old : DWord
  cycle : Nat
  deriving DecidableEq, Repr

/-- The whole machine. -/
structure State where
  boot : Boot
  devcap : Word
  /-- The variant strap: 0 CZ-4, 1 CZ-2, 2 CZ-4L (R2). -/
  variant : Nat
  clockMHz : Nat
  mem : Memory
  /-- Poisoned 16-byte sectors by address / 16, with the bytes written since (R181). -/
  poison : AMap (BitVec 16)
  brocade : List BLine
  parts : AMap Part
  quanta : AMap Quantum
  vfs : AMap VF
  dies : AMap Die
  clusters : AMap Cluster
  cores : AMap Core
  launches : AMap Launch
  nextLaunch : Nat
  sched : Sched
  saves : AMap Saved
  images : AMap CkImage
  hostMem : Memory
  out : List Message
  /-- Outside inputs still to be taken, oldest first. MODEL. -/
  agenda : List Instr
  /-- How many free draws have been taken. MODEL. -/
  draws : Nat
  /-- The device's cycle, the cores that have still to arbitrate in it, and what arbitration has still to issue (R60). MODEL. -/
  now : Nat
  arb : List Nat
  /-- The partition whose DRAINSEL was written last: the drain window shows its piece (R396). MODEL. -/
  drainPart : Option Nat
  /-- What SYSWR words of the last four cycles replaced (R380). MODEL. -/
  sysOld : List SysOld
  plan : List Slot
  cur : Cur
  deriving DecidableEq, Repr

/-! ## Default records: what an entry that no map lists reads as -/

/-- A trap record at reset (R359). -/
def TrapRec.reset : TrapRec := ⟨0#32, 0#32, 0#32, 0#32⟩

/-- A free Damask entry, GEN 1 after a reset of the device (R285). -/
def Entry.reset : Entry where
  state := 0
  gen := 1#8
  map := []
  resume := 0#7
  pc := 0#32
  pred := 0#8
  flags := []
  setA := 15#4
  setB := 15#4
  fstat := 0#32
  genG := 0#64
  yc := 0
  dl := 0
  maker := 0#32
  role := 0
  trapEntry := false

/-- A row not in use. -/
def Row.reset : Row := ⟨[0#32, 0#32, 0#32, 0#32, 0#32, 0#32, 0#32, 0#32], 0, []⟩

/-- A core with no launch (R91, R245 for the latches, R345 for VOCAB). -/
def Core.reset : Core where
  launch := none
  inst := 0
  index := 0
  started := false
  bind := 0#9
  warps := []
  nextWarp := 0
  threads := []
  rows := []
  fe := none
  damask := []
  groups := []
  token := none
  dq := []
  wq := []
  bufs := []
  bufOld := []
  scratch := []
  recheck := []
  faultq := []
  lost := 0
  ftrap := 0#3
  vocab := 0#32
  vocabpad := 0#32
  l1 := []
  tlb := []
  reqs := []
  nextReq := 0
  pend := []
  nextPend := 0
  epoch := 0
  latch := []
  scale := []
  mwords := []
  nextM := 0
  msts := []
  poolWords := []
  nextPool := 0
  tracker := []
  resumeReq := 0
  resumePool := 0
  resumeM := 0
  resumeJ := []
  clock := 0
  drops := []
  copies := 0
  ghosts := []

/-- A cluster with no handler launch, every slot FREE and every claim FREE (R230, R246). -/
def Cluster.reset : Cluster where
  handler := none
  xtab := []
  xgen := []
  xpend := []
  copies := []
  jslots := []
  jwords := []
  nextLaunch := 0
  claims := []
  accs := []
  pass := none
  ending := none
  nextAge := 0

/-- A FREE Jacquard slot (R230). -/
def JSlot.reset : JSlot where
  state := 0
  kind := 0
  cmd := ⟨0#128, 0#128, 0#128, 0#128⟩
  fired := false
  npred := 0
  pleft := 0
  succ := []
  progress := 0
  gen := 0#8
  failed := 0
  refused := false
  cause := 0
  runFailed := 0
  runCause := 0
  queued := none
  heldPreds := 0
  stalled := none
  idxVal := none
  waitCh := false

/-- A free tensor entry (R269). -/
def Tensor.reset : Tensor := ⟨0, 0, 0, 0, 0, 0, 0, 0, 0, 0, []⟩

/-- An empty graph slot (R100). -/
def GraphSlot.reset : GraphSlot := ⟨0, 0, 0, 0#32, [], none, [], none, none⟩

/-- A VF at reset: PTROOT 0, WEIGHT 16, PRETIMERS 0x0C83_2064, TRAPBASE 0, LASTTRAP 0 (R103, R177, R360, R363, R364).
-/
def VF.reset : VF where
  ptroot := 0#64
  weight := 16
  pretimers := 0x0C832064#32
  trapbase := 0#64
  lasttrap := TrapRec.reset
  msix := []
  perfsel := []
  perfcnt := []
  perfnew := []
  tensors := []
  pools := []
  slots := []
  quota := []
  borrow := []
  used := []
  ctx := 0
  rung := 0

/-- A quantum owned by no partition (log 6). -/
def Quantum.reset : Quantum := ⟨0, none, none, .reset⟩

/-- A die with its queues and tables empty. -/
def Die.reset : Die := ⟨[], [], [], [], [], []⟩

/-- A claim that is FREE (R246). -/
def Claim.reset : Claim := ⟨0, 0, 0⟩

/-- No issue context. -/
def Cur.idle : Cur := ⟨0, false, 0, [], false, 0#32, 0#32, 0, none, false, 0, .issued⟩

/-- The machine right after reset: nothing in memory, caches, tables or queues (log 1, 2), variant CZ-4 (log 5), the
clock at 1.05 GHz (R6), start-up not yet run (R405). Every register of a VF, core, cluster, die or quantum that no
map lists reads as its default record (`VF.reset` and the like above), which holds the spec's reset values. -/
def State.reset : State where
  boot := .off
  devcap := 0x0FFFFFFF#32
  variant := 0
  clockMHz := 1050
  mem := []
  poison := []
  brocade := []
  parts := []
  quanta := []
  vfs := []
  dies := []
  clusters := []
  cores := []
  launches := []
  nextLaunch := 0
  sched := ⟨[], [], 0, [], 0⟩
  saves := []
  images := []
  hostMem := []
  out := []
  agenda := []
  draws := 0
  now := 3
  arb := []
  drainPart := none
  sysOld := []
  plan := []
  cur := Cur.idle

end Sys2Proof.Machine
end

