-- ==== Sys2Proof/Machine/Base.lean ====
section
/-! DEFINITION. Maps, memory and bytes: the plain data operations that every other operation is built from. -/

namespace Sys2Proof.Machine

open Sys2Proof

/-! ## Finite maps -/

/-- The value at a key. -/
def AMap.look {α : Type} : AMap α → Nat → Option α
  | [], _ => none
  | (k, v) :: t, x => if k = x then some v else AMap.look t x

/-- The value at a key, or a default. -/
def AMap.lookD {α : Type} (m : AMap α) (x : Nat) (d : α) : α :=
  match AMap.look m x with
  | some v => v
  | none => d

/-- Sets the value at a key, in place where the key is listed. -/
def AMap.put {α : Type} : AMap α → Nat → α → AMap α
  | [], x, v => [(x, v)]
  | (k, w) :: t, x, v => if k = x then (x, v) :: t else (k, w) :: AMap.put t x v

/-- Removes a key. -/
def AMap.del {α : Type} : AMap α → Nat → AMap α
  | [], _ => []
  | (k, v) :: t, x => if k = x then AMap.del t x else (k, v) :: AMap.del t x

/-- Changes the value at a listed key; an absent key stays absent. -/
def AMap.upd {α : Type} : AMap α → Nat → (α → α) → AMap α
  | [], _, _ => []
  | (k, v) :: t, x, f => if k = x then (k, f v) :: t else (k, v) :: AMap.upd t x f

/-- Changes every value. -/
def AMap.mapVals {α β : Type} (m : AMap α) (f : α → β) : AMap β := m.map (fun p => (p.1, f p.2))

/-- The keys. -/
def AMap.keys {α : Type} (m : AMap α) : List Nat := m.map (fun p => p.1)

/-- Whether a key is listed. -/
def AMap.has {α : Type} (m : AMap α) (x : Nat) : Bool := (AMap.look m x).isSome

/-! ## Memory -/

/-- The byte at an address; an unlisted address reads as 0 (log 1). -/
def Memory.read : Memory → Nat → Byte
  | [], _ => 0#8
  | (k, v) :: t, a => if k = a then v else Memory.read t a

/-- Bytes from an address upward as a memory lists them: those that differ from what an unlisted address reads as. -/
def Memory.list : Nat → List Byte → Memory
  | _, [] => []
  | a, b :: bs => if b = 0#8 then Memory.list (a + 1) bs else (a, b) :: Memory.list (a + 1) bs

/-- Writes bytes from an address upward, and keeps the canonical form. -/
def Memory.putBytes (m : Memory) (a : Nat) (bs : List Byte) : Memory :=
  m.filter (fun c => decide (c.1 < a)) ++ Memory.list a bs ++ m.filter (fun c => decide (a + bs.length ≤ c.1))

/-- Writes one byte. -/
def Memory.write (m : Memory) (a : Nat) (b : Byte) : Memory := m.putBytes a [b]

/-- The canonical form: addresses strictly rising, no entry equal to what an unlisted address reads as. -/
abbrev Memory.wf (m : Memory) : Prop :=
  List.Pairwise (fun x y : Host.Cell => x.1 < y.1) m ∧ ∀ c ∈ m, c.2 ≠ 0#8

/-- The `n` bytes from an address upward. -/
def Memory.bytes (m : Memory) (a : Nat) : Nat → List Byte
  | 0 => []
  | n + 1 => Memory.read m a :: Memory.bytes m (a + 1) n

/-! ## Little-endian numbers (R6) -/

/-- The number that bytes spell, lowest first. -/
def leNat : List Byte → Nat
  | [] => 0
  | b :: bs => b.toNat + 256 * leNat bs

/-- The low `n` bytes of a number, lowest first. -/
def leBytes : Nat → Nat → List Byte
  | _, 0 => []
  | x, n + 1 => BitVec.ofNat 8 x :: leBytes (x / 256) n

/-- The 32-bit words that bytes spell, lowest first. -/
def leWords (bs : List Byte) (n : Nat) : List Word :=
  (List.range n).map (fun i => BitVec.ofNat 32 (leNat ((bs.drop (4 * i)).take 4)))

/-- The bytes of words, lowest first. -/
def wordsBytes : List Word → List Byte
  | [] => []
  | w :: ws => leBytes w.toNat 4 ++ wordsBytes ws

/-- Bits `hi` to `lo` of a number. -/
def bits (x hi lo : Nat) : Nat := (x / 2 ^ lo) % 2 ^ (hi - lo + 1)

/-- Bit `i` of a number. -/
def tbit (x i : Nat) : Bool := (x / 2 ^ i) % 2 = 1

/-- Replaces the `n` bytes from offset `o` of a byte list. -/
def spliceBytes (bs : List Byte) (o : Nat) (new : List Byte) : List Byte :=
  bs.take o ++ new ++ bs.drop (o + new.length)

/-- The sign extension of the low `w` bits. -/
def sext (w : Nat) (x : Nat) : Int :=
  let y := x % 2 ^ w
  if 2 * y < 2 ^ w then (y : Int) else (y : Int) - (2 ^ w : Nat)

/-- A 32-bit word of an integer, modulo 2^32. -/
def ofInt32 (x : Int) : Word := BitVec.ofInt 32 x

/-- The position of the first element that satisfies a test. -/
def firstIdx {α : Type} (p : α → Bool) : List α → Nat → Option Nat
  | [], _ => none
  | a :: t, i => if p a then some i else firstIdx p t (i + 1)

/-- The lowest number below `n` that satisfies a test, from `lo` upward. -/
def lowest (p : Nat → Bool) : Nat → Nat → Option Nat
  | 0, _ => none
  | n + 1, lo => if p lo then some lo else lowest p n (lo + 1)

/-- Inserts into a list sorted by a key, before equal keys. -/
def insertBy {α : Type} (f : α → Nat) (x : α) : List α → List α
  | [] => [x]
  | y :: t => if f x ≤ f y then x :: y :: t else y :: insertBy f x t

/-- Sorts by a key, keeping the order of equal keys. -/
def sortBy {α : Type} (f : α → Nat) : List α → List α
  | [] => []
  | x :: t => insertBy f x (sortBy f t)

/-- The first occurrences of a list's elements. -/
def dedup {α : Type} [BEq α] : List α → List α
  | [] => []
  | x :: t => x :: (dedup t).filter (fun y => !(y == x))

/-- An element from the front of a list that a test picks, and the list without it. -/
def pluck {α : Type} (p : α → Bool) : List α → Option (α × List α)
  | [] => none
  | a :: t => if p a then some (a, t) else (pluck p t).map (fun r => (r.1, a :: r.2))

/-- Sets element `i` of a list where it exists. -/
def setAt {α : Type} : List α → Nat → α → List α
  | [], _, _ => []
  | _ :: t, 0, v => v :: t
  | a :: t, i + 1, v => a :: setAt t i v

/-- The outcome of a power-on that a free value spells (R405). -/
def bootOutcome (x : BitVec 84) : BootOutcome :=
  ⟨x.getLsbD 0, x.getLsbD 1, x.getLsbD 2, x.getLsbD 3, x.extractLsb' 4 32, x.extractLsb' 36 12, x.extractLsb' 48 4⟩

/-- Element `i` of a list, or a default. -/
def getAt {α : Type} : List α → Nat → α → α
  | [], _, d => d
  | a :: _, 0, _ => a
  | _ :: t, i + 1, d => getAt t i d

end Sys2Proof.Machine
end

