-- ==== Sys2Proof/Machine/Rows.lean ====
section
/-! DEFINITION. Rows, share counts and results in flight (R287 to R292): every read and write of a vector register
goes through here. -/

namespace Sys2Proof.Machine

open Sys2Proof

/-- The outcome of a part of a word: done, a trap, or a wait; a wait may add a unit to YC (R289), and a word that acts once
for its run waits as one run. -/
inductive Res (α : Type) where
  | ok (a : α)
  | trap (t : TrapInfo)
  | wait (unit : Bool)
  | waitAll
  deriving DecidableEq, Repr

/-- Goes on where a part is done. -/
def Res.bind {α β : Type} (r : Res α) (f : α → Res β) : Res β :=
  match r with
  | .ok a => f a
  | .trap t => .trap t
  | .wait u => .wait u
  | .waitAll => .waitAll

/-- Applies a function where a part is done. -/
def Res.map {α β : Type} (f : α → β) : Res α → Res β
  | .ok a => .ok (f a)
  | .trap t => .trap t
  | .wait u => .wait u
  | .waitAll => .waitAll

/-- Does one thing for each element in turn. -/
def forEach {α σ : Type} (f : α → σ → Res σ) : List α → σ → Res σ
  | [], s => .ok s
  | a :: t, s => (f a s).bind (forEach f t)

/-! ## Threads of a core -/

/-- The thread of a number, or a blank one. -/
def Thread.blank : Thread where
  tid := 0#32
  sib := 0xFFFFFFFF#32
  warp := 0
  lane := 0
  role := 0
  map := []
  pred := 0#8
  flags := [0, 0, 0, 0, 0, 0, 0, 0, 0, 0, 0, 0]
  setA := 15#4
  setB := 15#4
  wait := 0#12
  pc := 0#32
  inHandler := false
  handlerBase := 0#64
  y0 := []
  y1 := []
  y2 := []
  y3 := []
  early := []
  vt := 0
  last := 0
  busy := 0
  stall := false
  copyAt := 0
  hold := .run
  yc := 0
  dl := 1
  lastYield := 0
  fstat := 0#32
  gen := 0#64
  pl := false
  intrap := false
  trapRec := TrapRec.reset
  trapEntry := none
  trapNo := 0
  team := none
  helper := none

/-- The thread of a number. -/
def Core.th (c : Core) (u : Nat) : Thread := AMap.lookD c.threads u Thread.blank

/-- Replaces a thread. -/
def Core.setTh (c : Core) (u : Nat) (t : Thread) : Core := { c with threads := AMap.put c.threads u t }

/-- Changes a thread that exists. -/
def Core.updTh (c : Core) (u : Nat) (f : Thread → Thread) : Core := { c with threads := AMap.upd c.threads u f }

/-- Changes each thread of a list. -/
def Core.updAll (c : Core) (us : List Nat) (f : Thread → Thread) : Core :=
  us.foldl (fun c u => c.updTh u f) c

/-- The number of the thread of a warp's lane, and of the helper in a lane. -/
def uidOf (warp lane : Nat) : Nat := 128 * warp + lane
def helperUid (warp lane : Nat) : Nat := 128 * warp + 64 + lane

/-! ## The row store -/

/-- A row. -/
def Core.row (c : Core) (r : Nat) : Row := AMap.lookD c.rows r Row.reset

/-- A word of a row. -/
def Core.rowWord (c : Core) (r w : Nat) : Word := getAt (c.row r).words w 0#32

/-- Writes a word of a row. -/
def Core.setRowWord (c : Core) (r w : Nat) (v : Word) : Core :=
  { c with rows := AMap.upd c.rows r (fun x => { x with words := setAt x.words w v }) }

/-- The slice of a row key (R285). -/
def sliceOf (r : Nat) : Nat := r / 1024

/-- Whether a result in flight lands in a row. -/
def Core.targeted (c : Core) (r : Nat) : Bool :=
  c.pend.any (fun p => p.2.dests.any (fun ps => ps.any (fun q => q.1 == r)))

/-- The lowest free row of a slice (R287). -/
def Core.freeRow (c : Core) (slice : Nat) : Option Nat :=
  lowest (fun r => !(AMap.has c.rows r)) 1024 (1024 * slice)

/-- How many rows of a slice are free. -/
def Core.freeRows (c : Core) (slice : Nat) : Nat := 1024 - (c.rows.filter (fun p => sliceOf p.1 == slice)).length

/-- A result in flight for a row lands also in a copy of it (R291). -/
def Pend.follow (p : Pend) (old new : Nat) : Pend :=
  { p with dests := p.dests.map (fun ps => ps ++ (ps.filter (fun q => q.1 == old)).map (fun q => (new, q.2))) }

/-- Makes `new` a copy of row `old` with count 1. -/
def Core.copyRow (c : Core) (old new : Nat) : Core :=
  { c with rows := AMap.put c.rows new { (c.row old) with count := 1 }, copies := c.copies + 1,
           pend := AMap.mapVals c.pend (fun p => p.follow old new) }

/-- Returns rows to the pool whose count is 0 and that no result in flight targets (R290). -/
def Core.collect (c : Core) : Core :=
  { c with rows := c.rows.filter (fun p => !(p.2.count == 0) || c.targeted p.1) }

/-- Lowers a row's count by one. -/
def Core.lower (c : Core) (r : Nat) : Core :=
  { c with rows := AMap.upd c.rows r (fun x => { x with count := x.count - 1 }) }

/-- Lowers the count of every row of a map and returns what is free (R290). -/
def Core.lowerAll (c : Core) (m : List Nat) : Core := (m.foldl Core.lower c).collect

/-- Adds a holder to a row, or makes the new holder a copy where the count would pass 63 (R288); a row of another slice
is copied into `slice` when one is named (R297). Answers the row the new holder points to. -/
def Core.share (c : Core) (r : Nat) (slice : Option Nat) : Option (Core × Nat) :=
  let home := match slice with | some s => s == sliceOf r | none => true
  if home && decide ((c.row r).count < 63) then
    some ({ c with rows := AMap.upd c.rows r (fun x => { x with count := x.count + 1 }) }, r)
  else
    let s := match slice with | some s => s | none => sliceOf r
    match c.freeRow s with
    | some n => some (c.copyRow r n, n)
    | none => none

/-- Shares every row of a map. -/
def Core.shareAll (c : Core) (slice : Option Nat) : List Nat → Option (Core × List Nat)
  | [] => some (c, [])
  | r :: t =>
    match c.share r slice with
    | none => none
    | some (c1, n) =>
      match Core.shareAll c1 slice t with
      | none => none
      | some (c2, ns) => some (c2, n :: ns)

/-- The trap of a helper that needs a fifth row (R305). -/
def helperTrap (lane : Nat) : TrapInfo := ⟨.illegalInHelper, lane, 0#32, none⟩

/-- The slice that holds a thread's lane (R93). -/
def Core.sliceTh (c : Core) (t : Thread) : Nat :=
  t.lane / 4 + (match c.warps.find? (fun w => w.id == t.warp) with | some w => w.slice0 | none => 0)

/-- Makes the row at map position `i` of a thread its own before a write (R287, R289, R305). -/
def Core.own (c : Core) (u i : Nat) : Res Core :=
  let t := c.th u
  let r := getAt t.map i 0
  if (c.row r).count ≤ 1 then .ok c
  else
    match t.helper with
    | some h =>
      match h.reserved with
      | [] => .trap (helperTrap t.lane)
      | n :: rest =>
        .ok (((c.copyRow r n).lower r).setTh u
          { t with map := setAt t.map i n, helper := some { h with fresh := h.fresh + 1, reserved := rest } })
    | none =>
      match c.freeRow (c.sliceTh t) with
      | none => .wait true
      | some n => .ok (((c.copyRow r n).lower r).setTh u { t with map := setAt t.map i n })

/-! ## Register places -/

/-- Map position and word of a register specifier that names a register of the row store (R45). -/
def placeOf (r : Reg) : Option (Nat × Nat) :=
  let n := r.toNat
  if n < 96 then some (1 + n / 8, n % 8)
  else if n < 104 then some (0, n - 96)
  else none

/-- The value a place holds. -/
def Core.readPlace (c : Core) (t : Thread) (p : Nat × Nat) : Word := c.rowWord (getAt t.map p.1 0) p.2

/-! ## Results that may not be visible yet (R36, R37, R424) -/

/-- Whether a read at a time of the thread's own is not well-spaced from a producer. -/
def Early.open (e : Early) (vt : Nat) : Bool := e.await || decide (vt < e.visAt)

/-- The value a read returns while producers are not certainly visible: each such producer's result, or what stood
before it. -/
def pickEarly (draw u vt : Nat) : List Early → Nat → DWord → DWord
  | [], _, v => v
  | e :: es, code, v =>
    if e.code = code ∧ e.open vt = true then
      (if Config.freeBool draw u (code + 1024 * es.length) then v else pickEarly draw u vt es code e.old)
    else pickEarly draw u vt es code v

/-- The value that another thread's cross-lane word reads in a cycle: what has landed, and of each result on its way the old
value or the new one, the old one if it was issued in this very cycle (R169). All readers of one word agree (log 104). -/
def pickFlying (draw u now : Nat) : List Early → Nat → DWord → DWord
  | [], _, v => v
  | e :: es, code, v =>
    if e.code = code ∧ now < e.landAt then
      (if e.issued < now ∧ Config.freeBool draw u (code + 1024 * es.length) = true then v else pickFlying draw u now es code e.old)
    else pickFlying draw u now es code v

/-- Whether a note is of a result of a register that lands after a cycle; a later write lands after a result of R424. -/
def Early.outlasts (e : Early) (code landAt : Nat) : Bool := e.code == code && !e.slow && decide (landAt < e.landAt)

/-- Once a later-landing result of a register is visible, no earlier one can be missed (R36). -/
def capNotes (n : Early) (es : List Early) : List Early :=
  es.map (fun e => if e.code = n.code ∧ e.await = false ∧ n.await = false then { e with visAt := min e.visAt n.visAt } else e)

/-- Notes a result that lands before others on their way: it stands before the first of them (R37). -/
def slipUnder (code landAt : Nat) (new : DWord) (n : Early) : List Early → List Early
  | [] => [n]
  | e :: es =>
    if e.outlasts code landAt && !(es.any (fun x => x.outlasts code landAt)) then { e with old := new } :: { n with old := e.old } :: capNotes n es
    else e :: slipUnder code landAt new n es

/-- Notes a result `new` of a register as `n` says; `n.old` is the value that stood there. Answers the notes and whether the
register holds `new` once all have landed: the result that lands later stays, the later-issued on a tie (R37). -/
def noteWrite (n : Early) (new : DWord) (es : List Early) : List Early × Bool :=
  if es.any (fun e => e.outlasts n.code n.landAt) then (slipUnder n.code n.landAt new n es, false) else (n :: capNotes n es, true)

/-- The note of a result of a short-latency word that issues in the cycle `now` at the thread's time `vt`. -/
def shortNote (code : Nat) (old : DWord) (vt now delay : Nat) : Early := ⟨code, old, vt + delay, now, now + delay, false, false⟩

/-- The note of a result of a word of R424 that completes in the cycle `done`: its spacing counts from the group that the thread
issues next. -/
def slowNote (code : Nat) (old : DWord) (vt now done : Nat) : Early := ⟨code, old, vt + 4, now, done + 4, true, true⟩

/-- The notes as a group begins at a time of the thread's own: what is certainly visible is forgotten, and the group is the
reference group of what waits for one (R36, R424). -/
def beginNotes (vt : Nat) (es : List Early) : List Early :=
  (es.filter (fun e => e.open vt)).map (fun e => if e.await then { e with visAt := vt + 4, await := false } else e)

/-- A short-latency result on its way to a word of a row. -/
def Core.flyTo (c : Core) (r w landAt : Nat) : Core :=
  { c with rows := AMap.upd c.rows r (fun x => { x with fly := (w, c.clock, landAt) :: x.fly.filter (fun f => decide (c.clock < f.2.2)) }) }

/-- Writes a result into a register as a note says, in a row that the thread holds alone (R36, R37). -/
def Core.note (c : Core) (u : Nat) (p : Nat × Nat) (v : Word) (n : Early) : Core :=
  let t := c.th u
  let r := getAt t.map p.1 0
  let w := noteWrite n (v.setWidth 64) t.early
  ((if w.2 then c.setRowWord r p.2 v else c).flyTo r p.2 n.landAt).setTh u { t with early := w.1 }

/-- Writes a short-latency result into a register. -/
def Core.writeAt (c : Core) (u : Nat) (r : Reg) (v : Word) (delay : Nat) : Res Core :=
  match placeOf r with
  | none => .ok c
  | some p =>
    (c.own u p.1).map (fun c =>
      let t := c.th u
      c.note u p v (shortNote r.toNat ((c.readPlace t p).setWidth 64) t.vt c.clock delay))

/-- Writes consecutive registers. -/
def Core.writeBlock (c : Core) (u : Nat) (r : Reg) (delay : Nat) : List Word → Res Core
  | [] => .ok c
  | v :: vs => (c.writeAt u r v delay).bind (fun c => Core.writeBlock c u (r + 1#7) delay vs)

/-- The result of a word of R424 that completes in the cycle `done`, in the row version that stands. -/
def Core.writeDone (c : Core) (u : Nat) (r : Reg) (v : Word) (done : Nat) : Core :=
  match placeOf r with
  | none => c
  | some p =>
    let t := c.th u
    c.note u p v (slowNote r.toNat ((c.readPlace t p).setWidth 64) t.vt c.clock done)

/-- Such a result of a word that completes now. -/
def Core.writeNow (c : Core) (u : Nat) (r : Reg) (v : Word) : Core := c.writeDone u r v c.clock

/-- Such results in consecutive registers. -/
def Core.writeDoneAll (c : Core) (u : Nat) (r : Reg) (done : Nat) : List Word → Core
  | [] => c
  | v :: vs => Core.writeDoneAll (c.writeDone u r v done) u (r + 1#7) done vs

/-- The result of a word of R424, its row made the thread's own first. -/
def Core.writeSlow (c : Core) (u : Nat) (r : Reg) (v : Word) (done : Nat) : Res Core :=
  match placeOf r with
  | none => .ok c
  | some p => (c.own u p.1).map (fun c => c.writeDone u r v done)

/-- Such results in consecutive registers. -/
def Core.writeSlowBlock (c : Core) (u : Nat) (r : Reg) (done : Nat) : List Word → Res Core
  | [] => .ok c
  | v :: vs => (c.writeSlow u r v done).bind (fun c => Core.writeSlowBlock c u (r + 1#7) done vs)

/-- Makes the rows of `n` consecutive registers a thread's own before the word that writes them acts (R287). -/
def Core.ownRegs (c : Core) (u : Nat) (r : Reg) : Nat → Res Core
  | 0 => .ok c
  | n + 1 =>
    match placeOf r with
    | none => Core.ownRegs c u (r + 1#7) n
    | some p => (c.own u p.1).bind (fun c => Core.ownRegs c u (r + 1#7) n)

/-- The same in each thread of a list. -/
def Core.ownAll (c : Core) (us : List Nat) (r : Reg) (n : Nat) : Res Core := forEach (fun u c => c.ownRegs u r n) us c

/-- A word of R294 that takes `n` cycles and two for each row it copies: its threads do not issue until it completes. -/
def Core.timed (c : Core) (us : List Nat) (n : Nat) (f : Nat → Res Core) : Res Core :=
  (f (c.clock + n)).bind (fun c1 =>
    let done := c.clock + n + 2 * (c1.copies - c.copies)
    (f done).map (fun c2 => c2.updAll us (fun t => { t with busy := done })))

/-! ## Long-latency results -/

/-- The places a long-latency result of `n` registers from `r` lands in, its rows made the thread's own at issue. -/
def Core.claimPlaces (c : Core) (u : Nat) (r : Reg) : Nat → Res (Core × List (List (Nat × Nat)))
  | 0 => .ok (c, [])
  | n + 1 =>
    match placeOf r with
    | none => (Core.claimPlaces c u (r + 1#7) n).map (fun x => (x.1, [] :: x.2))
    | some p =>
      (c.own u p.1).bind (fun c1 =>
        (Core.claimPlaces c1 u (r + 1#7) n).map (fun x => (x.1, [(getAt (c1.th u).map p.1 0, p.2)] :: x.2)))

/-- Adds a pending result, issued in this cycle. -/
def Core.addPend (c : Core) (p : Pend) : Core × Nat :=
  ({ c with pend := c.pend ++ [(c.nextPend, { p with issued := c.clock })], nextPend := c.nextPend + 1 }, c.nextPend)

/-- The oldest note of a register says that a value stood before it. -/
def settleOld (code : Nat) (v : DWord) : List Early → List Early
  | [] => []
  | e :: es => if e.code = code ∧ !(es.any (fun x => x.code == code)) then { e with old := v } :: es else e :: settleOld code v es

/-- A long-latency result lands in a cycle among short-latency results of its register: those landed are past, and it stands
before those still on their way; on a tie the later-issued stays (R37). -/
def meetLong (code now issued : Nat) (v : DWord) (es : List Early) : List Early :=
  settleOld code v (es.filter (fun e => !(e.code == code) || decide (now < e.landAt) || (now == e.landAt && decide (issued < e.issued))))

/-- Whether a short-latency result on its way to a word of a row lands after a long-latency one that lands now. -/
def Core.flying (c : Core) (r w issued : Nat) : Bool :=
  (c.row r).fly.any (fun f => f.1 == w && (decide (c.clock < f.2.2) || (c.clock == f.2.2 && decide (issued < f.2.1))))

/-- Lands one result word in each of its places, in every holder by R37 (R291). -/
def Core.landWord (c : Core) (code issued : Nat) (v : Word) : List (Nat × Nat) → Core
  | [] => c
  | q :: qs =>
    let met (t : Thread) : Thread :=
      if t.map.contains q.1 && t.early.any (fun e => e.code == code) then
        { t with early := meetLong code c.clock issued (v.setWidth 64) t.early } else t
    let c1 := { c with threads := AMap.mapVals c.threads met }
    Core.landWord (if c.flying q.1 q.2 issued then c1 else c1.setRowWord q.1 q.2 v) code issued v qs

/-- Lands the result words of a pending result. -/
def Core.landAll (c : Core) (issued : Nat) : Nat → List (List (Nat × Nat)) → List Word → Core
  | code, ps :: pss, v :: vs => Core.landAll (c.landWord code issued v ps) issued (code + 1) pss vs
  | _, _, _ => c

/-- Lowers a flag of whoever counts it (R42, R292). -/
def Core.dropFlag (c : Core) (f : Nat) : Holder → Core
  | .thread u => c.updTh u (fun t => { t with flags := setAt t.flags f (getAt t.flags f 0 - 1) })
  | .entry e => { c with damask := AMap.upd c.damask e (fun x => { x with flags := setAt x.flags f (getAt x.flags f 0 - 1) }) }
  | .frontEnd => { c with fe := c.fe.map (fun x => { x with flags := setAt x.flags f (getAt x.flags f 0 - 1) }) }

/-- The number under which the front-end thread's own results and flags are pending. MODEL. -/
def feUid : Nat := 2 ^ 25

/-- The number of no thread. MODEL. -/
def noUid : Nat := 2 ^ 26

/-- A long-latency result lands in a k register in a cycle (R37, R41, R46). -/
def FrontEnd.land (f : FrontEnd) (now issued r : Nat) (vals : List Word) : FrontEnd :=
  match vals with
  | [] => f
  | v :: _ =>
    if r < 64 then
      let stays := f.early.any (fun e => e.code == r && (decide (now < e.landAt) || (now == e.landAt && decide (issued < e.issued))))
      { f with k := if stays then f.k else setAt f.k r (v.setWidth 64), early := meetLong r now issued (v.setWidth 64) f.early }
    else f

/-- Completes a pending result: lands its words, lowers its flag everywhere it is counted, forgets it (R42, R291). -/
def Core.complete (c : Core) (id : Nat) (vals : List Word) : Core :=
  match AMap.look c.pend id with
  | none => c
  | some p =>
    let c1 := if p.uid = feUid then { c with fe := c.fe.map (fun f => f.land c.clock p.issued p.dst vals) } else c.landAll p.issued p.dst p.dests vals
    let c2 := match p.flag with
      | none => c1
      | some f => p.holders.foldl (fun c h => c.dropFlag f h) c1
    { c2 with pend := AMap.del c2.pend id }.collect

end Sys2Proof.Machine
end

