-- ==== Sys2Proof/Machine/Ops.lean ====
section
/-! DEFINITION. Named operations over the state: access to its parts, groups, ending a thread, ending a launch, taking a
trap (R358, R362) and the return from one (R379). -/

namespace Sys2Proof.Machine

open Sys2Proof

/-! ## Parts of the state -/

def State.core (s : State) (i : Nat) : Core := AMap.lookD s.cores i Core.reset
def State.setCore (s : State) (i : Nat) (c : Core) : State := { s with cores := AMap.put s.cores i c }
def State.cluster (s : State) (i : Nat) : Cluster := AMap.lookD s.clusters i Cluster.reset
def State.setCluster (s : State) (i : Nat) (c : Cluster) : State := { s with clusters := AMap.put s.clusters i c }
def State.vf (s : State) (i : Nat) : VF := AMap.lookD s.vfs i VF.reset
def State.setVf (s : State) (i : Nat) (v : VF) : State := { s with vfs := AMap.put s.vfs i v }
def State.die (s : State) (i : Nat) : Die := AMap.lookD s.dies i Die.reset
def State.setDie (s : State) (i : Nat) (d : Die) : State := { s with dies := AMap.put s.dies i d }
def State.quantum (s : State) (i : Nat) : Quantum := AMap.lookD s.quanta i Quantum.reset
def State.setQuantum (s : State) (i : Nat) (q : Quantum) : State := { s with quanta := AMap.put s.quanta i q }
def State.setPart (s : State) (i : Nat) (p : Part) : State := { s with parts := AMap.put s.parts i p }
def State.launch (s : State) (i : Nat) : Option Launch := AMap.look s.launches i
def State.setLaunch (s : State) (i : Nat) (l : Launch) : State := { s with launches := AMap.put s.launches i l }

/-- Changes one core. -/
def State.onCore (s : State) (i : Nat) (f : Core → Core) : State := s.setCore i (f (s.core i))

/-- The cluster and the die of a core (R10). -/
def clusterOf (core : Nat) : Nat := core / 4
def dieOf (core : Nat) : Nat := core / 128

/-- The VF whose launch runs on a core; 0 where none runs. -/
def State.vfOf (s : State) (core : Nat) : Nat :=
  match (s.core core).launch with
  | some l => (match s.launch l with | some x => x.vf | none => 0)
  | none => 0

/-- Whether a soft pre-emption request is pending for the context of a core's launch (R82, R365). -/
def State.soft (s : State) (core : Nat) : Bool :=
  match (s.core core).launch with
  | some _ => (s.vf (s.vfOf core)).ctx == 2
  | none => false

/-- The header field a core's launch holds; a default where none runs. -/
def State.header (s : State) (core : Nat) : Option Header :=
  match (s.core core).launch with
  | some l => (s.launch l).map (fun x => x.hdr)
  | none => none

/-- Warp width of a core's launch (R19). -/
def State.width (s : State) (core : Nat) : Nat := match s.header core with | some h => h.width | none => 16

/-- Launch default deadline of a core's launch (R68). -/
def State.deadline (s : State) (core : Nat) : Nat := match s.header core with | some h => h.deadline | none => 255

/-- The partition of a VF (R101, R386). -/
def State.partOfVf (s : State) (v : Nat) : Option Nat :=
  (s.parts.find? (fun p => p.2.vfmask.getLsbD v)).map (fun p => p.1)

/-- FUNCMODE bit `b` of the partition of a VF (R391). -/
def State.funcBit (s : State) (v b : Nat) : Bool :=
  match s.partOfVf v with
  | some p => (match AMap.look s.parts p with | some x => x.funcmode.getLsbD b | none => false)
  | none => false

/-- Whether a VF is the system VF of its partition (R353). -/
def State.isSys (s : State) (v : Nat) : Bool :=
  s.parts.any (fun p => p.2.vfmask.getLsbD v && p.2.sysvf == v)

/-- The counts of a counter in the last 64 cycles (R381). -/
def VF.recent (x : VF) (now i : Nat) : List (Nat × Nat) := (AMap.lookD x.perfnew i []).filter (fun e => decide (now < e.1 + 64))

/-- Counter `i` of a VF counts `n` events. -/
def VF.tick (x : VF) (now n i : Nat) : VF :=
  { x with perfcnt := AMap.put x.perfcnt i (AMap.lookD x.perfcnt i 0#64 + BitVec.ofNat 64 n),
           perfnew := AMap.put x.perfnew i ((now, n) :: x.recent now i) }

/-- Adds to a VF's counters that select an event (R375, R376). -/
def State.count (s : State) (v code n : Nat) : State :=
  let x := s.vf v
  let sel (i : Nat) : Bool := let w := AMap.lookD x.perfsel i 0#32
    w.getLsbD 31 && (w.toNat % 256 == code)
  if !(n == 0) && (List.range 8).any sel then s.setVf v (((List.range 8).filter sel).foldl (VF.tick · s.now n) x) else s

/-- Sends a message out. -/
def State.send (s : State) (m : Message) : State := { s with out := s.out ++ [m] }

/-! ## Requests that a release or an acquire waits for (R186, R209) -/

/-- A store or atomic that has not been registered or performed. -/
def Req.unregistered (r : Req) : Bool :=
  match r.kind with
  | .store => !(r.stage == .done)
  | .atomic .. => !(r.stage == .done)
  | _ => false

/-- A load, or an atomic that returns, whose destination is not written. -/
def Req.unread (r : Req) : Bool :=
  match r.kind with
  | .load _ => true
  | .atomic _ _ ret _ => ret
  | _ => false

/-- Whether a thread issued a request. -/
def Req.ofThread (r : Req) (u : Nat) : Bool := r.lanes.any (fun l => l.uid == u)

/-- Whether a thread's earlier stores are registered. -/
def Core.storesDone (c : Core) (u : Nat) : Bool := !(c.reqs.any (fun r => r.ofThread u && r.unregistered))

/-- Whether a thread's earlier loads are complete. -/
def Core.loadsDone (c : Core) (u : Nat) : Bool := !(c.reqs.any (fun r => r.ofThread u && r.unread))

/-- The release condition of REL (R209). -/
def Core.released (c : Core) (u : Nat) : Bool := c.storesDone u && c.loadsDone u

/-- The requests that a release of a thread must follow. -/
def Core.pendingOf (c : Core) (u : Nat) : List Nat :=
  (c.reqs.filter (fun r => r.ofThread u && (r.unregistered || r.unread))).map (fun r => r.id)

/-- The stores that NFIRE, TINV or a latch load of a thread must follow (R236, R268). -/
def Core.storesOf (c : Core) (u : Nat) : List Nat :=
  (c.reqs.filter (fun r => r.ofThread u && r.unregistered)).map (fun r => r.id)

/-- Whether one of the named requests is still to be registered or read. -/
def Core.awaits (c : Core) (ids : List Nat) : Bool :=
  c.reqs.any (fun r => ids.contains r.id && (r.unregistered || r.unread))

/-- The acquire invalidation: every L1 word that the core does not own becomes invalid (R185, R209). -/
def Core.acquire (c : Core) : Core :=
  { c with l1 := c.l1.map (fun l => { l with valid := l.valid &&& l.owned }), epoch := c.epoch + 1 }

/-- Whether a BUFSET is less than 4 cycles old, so that no queue entry may be posted yet (R193). -/
def Core.bufFresh (c : Core) : Bool := c.bufOld.any (fun e => decide (c.clock < e.2.2 + 4))

/-! ## Groups (R104 to R107) -/

/-- Whether the current phase of a group completes (R106). -/
def Core.phaseDone (c : Core) (g : Group) : Bool :=
  !(g.members.isEmpty) && g.members.all (fun m => m.2 == some g.phase) &&
    !(g.late.any (fun l => c.awaits l.2))

/-- Wakes a thread that waits in GBAR for a phase: it goes on after the word. -/
def Thread.wakeGbar (n : Nat) (phase : Word) (t : Thread) : Thread :=
  match t.hold with
  | .gbar g p next _ => if g = n ∧ p = phase then { t with hold := .run, pc := next } else t
  | _ => t

/-- Wakes the members that wait in GBAR for a phase; each observes the completion and acquires (R106, R111). -/
def Core.wakeGroup (c : Core) (n : Nat) (phase : Word) : Core :=
  let waits (t : Thread) : Bool := match t.hold with | .gbar g p _ _ => g == n && p == phase | _ => false
  if c.threads.any (fun p => waits p.2) then { c with threads := AMap.mapVals c.threads (Thread.wakeGbar n phase) }.acquire
  else c

/-- Completes every group phase that is complete. -/
def Core.checkGroups (c : Core) : Core :=
  (c.groups.filter (fun p => c.phaseDone p.2)).foldl
    (fun c p => { c with groups := AMap.put c.groups p.1 { p.2 with phase := p.2.phase + 1#32, late := [] } }.wakeGroup p.1 p.2.phase) c

/-- Takes a thread out of one group; an empty group is dissolved, and the token goes with it (R73, R105, R110). -/
def Core.leaveGroup (c : Core) (u n : Nat) : Core :=
  match AMap.look c.groups n with
  | none => c
  | some g =>
    if AMap.has g.members u then
      let m := AMap.del g.members u
      if m.isEmpty then
        { c with groups := AMap.del c.groups n, token := if c.token == some n then none else c.token }
      else { c with groups := AMap.put c.groups n { g with members := m, late := g.late.filter (fun l => !(l.1 == u)) } }
    else c

/-- Takes a thread out of every group (R105). -/
def Core.leaveAll (c : Core) (u : Nat) : Core := (AMap.keys c.groups).foldl (fun c n => c.leaveGroup u n) c

/-! ## The Damask table -/

/-- An entry of the table; one that no map lists is free with GEN 1 (R285). -/
def Core.entry (c : Core) (e : Nat) : Entry := AMap.lookD c.damask e Entry.reset

/-- The lowest free entry. -/
def Core.freeEntry (c : Core) : Option Nat := lowest (fun e => (c.entry e).state == 0) 4096 0

/-- GEN after a freeing: 1 after 255 (R285). -/
def nextGen (g : BitVec 8) : BitVec 8 := if g = 255#8 then 1#8 else g + 1#8

/-- Frees an entry: its rows lose a holder, its captured flags are forgotten, GEN advances (R285, R300). -/
def Core.dropEntry (c : Core) (e : Nat) : Core :=
  let x := c.entry e
  if x.state = 0 then c
  else
    let pend := AMap.mapVals c.pend (fun p => { p with holders := p.holders.filter (fun h => !(h == Holder.entry e)) })
    let damask := AMap.put c.damask e { Entry.reset with gen := nextGen x.gen }
    ({ c with damask := damask, pend := pend }).lowerAll x.map

/-- The handle that names an entry (R284). -/
def Core.handle (c : Core) (e : Nat) : Word := (c.entry e).gen ++ (0#3 ++ (c.bind ++ BitVec.ofNat 12 e))

/-- Everyone who counts an operation of a thread counts it for a new holder too (R292). -/
def Core.capture (c : Core) (u : Nat) (h : Holder) : Core :=
  { c with pend := AMap.mapVals c.pend (fun p => if p.holders.contains (Holder.thread u) then { p with holders := p.holders ++ [h] } else p) }

/-- Freezes a thread into the lowest free entry as SNAP does, with the PC given, and writes no register; none where no
entry is free or a row of R288 is lacking (R296, R358). -/
def Core.freeze (c : Core) (u : Nat) (state : Nat) (resume : Reg) (pc : Word) (trapEntry : Bool) : Option (Core × Nat) :=
  match c.freeEntry with
  | none => none
  | some e =>
    let t := c.th u
    match Core.shareAll c none t.map with
    | none => none
    | some (c1, m) =>
      let x : Entry :=
        { (c.entry e) with
          state := state, map := m, resume := resume, pc := pc, pred := t.pred, flags := t.flags, setA := t.setA,
          setB := t.setB, fstat := t.fstat, genG := t.gen, yc := t.yc, dl := t.dl, maker := t.tid, role := t.role,
          trapEntry := trapEntry }
      some (({ c1 with damask := AMap.put c1.damask e x }).capture u (.entry e), e)

/-- A thread takes over the state an entry holds: rows shared, predicates, flags, FSEL, status and counters (R297); rows
of another slice are copied into the thread's own. -/
def Core.thaw (c : Core) (u e : Nat) : Option Core :=
  let x := c.entry e
  let t := c.th u
  match Core.shareAll (c.lowerAll t.map) (some (c.sliceTh t)) x.map with
  | none => none
  | some (c1, m) =>
    let pend := AMap.mapVals c1.pend (fun p =>
      let hs := p.holders.filter (fun h => !(h == Holder.thread u))
      if hs.contains (Holder.entry e) then { p with holders := hs ++ [Holder.thread u] } else { p with holders := hs })
    let c2 := { c1 with pend := pend }
    some ((c2.setTh u
      { t with map := m, pred := x.pred, flags := x.flags, setA := x.setA, setB := x.setB, fstat := x.fstat,
               gen := x.genG, yc := x.yc, dl := x.dl, y0 := [], y1 := [], y2 := [], y3 := [], early := [], wait := 0#12 }))

/-! ## Ending threads -/

/-- Whether every lane of a warp in a core has ended. -/
def Core.warpEnded (c : Core) (w : Nat) : Bool := !(c.threads.any (fun p => p.2.warp == w && p.2.helper.isNone))

/-- The number under which work of an ended thread goes on, so that no later thread of its lane is taken for it. -/
def deadUid (u : Nat) : Nat := 2 ^ 24 + u

/-- Work in flight of a thread that ends: nobody waits for it as that thread any more. -/
def Core.orphan (c : Core) (u : Nat) : Core :=
  let pend := AMap.mapVals c.pend (fun p =>
    { p with uid := if p.uid == u then deadUid u else p.uid, holders := p.holders.filter (fun h => !(h == Holder.thread u)) })
  let reqs := c.reqs.map (fun r => { r with lanes := r.lanes.map (fun l => { l with uid := if l.uid == u then deadUid u else l.uid }) })
  { c with pend := pend, reqs := reqs }

/-- Ends a thread: its rows, its context, its place in groups and in what it counts (R83, R105). -/
def Core.endThread (c : Core) (u : Nat) : Core :=
  let t := c.th u
  let c0 := c.orphan u
  let c1 := { c0 with threads := AMap.del c0.threads u }
  let c2 := ((c1.lowerAll t.map).leaveAll u).checkGroups
  if c2.warpEnded t.warp then
    let prune (qs : List QEntry) : List QEntry :=
      (qs.map (fun q => { q with left := q.left.filter (fun w => !(w == t.warp)) })).filter (fun q => !(q.left.isEmpty))
    { c2 with dq := prune c2.dq, wq := AMap.mapVals c2.wq prune }
  else c2

/-- Whether a claim on an accumulator still has words of its holder to apply (R246). -/
def State.accBusy (s : State) (core warp acc : Nat) : Bool :=
  ((s.core core).mwords.any (fun m => m.warp == warp &&
    (match m.op with
     | .mma a .. => a == acc
     | .mzero _ a => a == acc
     | .mst a .. => a == acc
     | _ => false))) ||
  [(s.cluster (clusterOf core)).pass, (s.cluster (clusterOf core)).ending].any (fun x => match x with
    | some p => p.core == core && p.word.warp == warp && p.acc == acc
    | none => false)

/-- A FREEING index becomes FREE once all that its holder posted on it has applied (R246). -/
def State.settleClaims (s : State) (cl : Nat) : State :=
  let c := s.cluster cl
  let claims := c.claims.map (fun p => if p.2.state == 2 && !(s.accBusy p.2.core p.2.warp p.1) then (p.1, Claim.reset) else p)
  s.setCluster cl { c with claims := claims }

/-- Frees the indices of warps whose last thread has ended, as MFREE does (R246). -/
def State.freeClaims (s : State) (core : Nat) : State :=
  let cl := clusterOf core
  let c := s.cluster cl
  if c.claims.any (fun p => p.2.state == 1 && p.2.core == core && (s.core core).warpEnded p.2.warp) then
    let claims := c.claims.map (fun p =>
      if p.2.state == 1 && p.2.core == core && (s.core core).warpEnded p.2.warp then (p.1, { p.2 with state := 2 }) else p)
    (s.setCluster cl { c with claims := claims }).settleClaims cl
  else s

/-! ## Helpers (R302 to R310) -/

/-- A parked thread goes on after its OFFER with vD := `v` (R302); its parked cycles have been counted one by one. -/
def Core.unpark (c : Core) (u : Nat) (v : Word) : Core :=
  match (c.th u).hold with
  | .parked _ dst => (c.updTh u (fun t => { t with hold := .run })).writeNow u dst v
  | _ => c

/-- The context of a helper that dies stays in use until its results in flight have landed (R309). -/
def Core.haunt (c : Core) (u : Nat) : Core :=
  let t := c.th u
  let ids := (c.pend.filter (fun p => p.2.uid == u)).map (fun p => p.1)
  if ids.isEmpty then c else { c with ghosts := (c.sliceTh t, t.lane, ids) :: c.ghosts }

/-- The helpers of a thread's team that have not ended. -/
def Core.teamLive (c : Core) (u : Nat) : List Nat :=
  AMap.keys (c.threads.filter (fun p => match p.2.helper with | some h => h.recruiter == u | none => false))

/-- How a helper ended is kept with its team (R307, R309). -/
def Core.noteEnd (c : Core) (recruiter index : Nat) (how : HelperEnd) : Core :=
  c.updTh recruiter (fun t => { t with team := t.team.map (fun x => { x with ends := AMap.put x.ends index how }) })

/-- Whether every helper of a thread's team has ended. -/
def Core.teamDone (c : Core) (u : Nat) : Bool :=
  match (c.th u).team with
  | none => true
  | some x => decide (x.n ≤ x.ends.length)

/-- Once the team's last helper has ended its entry is freed (R307). -/
def Core.settleTeam (c : Core) (u : Nat) : Core :=
  match (c.th u).team with
  | none => c
  | some x => if c.teamDone u then c.dropEntry x.entry else c

/-- Whether a helper ends by HEND. -/
def HelperEnd.byHend : HelperEnd → Bool
  | .value _ => true
  | .trap .. => false
  | .killed => false

/-- Ends a helper in the way given: its rows and context return and a thread parked in its lane goes on (R302, R307, R309,
R310). -/
def Core.endHelper (c : Core) (u : Nat) (how : HelperEnd) : Core :=
  let t := c.th u
  match t.helper with
  | none => c
  | some h =>
    let c1 := (if how.byHend then c else c.haunt u).noteEnd h.recruiter h.index how
    let c2 := { c1 with rows := c1.rows.filter (fun p => !(h.reserved.contains p.1)) }
    ((c2.endThread u).settleTeam h.recruiter).unpark (uidOf t.warp t.lane) 1#32

/-- Closes a thread's team (R308). -/
def Core.closeTeam (c : Core) (u : Nat) : Core := c.updTh u (fun t => { t with team := none })

/-! ## Traps -/

/-- The cause numbers of R356. -/
def Cause.code : Cause → Nat
  | .illegalInstruction => 1
  | .illegalPacket => 2
  | .illegalOperand => 3
  | .unitAbsent => 4
  | .illegalConvergence => 5
  | .illegalInHelper => 6
  | .staleHandle => 7
  | .foreignHandle => 8
  | .bounds => 9
  | .misaligned => 10
  | .peerAbsent => 11
  | .kvPoison => 12
  | .xqSequence => 13
  | .grammarStack => 14
  | .userTrap => 15
  | .watchdog => 16
  | .killed => 17

/-- The order of precedence of R56. -/
def Cause.rank : Cause → Nat
  | .illegalPacket => 1
  | .illegalInstruction => 2
  | .unitAbsent => 3
  | .illegalOperand => 4
  | _ => 5

/-- TRAPREC0 (R359), with the LASTTRAP0 bits NEST, NOVEC and VALID of R363. -/
def packRec0 (cause lane glen sib slot : Nat) (helper fe nest novec valid : Bool) : Word :=
  let b (x : Bool) (i : Nat) : Nat := if x then 2 ^ i else 0
  BitVec.ofNat 32 (cause + b valid 13 + b novec 14 + b nest 15 + b fe 16 + slot * 2 ^ 17 + b helper 19 + sib * 2 ^ 20 +
    glen * 2 ^ 24 + lane * 2 ^ 26)

/-- The slot of a code position (R32). -/
def slotOf (pc : Word) : Nat := (pc.toNat / 4) % 3

/-- The byte offset of a slot of the packet that holds a PC. -/
def slotPc (pc : Word) (slot : Nat) : Word := BitVec.ofNat 32 (12 * (pc.toNat / 12) + 4 * slot)

/-- Ends a launch with a record for its VF: issue stops, and TEARDOWN_COMPLETE follows (R362, R363). A launch already being
torn down keeps its record. -/
def State.endLaunch (s : State) (l : Nat) (r : TrapRec) : State :=
  match s.launch l with
  | none => s
  | some x =>
    if x.tearing then s
    else
      let v := s.vf x.vf
      (s.setVf x.vf { v with lasttrap := r }).setLaunch l { x with tearing := true }

/-- Whether a core's launch is being torn down (R362). -/
def State.tearing (s : State) (core : Nat) : Bool :=
  match (s.core core).launch with
  | some l => (match s.launch l with | some x => x.tearing | none => false)
  | none => false

/-- The value with which a system register stands for a word of a thread of a core: what a SYSWR wrote less than 4 cycles ago
stands only for its own thread (R380); for another the old value or the new one is read. -/
def pickSys (draw : Nat) (late : SysOld → Bool) : List SysOld → DWord → DWord
  | [], v => v
  | e :: es, v => pickSys draw late es (if late e && !(Config.freeBool draw (9000 + es.length) e.reg) then e.old else v)

/-- Whether a write was one of the register that a word of a core reads: a core's own, a cluster's, a partition's or a VF's. -/
def State.sameSys (s : State) (core reg : Nat) (e : SysOld) : Bool :=
  e.reg == reg &&
    (if reg ≤ 3 then e.core == core
     else if reg = 0x0F then clusterOf e.core == clusterOf core
     else if reg = 0x0E ∨ reg = 0x22 ∨ reg = 0x23 then s.partOfVf e.vf == s.partOfVf (s.vfOf core)
     else e.vf == s.vfOf core)

/-- A system register as a word of a thread of a core meets it. -/
def State.sysNow (s : State) (core uid reg : Nat) (v : DWord) : DWord :=
  pickSys s.cur.draw (fun e => s.sameSys core reg e && decide (s.now < e.cycle + 4) && !(e.core == core && e.uid == uid)) s.sysOld v

/-- Whether a forced halt has stopped a core's context: its unapplied engine, matrix and pool work waits to be saved (R239, R255,
R323). -/
def State.stopped (s : State) (core : Nat) : Bool := (s.vf (s.vfOf core)).rung == 2

/-- TRAPBASE fields (R360). -/
def trapLen (b : DWord) : Nat := 64 * (b.toNat / 2 ^ 53)
def trapVa (b : DWord) : Nat := (b.toNat % 2 ^ 52) / 64 * 64
def trapEn (b : DWord) : Bool := b.getLsbD 0 && !(trapLen b == 0)

/-- Sends one thread of a trapped run into the handler segment (R358); none where no entry is free. `no` numbers the trap. -/
def Core.vector (c : Core) (no u : Nat) (base : DWord) (gpc pc : Word) (glen : Nat) (t : TrapInfo) : Option Core :=
  match c.freeze u 1 108#7 gpc true with
  | none => none
  | some (c1, e) =>
    let rec0 := packRec0 t.cause.code t.lane glen (match t.helper with | some i => i | none => 0) (slotOf pc) t.helper.isSome false false false false
    some (c1.updTh u (fun x =>
      { x with trapRec := ⟨rec0, pc, t.info, c1.handle e⟩, pl := true, intrap := true, trapEntry := some e, trapNo := no,
               yc := 0, dl := 255, y0 := [], y1 := [], y2 := [], y3 := [], wait := 0#12, hold := .run,
               inHandler := true, handlerBase := base, pc := BitVec.ofNat 32 (12 * (4 * t.cause.code)) }))

/-- Vectors a run in ascending lane order. -/
def Core.vectorAll (c : Core) (no : Nat) (base : DWord) (gpc pc : Word) (glen : Nat) (t : TrapInfo) : List Nat → Option Core
  | [] => some c
  | u :: us =>
    match c.vector no u base gpc pc glen t with
    | none => none
    | some c1 => Core.vectorAll c1 no base gpc pc glen t us

/-- The thread of a run that decides a trap in a lane; ILLEGAL_IN_HELPER is a helper's. -/
def Core.decider (c : Core) (run : List Nat) (t : TrapInfo) : Nat :=
  let inLane (u : Nat) : Bool := (c.th u).lane == t.lane && (!(t.cause == .illegalInHelper) || (c.th u).helper.isSome)
  match run.find? inLane with
  | some u => u
  | none => run.headD 0

/-- Takes a trap of the group in issue: a helper's trap ends that helper alone (R309); a trap of warp code at PL0 is
vectored where R358 allows, in the threads of the run that are no helpers; every other trap ends the launch (R362, R363). A trap
in a handler is nested, whatever its cause (R358). A helper's trap comes up at HWAIT, which has acquired and closes the team
before it (R308, R373). -/
def State.raise (s : State) (t : TrapInfo) (pc : Word) : State :=
  let cur := s.cur
  let c0 := s.core cur.core
  let s0 := if t.helper.isSome then s.setCore cur.core (c0.closeTeam (c0.decider cur.run t)).acquire else s
  let c := s0.core cur.core
  let vf := s.vfOf cur.core
  let base := s.sysNow cur.core noUid 0x20 (s.vf vf).trapbase
  let s1 := { s0 with cur := { cur with status := .trapped t (slotOf pc), ext := none, extBad := false } }
  let u := c.decider cur.run t
  let x := c.th u
  let fatal : Bool := t.cause == .watchdog || t.cause == .killed
  let sib := match t.helper with | some i => i | none => 0
  let last (nest novec : Bool) (tid : Word) : TrapRec :=
    ⟨packRec0 t.cause.code t.lane cur.glen sib (slotOf pc) t.helper.isSome cur.fe nest novec true, pc, t.info, tid⟩
  let fin (r : TrapRec) : State := match c.launch with | some l => s1.endLaunch l r | none => s1
  if cur.fe then fin (last false false (match c.fe with | some f => f.tid | none => 0#32))
  else if x.helper.isSome && !fatal then
    s1.setCore cur.core (c.endHelper u (.trap t pc))
  else if x.intrap then fin (last true false x.tid)
  else if fatal then fin (last false false x.tid)
  else if x.pl then fin (last false false x.tid)
  else if !(trapEn base) then fin (last false true x.tid)
  else
    match c.vectorAll cur.draw base cur.gpc pc cur.glen t (cur.run.filter (fun v => (c.th v).helper.isNone)) with
    | some c1 => s1.setCore cur.core c1
    | none => fin (last false true x.tid)

/-- Returns one thread from its trap entry (R379): restored as REST does, at the entry's PC plus `skip` bytes, with values
for consecutive registers and the predicates if given; the entry is dropped. It waits where a row is lacking. -/
def Core.trapReturn (c : Core) (u : Nat) (done : Nat) (skip : Nat) (dst : Reg) (vals : List Word) (preds : Option (BitVec 8)) : Res Core :=
  match (c.th u).trapEntry with
  | none => .ok c
  | some e =>
    let x := c.entry e
    match c.thaw u e with
    | none => .wait true
    | some c1 =>
      let c2 := (c1.updTh u (fun t =>
        { t with pc := x.pc + BitVec.ofNat 32 skip, inHandler := false, pl := false, intrap := false, trapEntry := none,
                 pred := match preds with | some p => p | none => t.pred })).dropEntry e
      c2.writeSlowBlock u dst done vals

end Sys2Proof.Machine
end

