-- ==== Sys2Proof/Machine/Operands.lean ====
section
/-! DEFINITION. Operand forms: what a register specifier reads and writes in warp code (R45) and in front-end code (R46),
the last-result entries (R44), and the checks on specifiers. -/

namespace Sys2Proof.Machine

open Sys2Proof

/-! ## Last-result entries (R44) -/

/-- Whether an entry counts as written at a time of its thread's own: some producer's result is visible. -/
def yWritten (vt : Nat) (y : List LastResult) : Bool := y.any (fun p => decide (p.visAt ≤ vt))

/-- Whether it counts as written in a cycle, for a cross-lane word of another thread (R169). -/
def yLanded (now : Nat) (y : List LastResult) : Bool := y.any (fun p => decide (p.landAt ≤ now))

/-- The value of a written entry: the newest, or while it is not visible the one before it. -/
def yRead (draw u code : Nat) (seen : LastResult → Bool) : List LastResult → Word
  | [] => 0#32
  | p :: ps => if seen p || Config.freeBool draw u (code + 1024 * ps.length) then p.value else yRead draw u code seen ps

/-- Entry `i` of a thread, 0 to 3. -/
def Thread.y (t : Thread) (i : Nat) : List LastResult :=
  if i = 0 then t.y0 else if i = 1 then t.y1 else if i = 2 then t.y2 else t.y3

/-- The newest value of one entry moves into another as a result comes (R44). -/
def moveLast (visAt landAt : Nat) (a b : List LastResult) : List LastResult :=
  match a with
  | [] => b
  | p :: _ => ⟨p.value, visAt, landAt⟩ :: b

/-- A pipe-X result moves y0 into y1 and takes y0; a pipe-Y result does so with y2 and y3. Both entries change with the latency
of the pipe (R36, R44); the word issues in the cycle `last`. -/
def Thread.fillX (t : Thread) (v : Word) : Thread :=
  { t with y1 := moveLast (t.vt + 4) (t.last + 4) t.y0 t.y1, y0 := ⟨v, t.vt + 4, t.last + 4⟩ :: t.y0 }
def Thread.fillY (t : Thread) (v : Word) : Thread :=
  { t with y3 := moveLast (t.vt + 6) (t.last + 6) t.y2 t.y3, y2 := ⟨v, t.vt + 6, t.last + 6⟩ :: t.y2 }

/-- All four entries become unwritten. -/
def Thread.clearY (t : Thread) : Thread := { t with y0 := [], y1 := [], y2 := [], y3 := [] }

/-! ## Warp code (R45) -/

/-- The value a specifier reads in a thread. -/
def Core.readReg (c : Core) (draw u : Nat) (r : Reg) : Word :=
  let t := c.th u
  let n := r.toNat
  match placeOf r with
  | some p => (pickEarly draw u t.vt t.early n ((c.readPlace t p).setWidth 64)).setWidth 32
  | none =>
    if n < 108 then yRead draw u n (fun p => decide (p.visAt ≤ t.vt)) (t.y (n - 104))
    else if n = 108 then 0#32
    else if n = 109 then BitVec.ofNat 32 t.lane
    else if n = 110 then t.tid
    else if n = 111 then t.sib
    else BitVec.ofNat 32 (n - 112)

/-- The value of a specifier of a thread as a cross-lane word reads it from another lane: what has landed by its cycle, or what
is on its way (R169). -/
def Core.peekReg (c : Core) (draw u : Nat) (r : Reg) : Word :=
  let t := c.th u
  let n := r.toNat
  match placeOf r with
  | some p => (pickFlying draw u c.clock t.early n ((c.readPlace t p).setWidth 64)).setWidth 32
  | none =>
    if 104 ≤ n ∧ n < 108 then
      let before := (t.y (n - 104)).filter (fun p => decide (p.landAt < c.clock + (if n < 106 then 4 else 6)))
      yRead draw u n (fun p => decide (p.landAt ≤ c.clock)) before
    else c.readReg draw u r

/-- Whether a cross-lane word may read a specifier of a thread. -/
def Core.peekOk (c : Core) (u : Nat) (r : Reg) : Bool :=
  let t := c.th u
  match placeOf r with
  | some p => decide (p.1 < t.map.length)
  | none => decide (108 ≤ r.toNat) || yLanded c.clock (t.y (r.toNat - 104))

/-- Whether a thread may read a specifier: a main register within the allotment, a written y entry (R14, R44). -/
def Core.srcOk (c : Core) (u : Nat) (r : Reg) : Bool :=
  let t := c.th u
  match placeOf r with
  | some p => decide (p.1 < t.map.length)
  | none => decide (108 ≤ r.toNat) || yWritten t.vt (t.y (r.toNat - 104))

/-- Whether a specifier may be a destination: a register within the allotment, or zero (R45). -/
def Core.dstOk (c : Core) (u : Nat) (r : Reg) : Bool :=
  match placeOf r with
  | some p => decide (p.1 < (c.th u).map.length)
  | none => r == 108#7

/-- Whether `n` consecutive registers from one specifier are main registers within the allotment, or operand registers
(R195, R330). -/
def Core.blockOk (c : Core) (u : Nat) (r : Reg) (n : Nat) : Bool :=
  let lo := r.toNat
  let hi := lo + n - 1
  if hi < 96 then decide (1 + hi / 8 < (c.th u).map.length)
  else decide (96 ≤ lo) && decide (hi < 104)

/-- The values of `n` consecutive registers. -/
def Core.readBlock (c : Core) (draw u : Nat) (r : Reg) : Nat → List Word
  | 0 => []
  | n + 1 => c.readReg draw u r :: Core.readBlock c draw u (r + 1#7) n

/-! ## Front-end code (R46) -/

/-- The value a specifier reads in front-end code. -/
def FrontEnd.read (f : FrontEnd) (draw : Nat) (r : Reg) : DWord :=
  let n := r.toNat
  if n < 64 then pickEarly draw 0 f.vt f.early n (getAt f.k n 0#64)
  else if n = 108 then 0#64
  else BitVec.ofNat 64 (n - 112)

/-- Whether front-end code may read, or write, a specifier. -/
def feSrcOk (r : Reg) : Bool := decide (r.toNat < 64) || r == 108#7 || decide (112 ≤ r.toNat)
def feDstOk (r : Reg) : Bool := decide (r.toNat < 64) || r == 108#7

/-- Writes a k register as a note says. -/
def FrontEnd.note (f : FrontEnd) (i : Nat) (v : DWord) (n : Early) : FrontEnd :=
  let w := noteWrite n v f.early
  { f with k := if w.2 then setAt f.k i v else f.k, early := w.1 }

/-- Writes a k register, with the pipe-X latency of R46 when `delay` is 4; the word issues in the cycle `last`. -/
def FrontEnd.write (f : FrontEnd) (r : Reg) (v : DWord) (delay : Nat) : FrontEnd :=
  if r.toNat < 64 then f.note r.toNat v (shortNote r.toNat (getAt f.k r.toNat 0#64) f.vt f.last delay) else f

/-- The result of a word of R424 that issues in the cycle `now` and completes in the cycle `done`. -/
def FrontEnd.writeDone (f : FrontEnd) (now done : Nat) (r : Reg) (v : DWord) : FrontEnd :=
  if r.toNat < 64 then f.note r.toNat v (slowNote r.toNat (getAt f.k r.toNat 0#64) f.vt now done) else f

end Sys2Proof.Machine
end

