-- ==== Sys2Proof/Machine/Flags.lean ====
section
/-! DEFINITION. Predicates, guards, completion flags and the status bits of FSTAT: every flag a word reads or writes. -/

namespace Sys2Proof.Machine

open Sys2Proof

/-! ## Predicates and guards (R17, R50) -/

/-- The code under which a predicate's spacing is recorded, beyond every register's. MODEL. -/
def predCode (p : Nat) : Nat := 512 + p

/-- A predicate as a group reads it; a compare's result is visible with its pipe's latency (R36). -/
def Thread.predAt (t : Thread) (draw u p : Nat) : Bool :=
  (pickEarly draw u t.vt t.early (predCode p) (if t.pred.getLsbD p then 1#64 else 0#64)).getLsbD 0

/-- Sets bit `p` of a predicate set. -/
def setPredBit (ps : BitVec 8) (p : Nat) (v : Bool) : BitVec 8 :=
  if v then ps ||| (1#8 <<< p) else ps &&& ~~~(1#8 <<< p)

/-- A predicate as a recorded value. -/
def predVal (b : Bool) : DWord := if b then 1#64 else 0#64

/-- Writes a predicate as a note says. -/
def Thread.notePred (t : Thread) (p : Nat) (v : Bool) (n : Early) : Thread :=
  let w := noteWrite n (predVal v) t.early
  { t with pred := if w.2 then setPredBit t.pred p v else t.pred, early := w.1 }

/-- Writes a predicate (R36, R37); the word issues in the cycle `last`. -/
def Thread.setPred (t : Thread) (p : Nat) (v : Bool) (delay : Nat) : Thread :=
  t.notePred p v (shortNote (predCode p) (predVal (t.pred.getLsbD p)) t.vt t.last delay)

/-- The predicate that a word of R424 sets which completes in the cycle `done`. -/
def Thread.setPredDone (t : Thread) (now done p : Nat) (v : Bool) : Thread :=
  t.notePred p v (slowNote (predCode p) (predVal (t.pred.getLsbD p)) t.vt now done)

/-- Whether the guard of an EXT holds in a thread (R50): G = 0 is unguarded. -/
def Thread.guard (t : Thread) (draw u : Nat) (g : BitVec 4) : Bool :=
  if g = 0#4 then true else t.predAt draw u (g.toNat % 8) != g.getLsbD 3

/-- The front end's predicates. -/
def FrontEnd.predAt (f : FrontEnd) (draw p : Nat) : Bool :=
  (pickEarly draw 0 f.vt f.early (predCode p) (if f.pred.getLsbD p then 1#64 else 0#64)).getLsbD 0

def FrontEnd.notePred (f : FrontEnd) (p : Nat) (v : Bool) (n : Early) : FrontEnd :=
  let w := noteWrite n (predVal v) f.early
  { f with pred := if w.2 then setPredBit f.pred p v else f.pred, early := w.1 }

def FrontEnd.setPred (f : FrontEnd) (p : Nat) (v : Bool) : FrontEnd :=
  f.notePred p v (shortNote (predCode p) (predVal (f.pred.getLsbD p)) f.vt f.last 4)

/-! ## Completion flags (R39 to R42) -/

/-- The flag a word with flag select F uses; none where SETA or SETB holds 12 to 15 (R41). -/
def selFlag (a b : BitVec 4) (f : Bool) : Option Nat :=
  let n := (if f then b else a).toNat
  if n < 12 then some n else none

/-- A flag of a thread. -/
def Thread.flag (t : Thread) (i : Nat) : Nat := getAt t.flags i 0

/-- Whether all twelve flags are zero. -/
def flagsZero (fs : List Nat) : Bool := fs.all (fun x => x == 0)

/-- Whether every flag named in a WAIT mask reads zero (R40). -/
def waitOk (fs : List Nat) (w : BitVec 12) : Bool :=
  (List.range 12).all (fun i => !(w.getLsbD i) || getAt fs i 0 == 0)

/-- Whether a word that raises the flag must wait: some lane's flag is at 15 (R42). -/
def Core.flagFull (c : Core) (us : List Nat) (f : Bool) : Bool :=
  us.any (fun u => match selFlag (c.th u).setA (c.th u).setB f with
    | some i => decide (15 ≤ (c.th u).flag i)
    | none => false)

/-- Raises a flag by one. -/
def raiseFlag (fs : List Nat) (i : Nat) : List Nat := setAt fs i (getAt fs i 0 + 1)

/-! ## FSTAT (R136) -/

/-- The code under which FSTAT's spacing is recorded. MODEL. -/
def fstatCode : Nat := 600

/-- The status bits that a note's producer brings, and those of them that nothing visible has brought before it: the two halves
of the note's `old`. -/
def Early.brings (e : Early) : Word := e.old.extractLsb' 32 32
def Early.first (e : Early) : Word := e.old.setWidth 32

/-- A note of FSTAT with other bits. -/
def Early.withBits (e : Early) (brings first : Word) : Early := { e with old := brings ++ first }

/-- The status bits on their way. -/
def Thread.fstatFlying (t : Thread) : Word :=
  t.early.foldl (fun w e => if e.code = fstatCode ∧ e.open t.vt = true then w ||| e.first else w) 0#32

/-- The status bits that a producer on its way may yet land. -/
def Thread.fstatLanding (t : Thread) : Word :=
  t.early.foldl (fun w e => if e.code = fstatCode ∧ e.open t.vt = true then w ||| e.brings else w) 0#32

/-- FSTAT as a group reads it: a bit on its way reads 0 or 1, every other as it stands (R137). -/
def Thread.fstatAt (t : Thread) (draw u : Nat) : Word :=
  t.fstat &&& ~~~(t.fstatFlying &&& Config.freeWord draw u fstatCode)

/-- Notes of FSTAT without some bits, where a condition on the note holds. -/
def dropBits (b : DWord) (p : Early → Bool) (es : List Early) : List Early :=
  es.map (fun e => if e.code = fstatCode ∧ p e = true then { e with old := e.old &&& ~~~b } else e)

/-- Status bits that are visible at once. -/
def Thread.orNow (t : Thread) (b : Word) : Thread :=
  { t with fstat := t.fstat ||| b, early := dropBits (b.setWidth 64) (fun _ => true) t.early }

/-- Adds status bits: each is on its way until its first producer is visible (R137). -/
def Thread.orFstat (t : Thread) (b : Word) (delay : Nat) : Thread :=
  let at_ := t.vt + delay
  let sooner := t.early.foldl (fun w e => if e.code = fstatCode ∧ e.visAt ≤ at_ then w ||| e.first else w) 0#32
  let new := b &&& ~~~(t.fstat &&& ~~~t.fstatFlying) &&& ~~~sooner
  if b = 0#32 then t
  else
    { t with fstat := t.fstat ||| b,
             early := ⟨fstatCode, b ++ new, at_, t.last, t.last + delay, false, false⟩ ::
               dropBits (new.setWidth 64) (fun _ => true) t.early }

/-- Clears status bits (R136): a bit that a producer on its way may yet land can land after the clearing, and is then on its way
until that producer is visible; every other is gone. -/
def Thread.clearFstat (t : Thread) (draw u : Nat) (m : Word) : Thread :=
  let late := t.fstat &&& t.fstatLanding &&& m &&& Config.freeWord draw u fstatCode
  let gone := m &&& ~~~late
  { t with fstat := t.fstat &&& ~~~gone,
           early := t.early.map (fun e =>
             if e.code = fstatCode then e.withBits (e.brings &&& ~~~gone) ((e.first &&& ~~~m) ||| (e.brings &&& late)) else e) }

end Sys2Proof.Machine
end

