-- ==== Sys2Proof/Machine/Issue.lean ====
section
/-! DEFINITION. Issuing one word of the group in hand: the checks of R46, R51, R54 and R56 in their order, the lanes in
which the word executes, YC and the PC, and where a result goes. Each instruction's meaning gives a form and a body. -/

namespace Sys2Proof.Machine

open Sys2Proof

/-- The streams a word runs in (R52). -/
inductive Stream where
  | warp
  | front
  | both
  deriving DecidableEq, Repr

/-- What a word's entry says before its effect: its stream, the EXT fields it accepts (R51), whether its fields are all
defined, whether its unit is absent (R4), whether a helper may execute it (R306). -/
structure Form where
  stream : Stream := .warp
  c3 : Bool := false
  rm : Bool := false
  sr : Bool := false
  sat : Bool := false
  g : Bool := true
  sel : BitVec 4 → Bool := fun _ => false
  legal : Bool := true
  absent : Bool := false
  helper : Bool := true

/-- A trap that a lane decides, with INFO 0. -/
def trapAt (c : Cause) (lane : Nat) : TrapInfo := ⟨c, lane, 0#32, none⟩

/-- The EXT of the word in hand, or one that changes nothing (R51). -/
def State.ext (s : State) : Ext :=
  match s.cur.ext with
  | some x => x
  | none => ⟨0#7, 0#3, false, false, 0#4, 0#4⟩

/-- The lowest lane of the run; 0 in front-end code (R357). -/
def State.lowLane (s : State) : Nat :=
  match s.cur.run with
  | [] => 0
  | u :: _ => ((s.core s.cur.core).th u).lane

/-- ILLEGAL_INSTRUCTION by form: stream, fields, EXT (R46, R51, R54). -/
def formIllegal (f : Form) (s : State) : Bool :=
  let x := s.ext
  (if s.cur.fe then f.stream == .warp || s.cur.ext.isSome else f.stream == .front) ||
  !f.legal || s.cur.extBad ||
  (!(x.c3 == 0#7) && !f.c3) || (!(x.rm == 0#3) && !f.rm) || (x.sr && !f.sr) || (x.sat && !f.sat) ||
  (!(x.g == 0#4) && !f.g) || (!(x.sel == 0#4) && !(f.sel x.sel))

/-- The checks of a form, in the order of R56. -/
def checkForm (f : Form) (s : State) : Res Unit :=
  if formIllegal f s then .trap (trapAt .illegalInstruction s.lowLane)
  else if f.absent then .trap (trapAt .unitAbsent s.lowLane)
  else .ok ()

/-- The lanes in which the word executes: the run's, where the guard holds (R50). -/
def State.active (s : State) : List Nat :=
  let c := s.core s.cur.core
  s.cur.run.filter (fun u => (c.th u).guard s.cur.draw u s.ext.g)

/-- The first active thread that fails a check decides ILLEGAL_OPERAND. -/
def operandCheck (c : Core) (act : List Nat) (ok : Nat → Bool) (low : Nat) (named : Bool) : Res Unit :=
  if !named then .trap (trapAt .illegalOperand low)
  else
    match act.find? (fun u => !(ok u)) with
    | some u => .trap (trapAt .illegalOperand (c.th u).lane)
    | none => .ok ()

/-- Whether a destination specifier is one at all (R45). -/
def dstNamed (r : Reg) : Bool := (placeOf r).isSome || r == 108#7

/-- Words that a helper may not execute (R306): the first helper among the threads that would decides. -/
def helperCheck (f : Form) (c : Core) (act : List Nat) : Res Unit :=
  match (if f.helper then [] else act).find? (fun u => (c.th u).helper.isSome) with
  | some u => .trap (trapAt .illegalInHelper (c.th u).lane)
  | none => .ok ()

/-- The run's PCs move to the next word and the active threads' YC grows by one (R68, R78). -/
def Core.advance (c : Core) (run act : List Nat) : Core :=
  (c.updAll run (fun t => { t with pc := t.pc + 4#32 })).updAll act (fun t => { t with yc := t.yc + 1 })

/-- WATCHDOG where an active thread's YC would pass DL × 1,024 (R69). -/
def watchdogCheck (c : Core) (act : List Nat) : Res Unit :=
  match act.find? (fun u => decide (1024 * (c.th u).dl < (c.th u).yc + 1)) with
  | some u => .trap (trapAt .watchdog (c.th u).lane)
  | none => .ok ()

/-- A warp word whose effect may reach the whole machine. -/
def warpWordS (f : Form) (s : State) (srcs dsts : List Reg) (body : State → List Nat → Res State) : Res State :=
  (checkForm f s).bind fun _ =>
    let c := s.core s.cur.core
    let act := s.active
    (operandCheck c act (fun u => srcs.all (c.srcOk u) && dsts.all (c.dstOk u)) s.lowLane (dsts.all dstNamed)).bind fun _ =>
    (helperCheck f c act).bind fun _ =>
    (body (s.setCore s.cur.core (c.advance s.cur.run act)) act).bind fun s' =>
    (watchdogCheck c act).bind fun _ => .ok s'

/-- A warp word whose effect stays in its core. -/
def warpWord (f : Form) (s : State) (srcs dsts : List Reg) (body : Core → List Nat → Res Core) : Res State :=
  warpWordS f s srcs dsts (fun s1 act => (body (s1.core s1.cur.core) act).map (fun c => s1.setCore s1.cur.core c))

/-- A front-end word whose effect may reach the whole machine; its PC moves to the next word. -/
def feWordS (f : Form) (s : State) (srcs dsts : List Reg) (body : State → FrontEnd → Res State) : Res State :=
  (checkForm f s).bind fun _ =>
    let c := s.core s.cur.core
    match c.fe with
    | none => .wait false
    | some x =>
      if srcs.all feSrcOk && dsts.all feDstOk then
        let x1 := { x with pc := x.pc + 4#32 }
        body (s.setCore s.cur.core { c with fe := some x1 }) x1
      else .trap (trapAt .illegalOperand 0)

/-- A word of both streams: its effect in warp code and in front-end code. -/
def bothWordS (f : Form) (s : State) (srcs dsts : List Reg) (wb : State → List Nat → Res State)
    (fb : State → FrontEnd → Res State) : Res State :=
  if s.cur.fe then feWordS f s srcs dsts fb else warpWordS f s srcs dsts wb

/-- Replaces the front-end thread of the core in hand. -/
def State.setFe (s : State) (x : FrontEnd) : State := s.onCore s.cur.core (fun c => { c with fe := some x })

/-- A front-end word whose effect stays in the front-end thread. -/
def feWord (f : Form) (s : State) (srcs dsts : List Reg) (body : FrontEnd → Res FrontEnd) : Res State :=
  feWordS f s srcs dsts (fun s1 x => (body x).map (fun y => s1.setFe y))

/-- A word of both streams whose effect stays in its core. -/
def bothWord (f : Form) (s : State) (srcs dsts : List Reg) (wb : Core → List Nat → Res Core)
    (fb : FrontEnd → Res FrontEnd) : Res State :=
  if s.cur.fe then feWord f s srcs dsts fb else warpWord f s srcs dsts wb

/-- The end of a word: what the machine is in next. A trap is taken, a wait leaves the group to be tried again. -/
def finish (s : State) (r : Res State) : Host.Outcome State Fault Refusal :=
  match r with
  | .ok s' => .next ({ s' with cur := { s'.cur with ext := none, extBad := false, status := .issued } }.count (s.vfOf s.cur.core) 1 1)
  | .trap t => .next (s.raise t s.cur.pc)
  | .wait unit => .next { s with cur := { s.cur with status := .waiting unit } }
  | .waitAll => .next { s with cur := { s.cur with status := .waitingAll } }

/-- The end of HDR, which is no issued word (R34, R77): it counts in no counter. -/
def finishQuiet (s : State) (r : Res State) : Host.Outcome State Fault Refusal :=
  match r with
  | .ok s' => .next { s' with cur := { s'.cur with ext := none, extBad := false, status := .issued } }
  | _ => finish s r

/-- Where a thread is recorded whose wait in the word in hand a forced halt undoes: at its group, where the word is the only one
of it (R74). -/
def Cur.back (cur : Cur) : Option Word :=
  if cur.glen = 1 ∨ (cur.glen = 2 ∧ cur.ext.isSome) then some cur.gpc else none

/-- The number of whole packets of the segment that the word in hand runs in. -/
def State.segLen (s : State) : Nat :=
  match (s.core s.cur.core).launch with
  | none => 0
  | some l =>
    match s.launch l with
    | none => 0
    | some x =>
      let t := (s.core s.cur.core).th (s.cur.run.headD 0)
      if s.cur.fe then x.hdr.feLen else if t.inHandler then trapLen t.handlerBase else x.hdr.codeLen

/-! ## Results of the short-latency pipes (R36, R44) -/

/-- The pipes that fill last-result entries. -/
inductive ResPipe where
  | x
  | y
  deriving DecidableEq, Repr

/-- Result latency (R36). -/
def ResPipe.delay : ResPipe → Nat
  | .x => 4
  | .y => 6

/-- Fills the pipe's last-result entry. -/
def Thread.fill (t : Thread) (p : ResPipe) (v : Word) : Thread :=
  match p with
  | .x => t.fillX v
  | .y => t.fillY v

/-- One lane's result: written where the word executes; a lane the guard excludes gets the unchanged destination in its
last-result entry (R44), which is word n % 8 of its first row where the destination lies beyond its allotment (log 118). -/
def Core.laneResult (c : Core) (draw : Nat) (p : ResPipe) (act : List Nat) (dst : Reg) (val : Nat → Word) (u : Nat) : Res Core :=
  if act.contains u then
    (c.writeAt u dst (val u) p.delay).map (fun c => c.updTh u (fun t => t.fill p (val u)))
  else .ok (c.updTh u (fun t => t.fill p (c.readReg draw u dst)))

/-- A pipe-X or pipe-Y word's results in every lane of the run. -/
def Core.results (c : Core) (draw : Nat) (p : ResPipe) (run act : List Nat) (dst : Reg) (val : Nat → Word) : Res Core :=
  forEach (fun u c => c.laneResult draw p act dst val u) run c

/-- A word of the other pipes writes a result in each active lane, visible 4 cycles later, and fills no y entry. -/
def Core.plainResults (c : Core) (act : List Nat) (dst : Reg) (val : Nat → Word) : Res Core :=
  forEach (fun u c => c.writeAt u dst (val u) 4) act c

/-- A word of R424 that completes in the cycle `done` writes a result in each active lane. -/
def Core.slowResults (c : Core) (act : List Nat) (dst : Reg) (done : Nat) (val : Nat → Word) : Res Core :=
  forEach (fun u c => c.writeSlow u dst (val u) done) act c

end Sys2Proof.Machine
end

