-- ==== Sys2Proof/Machine/Paging.lean ====
section
/-! DEFINITION. Physical memory (R388), page tables and translation (R176, R177), and the redirection of a page under
migration (R190). -/

namespace Sys2Proof.Machine

open Sys2Proof

/-! ## Physical addresses -/

/-- Whether a physical address exists: HBM4E pseudo-channels, then the CXL ports (R388). -/
def physOk (pa : Nat) : Bool := decide (pa < 768 * 2 ^ 30) || (decide (2 ^ 48 ≤ pa) && decide (pa < 2 ^ 48 + 2 ^ 44))

/-- The tier of a physical address: 0 HBM4E, 1 CXL. -/
def tierOf (pa : Nat) : Nat := if pa < 2 ^ 48 then 0 else 1

/-- Whether a partition's memory holds a physical address (R388). -/
def Part.owns (p : Part) (pa : Nat) : Bool :=
  if pa < 768 * 2 ^ 30 then
    let c := pa / 2 ^ 30
    (getAt p.pch (c / 64) 0#64).getLsbD (c % 64)
  else if 2 ^ 48 ≤ pa ∧ pa < 2 ^ 48 + 2 ^ 44 then
    let x := pa - 2 ^ 48
    (getAt p.cxl (x / 2 ^ 42) 0#256).getLsbD (x % 2 ^ 42 / 2 ^ 34)
  else false

/-- Whether the partition of a VF holds a physical address. -/
def State.vfOwns (s : State) (v pa : Nat) : Bool :=
  match s.partOfVf v with
  | some p => (match AMap.look s.parts p with | some x => x.owns pa | none => false)
  | none => false

/-- The line or engine's view of one byte of physical memory: a dirty sector of Brocade, else memory. -/
def State.physByte (s : State) (pa : Nat) : Byte :=
  match s.brocade.find? (fun l => l.pa == some (pa / 64 * 64) && l.dirty.getLsbD (pa % 64 / 16)) with
  | some l => getAt l.data (pa % 64) 0#8
  | none => s.mem.read pa

/-- Bytes of physical memory as registered. -/
def State.physBytes (s : State) (pa n : Nat) : List Byte := (List.range n).map (fun i => s.physByte (pa + i))

/-- Whether a byte's sector is poisoned. -/
def State.physPoison (s : State) (pa : Nat) : Bool :=
  match s.brocade.find? (fun l => l.pa == some (pa / 64 * 64) && l.dirty.getLsbD (pa % 64 / 16)) with
  | some l => l.poison.getLsbD (pa % 64 / 16)
  | none => AMap.has s.poison (pa / 16)

/-- Whether a write to a physical address is held because its checkpoint piece is frozen (R371). -/
def State.frozen (s : State) (pa : Nat) : Bool :=
  s.parts.any (fun p => p.2.pieces.any (fun x => x.pa == pa / 65536 * 65536 && !x.drained && x.reserve.isNone))

/-- Fails a running checkpoint: every piece is unfrozen (R371, R372, R383, R397). -/
def State.failCkpt (s : State) (part err : Nat) : State :=
  match AMap.look s.parts part with
  | some p => s.setPart part { p with ckState := 4, ckErr := err, pieces := [], ckImage := none }
  | none => s

/-- A free place of the checkpoint reserve, in pieces of 64 KiB (R369). -/
def Part.reserveSlot (p : Part) : Option Nat :=
  lowest (fun i => !(p.pieces.any (fun x => !x.drained && x.reserve == some i))) (32 * (p.ckRsv.toNat / 2 ^ 52)) 0

/-- The physical address of a place of the reserve. -/
def Part.reservePa (p : Part) (i : Nat) : Nat := bits p.ckRsv.toNat 51 21 * 2 ^ 21 + 65536 * i

/-- A frozen piece is copied into the reserve; a full reserve fails the checkpoint with ERR 1 (R371). -/
def State.reservePiece (s : State) (part i : Nat) : State :=
  match AMap.look s.parts part with
  | none => s
  | some p =>
    match p.pieces.drop i with
    | [] => s
    | x :: _ =>
      if x.drained || x.reserve.isSome then s
      else
        match p.reserveSlot with
        | none => s.failCkpt part 1
        | some n =>
          ({ s with mem := s.mem.putBytes (p.reservePa n) (s.physBytes x.pa 65536) }).setPart part
            { p with pieces := setAt p.pieces i { x with reserve := some n } }

/-- The piece that a physical address lies in, where a write to it is held. -/
def State.frozenPiece (s : State) (pa : Nat) : Option (Nat × Nat) :=
  let held (x : Piece) : Bool := x.pa == pa / 65536 * 65536 && !x.drained && x.reserve.isNone
  (s.parts.filterMap (fun p => (firstIdx held p.2.pieces 0).map (fun i => (p.1, i)))).head?

/-- Before a write the frozen pieces it meets are copied (R371). -/
def State.unfreeze (s : State) (pas : List Nat) : State :=
  pas.foldl (fun s pa => match s.frozenPiece pa with
    | some x => s.reservePiece x.1 x.2
    | none => s) s

/-! ## Page tables (R177) -/

/-- A leaf entry: where it stands, its frame, its page size, and its W and TIER. -/
structure Leaf where
  entry : Nat
  pa : Nat
  size : Nat
  w : Bool
  tier : Nat
  deriving DecidableEq, Repr

/-- What a walk finds at one level. -/
inductive WalkStep where
  | bad
  | table (pa : Nat)
  | leaf (l : Leaf)
  deriving DecidableEq, Repr

/-- Reads one table entry of a level (R177): malformed entries count as invalid. -/
def State.readEntry (s : State) (v level tbl idx : Nat) : WalkStep :=
  let at_ := tbl + 8 * idx
  let e := leNat (s.physBytes at_ 8)
  let addr := bits e 51 8 * 256
  let leaf := decide (level = 3) || (decide (level = 2) && tbit e 61)
  let size := if level = 3 then 65536 else if level = 2 then (if leaf then 2 ^ 21 else 256) else if level = 1 then 16384 else 8192
  if !tbit e 63 || !(bits e 58 52 == 0) || !(bits e 7 0 == 0) || !(addr % size == 0) || !(s.vfOwns v addr) then .bad
  else if leaf then (if 2 ≤ bits e 60 59 then .bad else .leaf ⟨at_, addr, size, tbit e 62, bits e 60 59⟩)
  else if !tbit e 62 || (decide (level < 2) && tbit e 61) then .bad
  else .table addr

/-- The index of a virtual address at a level. -/
def levelIdx (level va : Nat) : Nat :=
  if level = 0 then bits va 51 42 else if level = 1 then bits va 41 32 else if level = 2 then bits va 31 21 else bits va 20 16

/-- Walks from a level downward. -/
def State.walkFrom (s : State) (v va : Nat) : Nat → Nat → Nat → Option Leaf
  | 0, _, _ => none
  | n + 1, level, tbl =>
    match s.readEntry v level tbl (levelIdx level va) with
    | .bad => none
    | .leaf l => some l
    | .table t => State.walkFrom s v va n (level + 1) t

/-- The leaf that maps a virtual address of a VF. -/
def State.leafOf (s : State) (v va : Nat) : Option Leaf :=
  let r := (s.vf v).ptroot.toNat
  let root := bits r 51 13 * 8192
  if tbit r 0 && s.vfOwns v root then s.walkFrom v va 4 0 root else none

/-- Where an access to a frame is served from while the frame moves (R190). -/
def State.redirect (s : State) (pa : Nat) : Nat :=
  match (s.dies.flatMap (fun d => d.2.mig)).find? (fun m => m.old == pa / 65536 * 65536) with
  | some m => if pa % 65536 / 64 < m.p then m.new + pa % 65536 else pa
  | none => pa

/-! ## Translation (R176, R178) -/

/-- The outcome of a translation: the physical address, or a fault and whether a leaf with W = 0 caused it. -/
inductive Xlate where
  | ok (pa : Nat)
  | fault (protect : Bool)
  deriving DecidableEq, Repr

/-- A translation by the page tables. -/
def State.walk (s : State) (v va : Nat) (write : Bool) : Xlate :=
  match s.leafOf v va with
  | none => .fault false
  | some l => if write && !l.w then .fault true else .ok (s.redirect (l.pa + va % l.size))

/-- The entry of a core's translation cache for an address. -/
def Core.tlbHit (c : Core) (v va : Nat) (write : Bool) : Option TlbEntry :=
  c.tlb.find? (fun e => e.vf == v && decide (e.va ≤ va) && decide (va < e.va + e.size) && (e.w || !write))

/-- Adds a translation to a core's cache of 1,024 entries; a full cache gives one up (R176, log 14). -/
def Core.cacheXlate (c : Core) (draw : Nat) (e : TlbEntry) : Core :=
  let l := c.tlb.filter (fun x => !(x.vf == e.vf && x.va == e.va))
  { c with tlb := (if 1024 ≤ l.length then l.eraseIdx (Config.freeNat draw % 1024) else l) ++ [e] }

/-- A translation of one core: its cache, else a walk, which fills the cache. -/
def State.translate (s : State) (core v va : Nat) (write : Bool) : State × Xlate :=
  match (s.core core).tlbHit v va write with
  | some e => (s, .ok (s.redirect (e.pa + (va - e.va))))
  | none =>
    match s.walk v va write, s.leafOf v va with
    | .ok pa, some l =>
      let e : TlbEntry := ⟨v, va / l.size * l.size, l.pa, l.size, l.w, l.tier⟩
      (s.onCore core (fun c => c.cacheXlate s.draws e), .ok pa)
    | x, _ => (s, x)

/-- Translates several lines; the first fault decides, with its address. -/
def State.translateAll (s : State) (core v : Nat) (write : Bool) : List Nat → State × Except (Nat × Bool) (List Nat)
  | [] => (s, .ok [])
  | va :: vas =>
    match s.translate core v va write with
    | (s1, .fault p) => (s1, .error (va, p))
    | (s1, .ok pa) =>
      match State.translateAll s1 core v write vas with
      | (s2, .error e) => (s2, .error e)
      | (s2, .ok pas) => (s2, .ok (pa :: pas))

/-- Removes a page's translations from every core of the partition (R190, R202). -/
def State.invalidatePage (s : State) (v va : Nat) : State :=
  let part := s.partOfVf v
  { s with cores := AMap.mapVals s.cores (fun c =>
      { c with tlb := c.tlb.filter (fun e => !(e.vf == v && s.partOfVf e.vf == part && decide (e.va ≤ va) && decide (va < e.va + e.size))) }) }

end Sys2Proof.Machine
end

