-- ==== Sys2Proof/Machine/Brocade.lean ====
section
/-! DEFINITION. The home slices of Brocade (R16, R184, R272 to R274): lines under keys, fills, write-back, ownership, and
the reads and writes that loads, stores, atomics, engines and outside agents make there. -/

namespace Sys2Proof.Machine

open Sys2Proof

/-- A tensor-table entry of a VF (R269). -/
def VF.tensor (v : VF) (t : Nat) : Tensor := AMap.lookD v.tensors t Tensor.reset

/-- A tensor-table entry. -/
def State.tensor (s : State) (v t : Nat) : Tensor := (s.vf v).tensor t

/-- The number of home slices of the package (R272). -/
def State.slices (s : State) : Nat := if s.variant = 1 then 64 else 128

/-- The home slice of a tile (R272). -/
def State.home (s : State) (k : Key) : Nat :=
  let h := (k.t * 0x9E3779B1 + (k.trow % 2 ^ 32) * 0x85EBCA77 + (k.tcol % 2 ^ 32) * 0xC2B2AE3D + k.vf * 0x27D4EB2F) % 2 ^ 32
  h / 65536 % s.slices

/-- The generation that a lookup of a key matches at its home slice: the entry's, less the advances that the slice has
still to apply (R273, R281). -/
def State.genAt (s : State) (k : Key) : Nat :=
  if k.t = 0 then 0
  else
    let t := s.tensor k.vf k.t
    if t.late.isEmpty then t.gen else (t.gen + 4096 - (t.late.filter (fun x => x == s.home k)).length) % 4096

/-! ## Ownership (R184) -/

/-- A core's L1 drops words of a line. -/
def Core.dropWords (c : Core) (k : Key) (m : BitVec 16) : Core :=
  { c with l1 := c.l1.map (fun l => if l.key = k then { l with valid := l.valid &&& ~~~m, owned := l.owned &&& ~~~m } else l) }

/-- The words that `n` bytes from an offset of a line touch. -/
def wordMask (off n : Nat) : BitVec 16 :=
  (List.range 16).foldl (fun m i => if 4 * i < off + n ∧ off < 4 * i + 4 then m ||| (1#16 <<< i) else m) 0#16

/-- The sectors that `n` bytes from an offset of a line touch. -/
def sectorMask (off n : Nat) : BitVec 4 :=
  (List.range 4).foldl (fun m i => if 16 * i < off + n ∧ off < 16 * i + 16 then m ||| (1#4 <<< i) else m) 0#4

/-- Revokes the ownership of words of a line, except by a core named. -/
def State.revoke (s : State) (l : BLine) (m : BitVec 16) (keep : Option Nat) : State :=
  l.owner.foldl (fun s p =>
    if m.getLsbD p.1 && !(some p.2 == keep) then s.onCore p.2 (fun c => c.dropWords l.key (1#16 <<< p.1)) else s) s

/-! ## Lines -/

/-- Writes the dirty sectors of a line back to memory, with their poison (R273, R181). -/
def State.writeBack (s : State) (l : BLine) : State :=
  match l.pa with
  | none => s
  | some pa =>
    (List.range 4).foldl (fun (s : State) i =>
      if l.dirty.getLsbD i then
        let key := (pa + 16 * i) / 16
        { s with
          mem := s.mem.putBytes (pa + 16 * i) ((l.data.drop (16 * i)).take 16),
          poison := if l.poison.getLsbD i then AMap.put s.poison key (l.covered.extractLsb' (16 * i) 16) else AMap.del s.poison key }
      else s) s

/-- Writes a line back and removes it; its owners lose it. -/
def State.evict (s : State) (l : BLine) : State :=
  let s1 := (s.writeBack l).revoke l 65535#16 none
  { s1 with brocade := s1.brocade.filter (fun x => !(x.key == l.key && x.gen == l.gen)) }

/-- The code of digit `d` of a packed ternary byte (R132, R133). -/
def tritOf (b d : Nat) : Nat :=
  if 243 ≤ b then 2
  else
    let x := b / 3 ^ d % 3
    if x = 2 then 3 else x

/-- An unpacked byte: four codes, from the packed bytes of the line (R274). `n0` is the first code's number. -/
def unpackByte (packed : Nat → Nat) (n0 : Nat) : Byte :=
  BitVec.ofNat 8 ((List.range 4).foldl (fun x i => x + 4 ^ i * tritOf (packed ((n0 + i) / 5)) ((n0 + i) % 5)) 0)

/-- The packed byte numbers that a line at unpacked offset `u` draws on (R274). -/
def packedSpan (u : Nat) : Nat × Nat := ((4 * u) / 5, (4 * u + 255) / 5)

/-- The memory lines whose translation a line request needs (R176, R274). -/
def State.linesOf (s : State) (k : Key) (va : Nat) : List Nat :=
  let t := s.tensor k.vf k.t
  if k.t ≠ 0 ∧ t.format = 1 then
    let p := packedSpan (va - t.vbase)
    let a := (t.pbase + p.1) / 64 * 64
    let b := (t.pbase + p.2) / 64 * 64
    if a = b then [a] else [a, b]
  else [va]

/-- A line as filled from memory (R274). -/
def State.filled (s : State) (k : Key) (va : Nat) (pas : List Nat) : BLine :=
  let t := s.tensor k.vf k.t
  if k.t ≠ 0 ∧ t.format = 1 then
    let u := va - t.vbase
    let p0 := (t.pbase + (packedSpan u).1) / 64 * 64
    let addr (n : Nat) : Nat := let x := t.pbase + n - p0
      getAt pas (x / 64) 0 + x % 64
    let packed (n : Nat) : Nat := (s.physByte (addr n)).toNat
    let bad (sec : Nat) : Bool :=
      (List.range 64).any (fun i => s.physPoison (addr ((4 * (u + 16 * sec) + i) / 5)))
    ⟨k, s.genAt k, none, (List.range 64).map (fun i => unpackByte packed (4 * (u + i))), 0#4,
      (List.range 4).foldl (fun m i => if bad i then m ||| (1#4 <<< i) else m) 0#4, 0#64, []⟩
  else
    let pa := pas.headD 0
    let look (i : Nat) : Option (BitVec 16) := AMap.look s.poison (pa / 16 + i)
    ⟨k, s.genAt k, some pa, s.mem.bytes pa 64, 0#4,
      (List.range 4).foldl (fun m i => if (look i).isSome then m ||| (1#4 <<< i) else m) 0#4,
      (List.range 4).foldl (fun m i => match look i with | some c => m ||| (c.setWidth 64 <<< (16 * i)) | none => m) 0#64, []⟩

/-- The line of the current generation, if present. -/
def State.lineOf (s : State) (k : Key) : Option BLine :=
  let g := s.genAt k
  s.brocade.find? (fun l => l.key == k && l.gen == g)

/-- Lines that stand for the same bytes under another name: an older generation of the key (R273), or another key. They
are written back before the key's own line is used. -/
def State.aliases (s : State) (k : Key) (pas : List Nat) : List BLine :=
  let g := s.genAt k
  let fmt1 : Bool := !(k.t == 0) && (s.tensor k.vf k.t).format == 1
  s.brocade.filter (fun l =>
    (l.key == k && !(l.gen == g)) || (!fmt1 && !(l.key == k) && l.pa.isSome && l.pa == pas.head?))

/-- Makes room for one line in a home slice, which holds 3 MiB: a full slice evicts one of its lines (R9, log 14). -/
def State.makeRoom (s : State) (slice : Nat) : State :=
  let mine := s.brocade.filter (fun l => s.home l.key == slice)
  if mine.length < 49152 then s
  else
    match mine.drop (Config.freeNat s.draws % mine.length) with
    | l :: _ => s.evict l
    | [] => s

/-- Brings a line into its home slice; a fill counts for the VF of the key, by the tier it comes from (R375, log 47). -/
def State.bring (s : State) (k : Key) (va : Nat) (pas : List Nat) : State × BLine :=
  let s1 := (s.aliases k pas).foldl State.evict s
  match s1.lineOf k with
  | some l => (s1, l)
  | none =>
    let s2 := s1.makeRoom (s1.home k)
    let l := s2.filled k va pas
    ({ s2 with brocade := s2.brocade ++ [l] }.count k.vf (if tierOf (pas.headD 0) = 0 then 0x07 else 0x08) 1, l)

/-- Replaces a line. -/
def State.putLine (s : State) (l : BLine) : State :=
  { s with brocade := s.brocade.map (fun x => if x.key = l.key ∧ x.gen = l.gen then l else x) }

/-- The bits of the bytes from an offset. -/
def byteMask (off n : Nat) : BitVec 64 := BitVec.ofNat 64 ((2 ^ n - 1) * 2 ^ off)

/-- The bytes of the sectors in a mask. -/
def sectorBytes (m : BitVec 4) : BitVec 64 :=
  (List.range 4).foldl (fun x i => if m.getLsbD i then x ||| byteMask (16 * i) 16 else x) 0#64

/-- A line with bytes written: a poisoned sector is clean once all its bytes have been written since (R181). -/
def BLine.write (l : BLine) (off : Nat) (bs : List Byte) : BLine :=
  let cov := l.covered ||| (byteMask off bs.length &&& sectorBytes l.poison)
  let healed (i : Nat) : Bool := l.poison.getLsbD i && cov.extractLsb' (16 * i) 16 == 65535#16
  let poison := (List.range 4).foldl (fun m i => if healed i then m &&& ~~~(1#4 <<< i) else m) l.poison
  { l with data := spliceBytes l.data off bs, dirty := l.dirty ||| sectorMask off bs.length, poison := poison,
           covered := cov &&& sectorBytes poison }

/-! ## What agents do at a home slice -/

/-- Reads bytes of a line, and whether one of their sectors is poisoned. -/
def State.homeRead (s : State) (k : Key) (va : Nat) (pas : List Nat) (off n : Nat) : State × List Byte × Bool :=
  let r := s.bring k va pas
  (r.1, (r.2.data.drop off).take n, !(r.2.poison &&& sectorMask off n == 0#4))

/-- Bytes of a line with the words in a mask replaced by another copy's. -/
def takeWords (old new : List Byte) (m : BitVec 16) : List Byte :=
  (List.range 64).map (fun i => if m.getLsbD (i / 4) then getAt new i 0#8 else getAt old i 0#8)

/-- Writes bytes of a line: the words' other owners are revoked, and a core that stores becomes their owner; its own L1 copy
takes those words as they then stand, so that a word it comes to own holds no stale byte (R184, R191). -/
def State.homeWrite (s : State) (k : Key) (va : Nat) (pas : List Nat) (off : Nat) (bs : List Byte) (owner : Option Nat) : State :=
  let r := (s.unfreeze pas).bring k va pas
  let m := wordMask off bs.length
  let s1 := r.1.revoke r.2 m owner
  let free := r.2.owner.filter (fun p => !(m.getLsbD p.1))
  let own := match owner with
    | some c => (List.range 16).foldl (fun o i => if m.getLsbD i then AMap.put o i c else o) free
    | none => free
  let line := { (r.2.write off bs) with owner := own }
  let s2 := s1.putLine line
  match owner with
  | some c => s2.onCore c (fun x => { x with l1 := x.l1.map (fun l => if l.key = k then { l with data := takeWords l.data line.data m } else l) })
  | none => s2

/-- The flat key of a virtual line (R173). -/
def flatKey (v va : Nat) : Key := ⟨v, 0, 0, va / 4096, va / 64 % 64⟩

/-- The key of the line at element index `i` and byte address `a` of a record (R173, R319). -/
def State.keyOf (s : State) (v : Nat) (b : BufRec) (i o' a : Nat) : Key :=
  let t := (b.extractLsb' 112 16).toNat
  if t = 0 then flatKey v a
  else
    let e := s.tensor v t
    let es := 2 ^ (b.extractLsb' 52 4).toNat
    if e.format = 2 then
      let pb := match AMap.look (s.vf v).pools t with | some p => 64 + 8192 * p.pay | none => 64
      let l := o' % pb / 64
      ⟨v, t, o' / pb, l / 1024, l % 1024⟩
    else
      let st := (b.extractLsb' 96 16).toNat
      let r := i / st
      let c := i % st
      ⟨v, t, r / e.tr, c / e.tc, (r % e.tr) * (e.tc * es / 64) + (c % e.tc) * es / 64⟩

end Sys2Proof.Machine
end

