-- ==== Sys2Proof/Machine/PoolData.lean ====
section
/-! DEFINITION. The stored form of page headers and sequence records (R317, R320): the agent's structured copy and its
mirror in memory, and writes by the device's own agents at physical and virtual addresses. -/

namespace Sys2Proof.Machine

open Sys2Proof

/-- Poison after one byte is written: a sector whose bytes have all been written since is clean (R181). -/
def coverPoison (m : AMap (BitVec 16)) (pa : Nat) : AMap (BitVec 16) :=
  match AMap.look m (pa / 16) with
  | none => m
  | some c => let d := c ||| (1#16 <<< (pa % 16))
    if d = 65535#16 then AMap.del m (pa / 16) else AMap.put m (pa / 16) d

/-- The part of `n` bytes from a physical address that lies in a Brocade line: its offset in the line and its length. -/
def BLine.part (l : BLine) (pa n : Nat) : Option (Nat × Nat) :=
  match l.pa with
  | some p => if p < pa + n ∧ pa < p + 64 then some (pa - p, min (pa + n) (p + 64) - max pa p) else none
  | none => none

/-- A Brocade line with bytes written by an agent: their words have no owner any more. -/
def BLine.poke (l : BLine) (off : Nat) (bs : List Byte) : BLine :=
  { l.write off bs with dirty := l.dirty, owner := l.owner.filter (fun p => !((wordMask off bs.length).getLsbD p.1)) }

/-- Replaces bytes from a physical address in Brocade where their lines are present, and in memory; owners lose the words. -/
def State.physPutRaw (s : State) (pa : Nat) (bs : List Byte) : State :=
  let s1 := s.brocade.foldl (fun s l => match l.part pa bs.length with
    | some q => s.revoke l (wordMask q.1 q.2) none
    | none => s) s
  let poke (l : BLine) : BLine := match l.part pa bs.length, l.pa with
    | some q, some p => l.poke q.1 ((bs.drop (p - pa)).take q.2)
    | _, _ => l
  { s1 with
    mem := s1.mem.putBytes pa bs, poison := (List.range bs.length).foldl (fun m i => coverPoison m (pa + i)) s1.poison,
    brocade := s1.brocade.map poke }

/-- A registered write of a device agent to physical addresses; frozen pieces are copied first (R371). -/
def State.physPut (s : State) (pa : Nat) (bs : List Byte) : State :=
  (s.unfreeze ((List.range ((pa % 65536 + bs.length + 65535) / 65536)).map (fun i => pa / 65536 * 65536 + 65536 * i))).physPutRaw pa bs

/-- A registered write of a device agent at a virtual address of a VF, within one line; none where no page maps it. -/
def State.agentWrite (s : State) (k : Key) (va off : Nat) (bs : List Byte) : State :=
  match s.walk k.vf va true with
  | .ok pa => s.homeWrite k va [pa] off bs none
  | .fault _ => s

/-- The pool of a VF's tensor entry. -/
def State.pool (s : State) (v t : Nat) : Option Pool := AMap.look (s.vf v).pools t

/-- Replaces a pool. -/
def State.setPool (s : State) (v t : Nat) (p : Pool) : State :=
  let x := s.vf v
  s.setVf v { x with pools := AMap.put x.pools t p }

/-- The size of a page (R316). -/
def Pool.pageBytes (p : Pool) : Nat := 64 + 8192 * p.pay

/-- The header of a free page (R317). -/
def Pool.freeHeader (v : Nat) (p : Pool) (g : Nat) : PageHeader :=
  ⟨v, if g < p.nhbm then 0 else 1, false, 0, 0, 0#16, 0#16, List.replicate 16 0, 0#32, 0xFFFFFFFF#32, 0xFFFFFFFF#32,
    0xFFFFFFFF#32, false⟩

/-- A page's header. -/
def Pool.header (v : Nat) (p : Pool) (g : Nat) : PageHeader := AMap.lookD p.headers g (p.freeHeader v g)

/-- A header as its 64 bytes (R317). -/
def PageHeader.pack (h : PageHeader) : List Byte :=
  let tags := (List.range 16).foldl (fun n i => n + getAt h.tags i 0 * 16 ^ i) 0
  leBytes (h.succ.toNat + h.pred.toNat * 2 ^ 32 + h.seq.toNat * 2 ^ 64 + h.first.toNat * 2 ^ 96 + tags * 2 ^ 128 +
    h.invalid.toNat * 2 ^ 192 + h.retired.toNat * 2 ^ 208 + h.share * 2 ^ 224 + h.valid * 2 ^ 232 +
    (if h.poison then 2 ^ 237 else 0) + h.tier * 2 ^ 238 + h.vf * 2 ^ 240) 64

/-- The key of a line of a page: `l` is the line number within the page (R319). -/
def pageKey (v t g l : Nat) : Key := ⟨v, t, g, l / 1024, l % 1024⟩

/-- Writes a page's header, at the agent and in memory. -/
def State.putHeader (s : State) (v t g : Nat) (h : PageHeader) : State :=
  match s.pool v t with
  | none => s
  | some p =>
    let va := (s.tensor v t).vbase + g * p.pageBytes
    (s.setPool v t { p with headers := AMap.put p.headers g h }).agentWrite (pageKey v t g 0) va 0 h.pack

/-- A sequence record not in use, cleared. -/
def SeqRec.free : SeqRec := ⟨0#32, 0#32, 0#32, false, []⟩

/-- A sequence record. -/
def Pool.seq (p : Pool) (i : Nat) : SeqRec := AMap.lookD p.seqs i SeqRec.free

/-- A record as its 64 bytes (R320). -/
def SeqRec.pack (r : SeqRec) : List Byte :=
  let br := (List.range 4).flatMap (fun i => match r.branches.drop i with | (a, b) :: _ => [a, b] | [] => [0#32, 0#32])
  wordsBytes ([r.head, r.tail, r.nextPos, BitVec.ofNat 32 (r.branches.length + (if r.live then 256 else 0))] ++ br ++
    [0#32, 0#32, 0#32, 0#32])

/-- Writes a sequence record, at the agent and in memory. -/
def State.putSeq (s : State) (v t i : Nat) (r : SeqRec) : State :=
  match s.pool v t with
  | none => s
  | some p =>
    let va := p.seqbase + 64 * i
    (s.setPool v t { p with seqs := AMap.put p.seqs i r }).agentWrite (flatKey v va) va 0 r.pack

/-- A poisoned sector of a page was found: its header's POISON is set (R326); a poisoned header loses SUCC. -/
def State.markPage (s : State) (k : Key) : State :=
  match s.pool k.vf k.t with
  | none => s
  | some p =>
    let h := p.header k.vf k.trow
    let lost := h.lost || (decide (k.tcol = 0) && decide (k.line = 0))
    let h1 := { h with poison := true, lost := lost }
    if lost then s.setPool k.vf k.t { p with headers := AMap.put p.headers k.trow h1 } else s.putHeader k.vf k.t k.trow h1

end Sys2Proof.Machine
end

