-- ==== Sys2Proof/Machine/HostAssist.lean ====
section
/-! DEFINITION. The host-assist queue of a partition: posting a record (R392). -/

namespace Sys2Proof.Machine

open Sys2Proof

/-- The number of requests attached to an entry of a cluster's translation table (R201): lines, engine elements, matrix
store elements and grammar words that wait on it. -/
def State.attached (s : State) (cl e : Nat) : Nat :=
  let cores := (List.range 4).map (fun i => s.core (4 * cl + i))
  let lines := cores.flatMap (fun c => c.reqs.filter (fun r => r.stage == .faulted e))
  let msts := cores.flatMap (fun c => c.msts.filter (fun m => m.stalled == some e))
  let slots := (s.cluster cl).jslots.filter (fun p => p.2.stalled == some e)
  let words := cores.flatMap (fun c => c.threads.filter (fun p => match p.2.hold with | .grammar _ n _ => n == e | _ => false))
  lines.length + msts.length + slots.length + words.length

/-- Words 0 to 4 of a translation request (R201). -/
def State.xlateWords (s : State) (cl e : Nat) : List Word :=
  match AMap.look (s.cluster cl).xtab e with
  | none => [0#32, 0#32, 0#32, 0#32, 0#32]
  | some x =>
    let va := x.page * 65536
    [BitVec.ofNat 32 (e + x.gen.toNat * 256),
     BitVec.ofNat 32 (x.vf + (if x.write then 256 else 0) + (if x.protect then 512 else 0)),
     BitVec.ofNat 32 (va % 2 ^ 32), BitVec.ofNat 32 (va / 2 ^ 32), BitVec.ofNat 32 (min 65535 (max 1 (s.attached cl e)))]

/-- Words 1 to 7 of a host-assist record, and its KIND. -/
def State.haWords (s : State) : HaKind → Nat × List Word
  | .xlate cl e _ => (1, s.xlateWords cl e ++ [0#32, 0#32])
  | .copy r => (2, [BitVec.ofNat 32 r.t, BitVec.ofNat 32 r.s, BitVec.ofNat 32 r.g, BitVec.ofNat 32 r.vf, 0#32, 0#32, 0#32])
  | .relaunch v slot patch =>
    (4, [BitVec.ofNat 32 slot, BitVec.ofNat 32 (patch % 2 ^ 32), BitVec.ofNat 32 (patch / 2 ^ 32), BitVec.ofNat 32 v, 0#32, 0#32, 0#32])
  | .pieces a n => (6, [BitVec.ofNat 32 a, BitVec.ofNat 32 n, 0#32, 0#32, 0#32, 0#32, 0#32])

/-- Whether a partition's host-assist queue is full (R398). -/
def Part.haFull (p : Part) : Bool := (p.haTail + 1) % 256 == p.haHead

/-- Writes one record at TAIL and raises the host-assist vector (R392). -/
def State.writeHa (s : State) (part : Nat) (p : Part) (k : HaKind) : State :=
  let w := s.haWords k
  let rec0 := wordsBytes (BitVec.ofNat 32 (w.1 * 2 ^ 28 + p.haTag.toNat) :: w.2)
  let p1 := { p with haTail := (p.haTail + 1) % 256, haTag := p.haTag + 1#16, haPending := p.haPending ++ [(p.haTag, k)] }
  ((s.setPart part p1).physPut (p.haqbase + 32 * p.haTail) rec0).send (.msixPf 2)

/-- Posts a record: it is written, or waits at its source while the queue is full. -/
def State.postHa (s : State) (part : Nat) (k : HaKind) : State :=
  match AMap.look s.parts part with
  | none => s
  | some p => if p.haFull || !p.haWaiting.isEmpty then s.setPart part { p with haWaiting := p.haWaiting ++ [k] } else s.writeHa part p k

/-- Writes waiting records while there is room. -/
def State.drainHa (part : Nat) : Nat → State → State
  | 0, s => s
  | n + 1, s =>
    match AMap.look s.parts part with
    | none => s
    | some p =>
      match p.haWaiting with
      | [] => s
      | k :: ks => if p.haFull then s else State.drainHa part n (s.writeHa part { p with haWaiting := ks } k)

/-- Posts a record for the partition of a VF. -/
def State.postHaVf (s : State) (v : Nat) (k : HaKind) : State :=
  match s.partOfVf v with
  | some p => s.postHa p k
  | none => s

end Sys2Proof.Machine
end

