-- ==== Sys2Proof/Machine/Access.lean ====
section
/-! DEFINITION. From index to line (R170 to R175, R187, R188): how a lane's access is formed and checked, the fault queue
(R181 to R183, R203, R204), and how a word's accesses are accepted as requests. -/

namespace Sys2Proof.Machine

open Sys2Proof

/-! ## Buffer records (R170, R171) -/

def bTensor (b : BufRec) : Nat := (b.extractLsb' 112 16).toNat
def bStride (b : BufRec) : Nat := (b.extractLsb' 96 16).toNat
def bExtent (b : BufRec) : Nat := (b.extractLsb' 64 32).toNat
def bSpace (b : BufRec) : Nat := (b.extractLsb' 62 2).toNat
def bSwz (b : BufRec) : Nat := (b.extractLsb' 56 2).toNat
def bEsize (b : BufRec) : Nat := (b.extractLsb' 52 4).toNat
def bBase (b : BufRec) : Nat := (b.extractLsb' 0 52).toNat

/-- Whether a record is valid (R171). -/
def recValid (b : BufRec) : Bool :=
  let es := 2 ^ bEsize b
  (b.extractLsb' 58 4 == 0#4) && !(bSpace b == 3) && decide (bEsize b ≤ 4) && (bBase b % es == 0) &&
  (!(decide (bSwz b ≠ 0) || decide (bTensor b ≠ 0)) || bBase b % 64 == 0) &&
  (if bTensor b ≠ 0 then bSpace b == 0 && decide (1 ≤ bStride b) && (bStride b * es) % 64 == 0 else bStride b == 0) &&
  (!(bSpace b == 1) || decide (bBase b < 2 ^ 18)) && (!(bSpace b == 2) || decide (bBase b < 2 ^ 20))

/-- The record a warp word reads in a cycle: where a BUFSET is less than 4 cycles old, the new record or the old one, as pipe M
accepts the word later or at once (R193, log 106). -/
def pickBuf (draw n now : Nat) : List (Nat × BufRec × Nat) → BufRec → BufRec
  | [], b => b
  | (m, old, t) :: es, b =>
    if m = n ∧ now < t + 4 then (if Config.freeBool draw (7000 + es.length) n then b else pickBuf draw n now es old)
    else pickBuf draw n now es b

/-- A buffer record as a warp word reads it. -/
def Core.buf (c : Core) (draw n : Nat) : BufRec := pickBuf draw n c.clock c.bufOld (AMap.lookD c.bufs n 0#128)

/-! ## Forming an access (R173) -/

/-- The sector swizzle. -/
def swz (o n : Nat) : Nat := if n = 0 then o else o ^^^ (((o >>> (5 + 2 * n)) &&& 3) <<< 4)

/-- How a peer core stands to an access through the cluster window (R188). -/
inductive Peer where
  | ok
  | notYet
  | absent
  deriving DecidableEq, Repr

/-- The state of a window target (R28, R188). -/
def State.peer (s : State) (core target : Nat) : Peer :=
  if target = core then .ok
  else
    let c := s.core core
    let p := s.core target
    if p.launch = c.launch ∧ c.launch.isSome = true ∧ p.inst = c.inst then
      if !p.started then .notYet
      else if p.threads.isEmpty && (match p.fe with | some f => f.ended | none => true) then .absent
      else .ok
    else .absent

/-- Step 0 of R173: whether the record breaks R174, R271 or R319, for a read or a write. -/
def State.recordBad (s : State) (v : Nat) (b : BufRec) (write : Bool) : Bool :=
  let t := bTensor b
  if bSpace b = 0 ∧ t ≠ 0 then
    let e := s.tensor v t
    decide (4096 ≤ t) || !(e.state == 1) || !(bBase b == e.vbase) ||
      (if e.format = 2 then !(bStride b * 2 ^ bEsize b == 64) else !(bStride b == e.stride) || !(bEsize b == e.esize)) ||
      (write && e.format == 1)
  else false

/-- The bytes of scratchpad that a core's launch claims (R89). -/
def State.claimBytes (s : State) (core : Nat) : Nat := match s.header core with | some h => 1024 * h.scratchKiB | none => 0

/-- An access as formed: element index, unswizzled offset, address, and the cause of its fault in R181 codes, if any. A
window access to a peer that has not started is marked. -/
structure Access where
  index : Nat
  off : Nat
  addr : Nat
  fault : Option Nat
  waits : Bool
  deriving DecidableEq, Repr

/-- Forms the access to element `i` with `w` bytes through a record (R173). -/
def State.form (s : State) (core v : Nat) (b : BufRec) (i w : Nat) (write : Bool) : Access :=
  let es := 2 ^ bEsize b
  let o := i * es
  let a := bBase b + swz o (bSwz b)
  let t := bTensor b
  let e := s.tensor v t
  let claim := s.claimBytes core
  let rows : Bool :=
    if bSpace b = 0 ∧ t ≠ 0 then
      if e.format = 2 then
        let pb := match s.pool v t with | some p => p.pageBytes | none => 64
        let n := match s.pool v t with | some p => p.npages | none => 0
        decide (n ≤ o / pb) || (write && decide (o % pb < 64))
      else decide (e.rows ≤ i / bStride b)
    else false
  let bounds : Bool :=
    s.recordBad v b write || decide (bExtent b * es < o + w) || rows ||
    (bSpace b == 0 && decide (2 ^ 52 < a + w)) || (bSpace b == 1 && decide (claim < a + w)) ||
    (bSpace b == 2 && (decide (2 ^ 20 < a + w) || decide (claim < a % 2 ^ 18 + w)))
  if bounds then ⟨i, o, a, some 1, false⟩
  else if a % w ≠ 0 then ⟨i, o, a, some 2, false⟩
  else if bSpace b = 2 then
    match s.peer core (4 * clusterOf core + a / 2 ^ 18) with
    | .ok => ⟨i, o, a, none, false⟩
    | .notYet => ⟨i, o, a, none, true⟩
    | .absent => ⟨i, o, a, some 3, false⟩
  else ⟨i, o, a, none, false⟩

/-- The core whose scratchpad an access of SPACE 1 or 2 reaches, and the byte there (R187, R188). -/
def scratchPlace (core : Nat) (b : BufRec) (a : Nat) : Nat × Nat :=
  if bSpace b = 2 then (4 * clusterOf core + a / 2 ^ 18, a % 2 ^ 18) else (core, a)

/-! ## The fault queue -/

/-- Appends a record; a full queue discards it and counts it (R183). -/
def Core.addRecord (c : Core) (r : FaultRecord) : Core :=
  if c.faultq.length < 128 then { c with faultq := c.faultq ++ [r] } else { c with lost := min 65535 (c.lost + 1) }

/-- Counts the records that a core's queue gained (R375). -/
def State.countRecords (s before : State) (core : Nat) : State :=
  s.count (s.vfOf core) 0x0F ((s.core core).faultq.length - (before.core core).faultq.length)

/-- A fault record (R182). -/
def packRecord (tid pc : Word) (buf nruns lane : Nat) (store : Bool) (sz cause : Nat) (i a : Nat) (mask : BitVec 64) : FaultRecord :=
  [tid, pc,
   BitVec.ofNat 32 (buf * 2 ^ 24 + (nruns - 1) % 64 * 2 ^ 18 + lane * 2 ^ 12 + (if store then 2 ^ 11 else 0) + sz * 2 ^ 8 + cause),
   BitVec.ofNat 32 i, BitVec.ofNat 32 a, BitVec.ofNat 32 (a / 2 ^ 32 % 2 ^ 20), mask.setWidth 32, mask.extractLsb' 32 32]

/-- SZ of a record for an access of a request: a store's or atomic's follows from its width (R182, R195). -/
def Req.sz (r : Req) : Nat :=
  match r.kind with
  | .load z => z.toNat
  | _ => if r.width = 1 then 0 else if r.width = 2 then 2 else if r.width = 4 then 4 else if r.width = 8 then 5 else 6

/-- The record of one lane of a request. -/
def Req.record (r : Req) (l : LaneReq) (cause : Nat) : FaultRecord :=
  packRecord l.tid r.pc r.buf r.nruns l.lane (r.kind == .store && !(r.space == 1)) r.sz cause l.index l.addr r.runMask

/-- The number of distinct PCs among a warp's live threads as a run issues at a PC (R182). -/
def Core.nruns (c : Core) (warp : Nat) (run : List Nat) (pc : Word) : Nat :=
  let at_ (p : Nat × Thread) : Bool × Nat := (p.2.inHandler, (if run.contains p.1 then pc else p.2.pc).toNat)
  (dedup ((c.threads.filter (fun p => p.2.warp == warp)).map at_)).length

/-- The lanes of a run as a mask. -/
def Core.runMask (c : Core) (us : List Nat) : BitVec 64 := BitVec.ofNat 64 (us.foldl (fun m u => m + 2 ^ (c.th u).lane) 0)

/-! ## Accepting a word -/

/-- What a memory word asks of each lane. -/
structure MemWord where
  kind : ReqKind
  spaces : List Nat
  buf : BitVec 5
  idx : Reg
  width : Nat
  flag : Bool
  /-- Registers written, and how many. -/
  dst : Reg
  ndst : Nat
  /-- Store data, or operand and new value, by thread. -/
  data : Nat → List Byte
  data2 : Nat → List Byte
  /-- Whether the access counts as a write for R271 and R318. -/
  write : Bool
  release : Bool

/-- The trap that R204 gives a word of these lanes: the lowest lane whose cause has its TRAP bit set. -/
def trapLane (ftrap : BitVec 3) : List (Nat × Access) → Option (Nat × Access)
  | [] => none
  | x :: t =>
    match x.2.fault with
    | some n => if ftrap.getLsbD (n - 1) then some x else trapLane ftrap t
    | none => trapLane ftrap t

/-- The trap cause of a lane-fault code. -/
def laneCause (n : Nat) : Cause := if n = 1 then .bounds else if n = 2 then .misaligned else .peerAbsent

/-- A result and flag for one lane of a word, its rows made the thread's own. -/
def Core.openPend (c : Core) (u : Nat) (dst : Reg) (n : Nat) (f : Bool) : Res (Core × Nat) :=
  (c.claimPlaces u dst n).map (fun r =>
    let t := r.1.th u
    let fl := selFlag t.setA t.setB f
    let c1 := match fl with
      | some i => r.1.updTh u (fun t => { t with flags := raiseFlag t.flags i })
      | none => r.1
    c1.addPend ⟨u, dst.toNat, r.2, fl, [.thread u], 0⟩)

/-- The base of a request of a word. -/
def Req.base (k : ReqKind) (core : Nat) (width : Nat) (pc : Word) : Req :=
  ⟨0, k, .ready, 0, 0, ⟨0, 0, 0, 0, 0⟩, 0, [], core, width, 0, 0#128, pc, 0#64, 1, [], [], 0, false⟩

/-- Adds one lane to the requests of its word: it joins the request of its line, or opens one (R175). -/
def joinReq (r : Req) (l : LaneReq) : List Req → List Req
  | [] => [{ r with lanes := [l] }]
  | x :: t => if x.key = r.key ∧ x.target = r.target then { x with lanes := x.lanes ++ [l] } :: t else x :: joinReq r l t

/-- The lane's part of a request, as accepted. -/
def Core.laneReq (c : Core) (m : MemWord) (u : Nat) (a : Access) (pend : Nat) : LaneReq :=
  ⟨u, (c.th u).lane, (c.th u).tid, a.index, a.addr, m.data u, m.data2 u, pend, none, false⟩

/-- One lane accepted: a fault is suppressed and recorded, any other access joins the word's requests. -/
def acceptLane (s : State) (core v : Nat) (b : BufRec) (m : MemWord) (base : Req) (x : Nat × Access) (st : Core × List Req) :
    Res (Core × List Req) :=
  (st.1.openPend x.1 m.dst m.ndst m.flag).bind (fun r =>
    let l := r.1.laneReq m x.1 x.2 r.2
    match x.2.fault with
    | some n => .ok (((r.1.complete r.2 (List.replicate m.ndst 0#32)).addRecord (base.record l n)), st.2)
    | none =>
      if bSpace b = 0 then
        let va := x.2.addr / 64 * 64
        .ok (r.1, joinReq { base with key := s.keyOf v b x.2.index x.2.off x.2.addr, va := va, stage := .walk } l st.2)
      else
        let p := scratchPlace core b x.2.addr
        .ok (r.1, joinReq { base with key := ⟨0, 0, 0, p.2 / 16, 0⟩, target := p.1 } { l with addr := x.2.addr } st.2))

/-- Numbers the requests of a word. -/
def Core.addReqs (c : Core) : List Req → Core
  | [] => c
  | r :: rs => Core.addReqs { c with reqs := c.reqs ++ [{ r with id := c.nextReq }], nextReq := c.nextReq + 1 } rs

/-- Whether pipe M accepts a SPACE-0 word (R176, R178). -/
def Core.accepts (c : Core) : Bool := !(c.reqs.any (fun r => r.stage == .stuck))

/-- FAULTQ.TRAP as a word of pipe M meets it: a SYSWR acts on words accepted 4 or more cycles after it (R183, R380). -/
def State.ftrapAt (s : State) (core : Nat) : BitVec 3 :=
  (s.sysNow core noUid 0x01 (BitVec.ofNat 64 ((s.core core).ftrap.toNat * 4))).extractLsb' 2 3

/-- The effect of a memory word at issue (R173 to R175, R196, R204). The state is that of the word with its PC advanced. -/
def acceptWord (s : State) (act : List Nat) (m : MemWord) : Res State :=
  let core := s.cur.core
  let c := s.core core
  let draw := s.cur.draw
  let v := s.vfOf core
  let b := c.buf draw m.buf.toNat
  let c3 := s.ext.c3
  let off (u : Nat) : Nat := if c3 = 0#7 then 0 else (c.readReg draw u c3).toNat
  if !(m.spaces.contains (bSpace b)) then .trap (trapAt .illegalOperand s.lowLane)
  else if (bSpace b == 0 && !c.accepts) || c.flagFull act m.flag then .wait false
  else
    let accs := act.map (fun u => (u, s.form core v b ((c.readReg draw u m.idx).toNat + off u) m.width m.write))
    match trapLane (s.ftrapAt core) accs with
    | some x =>
      .trap ⟨laneCause (match x.2.fault with | some n => n | none => 1), (c.th x.1).lane, BitVec.ofNat 32 x.2.index, none⟩
    | none =>
      if accs.any (fun x => x.2.waits) then .wait true
      else
        let after := if m.release then act.flatMap c.pendingOf else []
        let base : Req :=
          { Req.base m.kind core m.width s.cur.pc with
            word := c.nextReq, space := bSpace b, buf := m.buf.toNat, brec := b, runMask := c.runMask s.cur.run,
            nruns := c.nruns s.cur.warp s.cur.run s.cur.gpc, after := after, epoch := c.epoch }
        (forEach (acceptLane s core v b m base) accs (c, [])).map (fun r =>
          let c1 := match m.kind with
            | .atomic .. => if bSpace b = 0 then r.2.foldl (fun (c : Core) (q : Req) => c.dropWords q.key 65535#16) r.1 else r.1
            | _ => r.1
          (s.setCore core (c1.addReqs r.2)).countRecords s core)

/-- A memory word's registers: a block of one class, or zero (R195); a constant where one register of at most 4 bytes is
read. -/
def Core.dataOk (c : Core) (u : Nat) (r : Reg) (n : Nat) (zero const : Bool) : Bool :=
  (zero && r == 108#7) || (const && n == 1 && decide (112 ≤ r.toNat)) || c.blockOk u r n

/-- The specifiers that form a word's index. -/
def State.idxRegs (s : State) (idx : Reg) : List Reg := if s.ext.c3 = 0#7 then [idx] else [idx, s.ext.c3]

/-- The low `w` bytes of the registers from one specifier; zero and constants supply their value. -/
def Core.dataBytes (c : Core) (draw u : Nat) (r : Reg) (n w : Nat) : List Byte :=
  if r = 108#7 then List.replicate w 0#8 else (wordsBytes (c.readBlock draw u r n)).take w

end Sys2Proof.Machine
end

