-- ==== Sys2Proof/Machine/Barrier.lean ====
section
/-! DEFINITION. Barrier objects (R213, R214): their fields in the scratchpad and the four events that change them. -/

namespace Sys2Proof.Machine

open Sys2Proof

/-- The fields of a barrier object (R213). -/
structure Bar where
  pending : Nat
  count : Nat
  left : Nat
  early : Nat
  phase : Word
  deriving DecidableEq, Repr

/-- Barrier `n` of a core. -/
def Core.bar (c : Core) (n : Nat) : Bar :=
  let x := leNat (c.scratch.bytes (16 * n) 16)
  ⟨bits x 47 0, bits x 63 48, bits x 79 64, bits x 95 80, BitVec.ofNat 32 (x / 2 ^ 96)⟩

/-- Stores a barrier's fields. -/
def Core.setBar (c : Core) (n : Nat) (b : Bar) : Core :=
  let x := b.pending + b.count * 2 ^ 48 + b.left * 2 ^ 64 + b.early * 2 ^ 80 + b.phase.toNat * 2 ^ 96
  { c with scratch := c.scratch.putBytes (16 * n) (leBytes x 16) }

/-- Whether a barrier's phase completes (R214). -/
def Bar.full (b : Bar) : Bool := !(b.count == 0) && b.left == 0 && b.pending == 0

/-- A barrier after its phase has completed. -/
def Bar.advance (b : Bar) : Bar :=
  let k := min b.early b.count
  { b with phase := b.phase + 1#32, left := b.count - k, early := b.early - k }

/-- check(b): a phase that completes leaves a barrier that may be checked again in the next cycle (R214). -/
def Core.checkBar (c : Core) (n : Nat) : Core :=
  let b := c.bar n
  if b.full then
    let b1 := b.advance
    let c1 := c.setBar n b1
    if b1.left = 0 then { c1 with recheck := c1.recheck ++ [n] } else c1
  else c

/-- expect(b, m). -/
def Core.expectBar (c : Core) (n m : Nat) : Core :=
  let b := c.bar n
  (c.setBar n { b with pending := (b.pending + m) % 2 ^ 48 }).checkBar n

/-- credit(b, m). -/
def Core.creditBar (c : Core) (n m : Nat) : Core :=
  let b := c.bar n
  (c.setBar n { b with pending := (b.pending + 2 ^ 48 - m % 2 ^ 48) % 2 ^ 48 }).checkBar n

/-- arrive(b), with the phase it returns. -/
def Core.arriveBar (c : Core) (n : Nat) : Core × Word :=
  let b := c.bar n
  if b.count = 0 then (c, b.phase)
  else if b.left = 0 then
    (c.setBar n { b with early := min (b.early + 1) 65535 }, b.phase + 1#32 + BitVec.ofNat 32 (b.early / b.count))
  else ((c.setBar n { b with left := b.left - 1 }).checkBar n, b.phase)

/-- The barriers of a core's launch: a number beyond its claim names none (R217). -/
def State.barOk (s : State) (core n : Nat) : Bool := decide (16 * n + 15 < s.claimBytes core)

/-- BARRIER_RECHECK (R214). -/
def execBarrierRecheck (core barrier : Nat) (s : State) : Host.Outcome State Fault Refusal :=
  let c := s.core core
  if c.recheck.contains barrier then
    .next (s.setCore core ({ c with recheck := c.recheck.erase barrier }.checkBar barrier))
  else .next s

end Sys2Proof.Machine
end

