-- ==== Sys2Proof/Machine/Collective.lean ====
section
/-! DEFINITION. The rule that binds collectives to the PC table (R65), and the member masks of cross-lane words (R157). -/

namespace Sys2Proof.Machine

open Sys2Proof

/-- The live thread of a warp's lane that a collective counts as a member: not one parked by OFFER (R303). -/
def Core.member (c : Core) (warp lane : Nat) : Option Nat :=
  let u := uidOf warp lane
  match AMap.look c.threads u with
  | some t => (match t.hold with | .parked .. => none | _ => some u)
  | none => none

/-- Whether a lane holds a live thread, parked or not. -/
def Core.liveLane (c : Core) (warp lane : Nat) : Bool := AMap.has c.threads (uidOf warp lane)

/-- The PC that a member counts with at a collective: at one of the launch segment a thread in a handler stands at the PC of
its trap entry (R361). -/
def Core.convPc (c : Core) (handler : Bool) (u : Nat) : Nat :=
  let t := c.th u
  if t.inHandler && !handler then (match t.trapEntry with | some e => (c.entry e).pc.toNat | none => 0) else t.pc.toNat

/-- Whether two threads stand in the handler of one trap (R360). -/
def Thread.sameTrap (a b : Thread) : Bool := a.inHandler && b.inHandler && a.trapNo == b.trapNo

/-- Bit `i` of a lane mask. -/
def inMask (m i : Nat) : Bool := tbit m i

/-- The cases of R65 for a collective of the run in hand with a member mask, and in a handler the case of R360: a member outside
the trapped run. Where it waits, it waits as one run. -/
def collect65 (c : Core) (cur : Cur) (width : Nat) (act : List Nat) (mask : Nat) (matrix : Bool) : Res Unit :=
  let low := match cur.run with | u :: _ => (c.th u).lane | [] => 0
  let lead := c.th (cur.run.headD 0)
  let members := (List.range width).filter (inMask mask)
  let outside := (members.filterMap (c.member cur.warp)).filter (fun u => !(cur.run.contains u))
  match act.find? (fun u => !(inMask mask (c.th u).lane)) with
  | some u => .trap (trapAt .illegalConvergence (c.th u).lane)
  | none =>
    if outside.any (fun u => decide (cur.pc.toNat < c.convPc lead.inHandler u)) then .trap (trapAt .illegalConvergence low)
    else if lead.inHandler && outside.any (fun u => !(lead.sameTrap (c.th u))) then .trap (trapAt .illegalConvergence low)
    else if matrix && !((List.range width).all (fun i => cur.run.contains (uidOf cur.warp i))) then
      .trap (trapAt .illegalConvergence low)
    else if !(outside.isEmpty) || !cur.head then .waitAll
    else .ok ()

/-- Every lane of the warp. -/
def fullMask (width : Nat) : Nat := 2 ^ width - 1

/-- The mask of the lanes of threads. -/
def Core.lanesMask (c : Core) (us : List Nat) : Nat := us.foldl (fun m u => m + 2 ^ (c.th u).lane) 0

/-- The member mask that C3 names (R157), and whether it is the issuing run's; ILLEGAL_OPERAND for a bad specifier, a bit
beyond the width, or values that differ between lanes. A register that no lane reads, since the guard holds in none, names no
lane, and its checks fail in none (log 103). -/
def Core.memberMask (c : Core) (cur : Cur) (width : Nat) (act : List Nat) (c3 : Reg) : Res (Nat × Bool) :=
  let low := match cur.run with | u :: _ => (c.th u).lane | [] => 0
  let bad (u : Nat) : Res (Nat × Bool) := .trap (trapAt .illegalOperand (c.th u).lane)
  if c3 = 0#7 then .ok (fullMask width, false)
  else if c3 = 108#7 then .ok (c.lanesMask cur.run, true)
  else
    let n := c3.toNat
    let named := if width = 64 then (decide (n < 95) || (decide (96 ≤ n) && decide (n < 103))) else decide (n < 104)
    if !named then .trap (trapAt .illegalOperand low)
    else
      let read (u : Nat) : Nat :=
        (c.readReg cur.draw u c3).toNat + (if width = 64 then 2 ^ 32 * (c.readReg cur.draw u (c3 + 1#7)).toNat else 0)
      match act with
      | [] => .ok (0, false)  -- no lane reads the register (log 103)
      | u :: us =>
        match act.find? (fun v => !(c.srcOk v c3 && (!(width == 64) || c.srcOk v (c3 + 1#7)))) with
        | some v => bad v
        | none =>
          if 2 ^ width ≤ read u then bad u
          else
            match us.find? (fun v => !(read v == read u)) with
            | some v => bad v
            | none => .ok (read u, false)

end Sys2Proof.Machine
end

