-- ==== Sys2Proof/Machine/Float.lean ====
section
/-! DEFINITION. Float formats, exact values and rounding (R131 to R135, R140, R425). A finite value is a sign and a dyadic
number m × 2^e; nothing is rounded but by `roundTo`. -/

namespace Sys2Proof.Machine

open Sys2Proof

/-! ## Formats and values -/

/-- A float format of R131: width, mantissa bits, bias; significand, exponent and code of the largest finite value; the
codes of +∞ and of the canonical NaN where it has them. -/
structure Fmt where
  width : Nat
  mb : Nat
  bias : Nat
  maxM : Nat
  maxE : Int
  maxCode : Nat
  inf : Option Nat
  nan : Option Nat
  deriving DecidableEq, Repr

def fp32 : Fmt := ⟨32, 23, 127, 2 ^ 24 - 1, 127, 0x7F7FFFFF, some 0x7F800000, some 0x7FC00000⟩
def fp16 : Fmt := ⟨16, 10, 15, 2047, 15, 0x7BFF, some 0x7C00, some 0x7E00⟩
def bf16 : Fmt := ⟨16, 7, 127, 255, 127, 0x7F7F, some 0x7F80, some 0x7FC0⟩
def e4m3 : Fmt := ⟨8, 3, 7, 14, 8, 0x7E, none, some 0x7F⟩
def e5m2 : Fmt := ⟨8, 2, 15, 7, 15, 0x7B, some 0x7C, some 0x7E⟩
def e2m1 : Fmt := ⟨4, 1, 1, 3, 2, 7, none, none⟩

/-- A float value, exactly. -/
inductive Num where
  | nan (signalling : Bool)
  | inf (neg : Bool)
  | fin (neg : Bool) (m : Nat) (e : Int)
  deriving DecidableEq, Repr

/-- FSTAT bits (R136). -/
def stNX : Nat := 1
def stUF : Nat := 2
def stOF : Nat := 4
def stDZ : Nat := 8
def stNV : Nat := 16
def stSC : Nat := 64
def stTC : Nat := 128

/-- Bits joined. -/
def orBits (a b : Nat) : Nat := a ||| b

/-- The value of a code (R131). -/
def Fmt.value (f : Fmt) (x : Nat) : Num :=
  let neg := tbit x (f.width - 1)
  let mag := x % 2 ^ (f.width - 1)
  let e := mag / 2 ^ f.mb
  let m := mag % 2 ^ f.mb
  let emin : Int := 1 - (f.bias : Int)
  let special : Option Num :=
    match f.inf with
    | some i => if mag = i then some (.inf neg) else if i < mag then some (.nan (decide (16 ≤ f.width) && decide (m < 2 ^ (f.mb - 1)))) else none
    | none => if f.nan = some mag then some (.nan false) else none
  match special with
  | some v => v
  | none => if e = 0 then .fin neg m (emin - f.mb) else .fin neg (m + 2 ^ f.mb) ((e : Int) - f.bias - f.mb)

/-- The sign bit of a format, where a value is negative. -/
def Fmt.sign (f : Fmt) (neg : Bool) : Nat := if neg then 2 ^ (f.width - 1) else 0

/-- The canonical NaN of a format; E2M1 has none and answers +0 (R151). -/
def Fmt.nanCode (f : Fmt) : Nat := match f.nan with | some n => n | none => 0

/-- The code of an infinite result (R134 step 2). -/
def Fmt.infCode (f : Fmt) (neg : Bool) : Nat :=
  match f.inf with
  | some i => i + f.sign neg
  | none => match f.nan with
    | some n => n
    | none => f.maxCode + f.sign neg

/-! ## Rounding -/

/-- Rounding modes (R134). -/
inductive Mode where
  | rne | rz | ru | rd
  deriving DecidableEq, Repr

/-- The mode of an RM field (R50, R134). -/
def modeOf (rm : BitVec 3) : Mode :=
  if rm = 2#3 then .rz else if rm = 3#3 then .ru else if rm = 4#3 then .rd else .rne

/-- Whether a magnitude q + rest/2^k, with 0 < rest where inexact, moves up. -/
def roundsUp (mode : Mode) (neg : Bool) (q rest half : Nat) (exact : Bool) : Bool :=
  if exact then false
  else match mode with
    | .rz => false
    | .ru => !neg
    | .rd => neg
    | .rne => if half < rest then true else if rest < half then false else q % 2 = 1

/-- The integer part of m × 2^e in units of 2^q, the rest and half a unit, both in units of 2^(min e q). -/
def inUnits (m : Nat) (e q : Int) : Nat × Nat × Nat :=
  if q ≤ e then (m * 2 ^ (e - q).toNat, 0, 0)
  else
    let k := (q - e).toNat
    (m / 2 ^ k, m % 2 ^ k, 2 ^ (k - 1))

/-- The exponent of the grid on which m × 2^e is rounded (R134 step 1). -/
def Fmt.grid (f : Fmt) (m : Nat) (e : Int) : Int :=
  let b : Int := (Nat.log2 m : Int) + e
  let emin : Int := 1 - (f.bias : Int)
  (if b < emin then emin else b) - f.mb

/-- Whether M × 2^q exceeds the largest finite value, for M below 2^(mb + 1) + 1 on the format's grid. -/
def Fmt.overLimit (f : Fmt) (mm : Nat) (q : Int) : Bool :=
  let top := f.maxE - f.mb
  if top < q then true
  else if q = top then decide (f.maxM < mm)
  else false

/-- The magnitude code of M × 2^q where it is finite in the format. -/
def Fmt.code (f : Fmt) (mm : Nat) (q : Int) : Nat :=
  if mm < 2 ^ f.mb then mm
  else
    let carry := 2 ^ (f.mb + 1) ≤ mm
    let e := q + f.mb + f.bias + (if carry then 1 else 0)
    let m := if carry then mm / 2 else mm
    e.toNat * 2 ^ f.mb + (m - 2 ^ f.mb)

/-- Overflow (R134 steps 2 and 3): result and bits. -/
def Fmt.overflow (f : Fmt) (mode : Mode) (sat neg : Bool) : Nat × Nat :=
  if sat then (f.maxCode + f.sign neg, orBits stSC stNX)
  else
    let toInf := match mode with
      | .rne => true
      | .rz => false
      | .ru => !neg
      | .rd => neg
    (if toInf then f.infCode neg else f.maxCode + f.sign neg, orBits stOF stNX)

/-- round(x, fmt, mode) of a nonzero finite x = ±m × 2^e (R134). -/
def Fmt.roundTo (f : Fmt) (mode : Mode) (sat neg : Bool) (m : Nat) (e : Int) : Nat × Nat :=
  let q := f.grid m e
  let u := inUnits m e q
  let exact := u.2.1 == 0
  let mm := if roundsUp mode neg u.1 u.2.1 u.2.2 exact then u.1 + 1 else u.1
  if f.overLimit mm q then f.overflow mode sat neg
  else
    (f.code mm q + f.sign neg, if exact then 0 else if mm < 2 ^ f.mb then orBits stNX stUF else stNX)

/-- A result: canonical NaN, infinity, signed zero, or a rounded value. -/
def Fmt.finish (f : Fmt) (mode : Mode) (sat : Bool) (x : Num) : Nat × Nat :=
  match x with
  | .nan _ => (f.nanCode, 0)
  | .inf neg => (f.infCode neg, 0)
  | .fin neg m e => if m = 0 then (f.sign neg, 0) else f.roundTo mode sat neg m e

/-- sround(x, fmt, rnd) of a finite x (R140). -/
def Fmt.sround (f : Fmt) (sat neg : Bool) (m : Nat) (e : Int) (rnd : Nat) : Nat × Nat :=
  if m = 0 then (f.sign neg, 0)
  else
    let q := f.grid m e
    let u := inUnits m e q
    let w := if e < q then u.2.1 * 2 ^ 32 / 2 ^ (q - e).toNat else 0
    let mm := if 2 ^ 32 ≤ w + rnd then u.1 + 1 else u.1
    let tiny := f.grid m e == 1 - (f.bias : Int) - f.mb && decide (u.1 < 2 ^ f.mb)
    let inexact := if w = 0 then 0 else if tiny then orBits stNX stUF else stNX
    if f.overLimit mm q then (let o := f.overflow .rne sat neg; (o.1, orBits o.2 inexact))
    else (f.code mm q + f.sign neg, inexact)

/-! ## Exact arithmetic (R135, R145) -/

/-- A dyadic integer with a sign. -/
def sgn (neg : Bool) (m : Nat) : Int := if neg then -(m : Int) else m

/-- The exact sum of finite values; the sign of an exact zero follows R135. -/
def addFin (mode : Mode) (n1 : Bool) (m1 : Nat) (e1 : Int) (n2 : Bool) (m2 : Nat) (e2 : Int) : Num :=
  let e := if e1 ≤ e2 then e1 else e2
  let i := sgn n1 (m1 * 2 ^ (e1 - e).toNat) + sgn n2 (m2 * 2 ^ (e2 - e).toNat)
  if i = 0 then .fin (if m1 = 0 ∧ m2 = 0 ∧ n1 = n2 then n1 else mode == .rd) 0 0
  else .fin (decide (i < 0)) i.natAbs e

/-- Whether a value is a signalling NaN. -/
def Num.snan : Num → Bool
  | .nan s => s
  | _ => false

/-- Whether a value is a NaN. -/
def Num.isNan : Num → Bool
  | .nan _ => true
  | _ => false

/-- NV for a signalling NaN among the inputs (R135). -/
def nvOf (xs : List Num) : Nat := if xs.any Num.snan then stNV else 0

/-- The exact sum, with NV. -/
def addNum (mode : Mode) (a b : Num) : Num × Nat :=
  match a, b with
  | .nan _, _ => (.nan false, nvOf [a, b])
  | _, .nan _ => (.nan false, nvOf [a, b])
  | .inf n1, .inf n2 => if n1 = n2 then (.inf n1, 0) else (.nan false, stNV)
  | .inf n, .fin .. => (.inf n, 0)
  | .fin .., .inf n => (.inf n, 0)
  | .fin n1 m1 e1, .fin n2 m2 e2 => (addFin mode n1 m1 e1 n2 m2 e2, 0)

/-- The value with the opposite sign. -/
def Num.neg : Num → Num
  | .nan s => .nan s
  | .inf n => .inf (!n)
  | .fin n m e => .fin (!n) m e

/-- The exact product, with NV. -/
def mulNum (a b : Num) : Num × Nat :=
  match a, b with
  | .nan _, _ => (.nan false, nvOf [a, b])
  | _, .nan _ => (.nan false, nvOf [a, b])
  | .inf n1, .inf n2 => (.inf (n1 != n2), 0)
  | .inf n1, .fin n2 m _ => if m = 0 then (.nan false, stNV) else (.inf (n1 != n2), 0)
  | .fin n1 m _, .inf n2 => if m = 0 then (.nan false, stNV) else (.inf (n1 != n2), 0)
  | .fin n1 m1 e1, .fin n2 m2 e2 => (.fin (n1 != n2) (m1 * m2) (e1 + e2), 0)

/-- The exact a × b + c, with NV (R145). -/
def fmaNum (mode : Mode) (a b c : Num) : Num × Nat :=
  let p := mulNum a b
  let r := addNum mode p.1 c
  (r.1, orBits p.2 r.2)

/-- The saturating clamp of R145: to +0 to 1.0. -/
def Fmt.clamp01 (f : Fmt) (sat : Bool) (code : Nat) : Nat :=
  if !sat then code
  else
    match f.value code with
    | .nan _ => 0
    | .inf neg => if neg then 0 else f.bias * 2 ^ f.mb
    | .fin neg m _ => if neg ∨ m = 0 then 0 else if f.bias * 2 ^ f.mb < code then f.bias * 2 ^ f.mb else code

/-- An arithmetic result in a format: rounded, then clamped where SAT asks. -/
def Fmt.arith (f : Fmt) (mode : Mode) (sat : Bool) (r : Num × Nat) : Nat × Nat :=
  let x := f.finish mode false r.1
  (f.clamp01 sat x.1, orBits r.2 x.2)

/-! ## Order -/

/-- Exact comparison of finite values. -/
def cmpFin (n1 : Bool) (m1 : Nat) (e1 : Int) (n2 : Bool) (m2 : Nat) (e2 : Int) : Ordering :=
  let e := if e1 ≤ e2 then e1 else e2
  compare (sgn n1 (m1 * 2 ^ (e1 - e).toNat)) (sgn n2 (m2 * 2 ^ (e2 - e).toNat))

/-- Comparison of values that are no NaN; zeros are equal. -/
def cmpNum (a b : Num) : Ordering :=
  match a, b with
  | .inf n1, .inf n2 => if n1 = n2 then .eq else if n1 then .lt else .gt
  | .inf n, _ => if n then .lt else .gt
  | _, .inf n => if n then .gt else .lt
  | .fin n1 m1 e1, .fin n2 m2 e2 => cmpFin n1 m1 e1 n2 m2 e2
  | _, _ => .eq

/-- Whether a value has its sign set. -/
def Num.isNeg : Num → Bool
  | .nan _ => false
  | .inf n => n
  | .fin n _ _ => n

/-- FMIN or FMAX of two codes (R146), with NV. -/
def Fmt.pick (f : Fmt) (max : Bool) (a b : Nat) : Nat × Nat :=
  let x := f.value a
  let y := f.value b
  let nv := nvOf [x, y]
  if x.isNan then (if y.isNan then f.nanCode else b, nv)
  else if y.isNan then (a, nv)
  else
    let less := match cmpNum x y with
      | .lt => true
      | .gt => false
      | .eq => x.isNeg && !y.isNeg
    (if a = b then a else if less == max then b else a, nv)

/-! ## Packed elements and constants (R133, R425) -/

/-- Element `i` of `w` bits of a register. -/
def elem (w i x : Nat) : Nat := x / 2 ^ (w * i) % 2 ^ w

/-- A register with element `i` of `w` bits replaced. -/
def setElem (w i x v : Nat) : Nat := x - elem w i x * 2 ^ (w * i) + (v % 2 ^ w) * 2 ^ (w * i)

/-- A value in every element of a register. -/
def everyElem (w v : Nat) : Nat := (List.range (32 / w)).foldl (fun n i => n + v * 2 ^ (w * i)) 0

/-- An integer from 0 to 15 in a format (R425). -/
def Fmt.const (f : Fmt) (n : Nat) : Nat := if n = 0 then 0 else (f.roundTo .rne true false n 0).1

/-- An integer from 0 to 15 in E8M0 (R425). -/
def e8m0Const (n : Nat) : Nat :=
  if n = 0 then 0 else if n = 1 then 0x7F else if n ≤ 3 then 0x80 else if n ≤ 5 then 0x81 else if n ≤ 12 then 0x82 else 0x83

/-- A constant specifier as a float operand: in every element of the operand (R45, R425). -/
def Fmt.operand (f : Fmt) (r : Reg) (x : Word) : Nat :=
  if 112 ≤ r.toNat then everyElem f.width (f.const (r.toNat - 112)) else x.toNat

end Sys2Proof.Machine
end

