-- ==== Sys2Proof/Machine/Service.lean ====
section
/-! DEFINITION. Serving requests: translation and its faults (R176 to R180), loads, stores and atomics at the L1, the home
slices and the scratchpads (R184 to R189, R205 to R208, R219 to R222). -/

namespace Sys2Proof.Machine

open Sys2Proof

/-- A request by number. -/
def Core.req (c : Core) (id : Nat) : Option Req := c.reqs.find? (fun r => r.id == id)

/-- Replaces a request. -/
def Core.setReq (c : Core) (r : Req) : Core := { c with reqs := c.reqs.map (fun x => if x.id = r.id then r else x) }

/-- Removes a request. -/
def Core.delReq (c : Core) (id : Nat) : Core := { c with reqs := c.reqs.filter (fun x => !(x.id == id)) }

/-- A core after its requests changed: a group phase that waited for them may complete (R107). -/
def State.reqsChanged (s : State) (core : Nat) : State := s.onCore core Core.checkGroups

/-- Completes lanes of a request without performing them: the destination becomes 0, a record is queued where a cause is
given, the flag falls (R181). -/
def Core.failLanes (c : Core) (r : Req) (cause : Option Nat) : List LaneReq → Core
  | [] => c
  | l :: ls =>
    let c1 := match cause with | some n => c.addRecord (r.record l n) | none => c
    Core.failLanes (c1.complete l.pend (List.replicate 4 0#32)) r cause ls

/-! ## Order among a thread's requests -/

/-- Whether two requests have a thread in common. -/
def Req.shares (a b : Req) : Bool := a.lanes.any (fun l => b.ofThread l.uid)

/-- Whether a request must wait for an earlier one of the same thread: to the same line, or to the same scratchpad (R189,
R191, R192). -/
def Req.behind (r e : Req) : Bool :=
  decide (e.id < r.id) && !(e.stage == .done) && e.shares r &&
    (if r.space = 0 then e.space == 0 && e.va == r.va && e.key.vf == r.key.vf else !(e.space == 0) && e.target == r.target)

/-- Whether a request's turn has come. -/
def Core.turn (c : Core) (r : Req) : Bool := !(c.reqs.any r.behind)

/-! ## Translation -/

/-- Whether a store, an atomic or a load asks to write. -/
def Req.writes (r : Req) : Bool := match r.kind with | .store => true | .atomic .. => true | _ => false

/-- The lowest free entry of a cluster's outstanding translation table. -/
def Cluster.freeX (c : Cluster) : Option Nat := lowest (fun e => !(AMap.has c.xtab e)) 256 0

/-- Opens or joins the table entry of a page (R176); none where the table is full. A new entry becomes a request to the
handler role, or to the host where FUNCMODE or the want of a handler launch says so (R179, R354). -/
def State.openX (s : State) (cl v va : Nat) (write protect : Bool) : Option (State × Nat) :=
  let c := s.cluster cl
  match c.xtab.find? (fun p => p.2.vf == v && p.2.page == va / 65536) with
  | some p => some (s.setCluster cl { c with xtab := AMap.put c.xtab p.1 { p.2 with write := p.2.write || write, protect := p.2.protect || protect } }, p.1)
  | none =>
    match c.freeX with
    | none => none
    | some e =>
      let g := AMap.lookD c.xgen e 0#8 + 1#8
      let c1 := { c with xtab := AMap.put c.xtab e ⟨g, v, va / 65536, write, protect⟩, xgen := AMap.put c.xgen e g }
      if s.funcBit v 0 || c.handler.isNone then some (((s.setCluster cl c1).count v 0x0C 1).postHaVf v (.xlate cl e g), e)
      else some ((s.count v 0x0C 1).setCluster cl { c1 with xpend := c1.xpend ++ [e] }, e)

/-- Whether the operand log has room for a faulting word (R178). -/
def Core.logRoom (c : Core) (word : Nat) : Bool :=
  let ws := dedup ((c.reqs.filter (fun r => match r.stage with | .faulted _ => true | _ => false)).map (fun r => r.word))
  ws.contains word || decide (ws.length < 64)

/-- A request in the core's request queue until room comes (R176, R178). -/
def State.holdReq (s : State) (core : Nat) (r : Req) : State := s.onCore core (fun c => c.setReq { r with stage := .stuck })

/-- A request attaches to the entry of a page, in the operand log (R178). -/
def State.attachReq (s : State) (core : Nat) (r : Req) (va : Nat) (protect : Bool) : State :=
  if !((s.core core).logRoom r.word) then s.holdReq core r
  else
    match s.openX (clusterOf core) r.key.vf va r.writes protect with
    | none => s.holdReq core r
    | some (s1, e) => s1.onCore core (fun c => c.setReq { r with stage := .faulted e })

/-- The first page that a core's translation cache misses among the lines of a request. -/
def Core.firstMiss (c : Core) (v : Nat) (write : Bool) (vas : List Nat) : Option Nat :=
  vas.find? (fun va => (c.tlbHit v va write).isNone)

/-- A line request walks: it is translated, or it faults and attaches to an entry, or waits for room (R176, R178). A miss on a
page that has an open entry attaches to it and starts no walk, and where the table is full a miss waits. A request whose tensor
was dropped while it was held faults with BOUNDS (R278). -/
def State.walkReq (s : State) (core : Nat) (r : Req) : State :=
  let lines := s.linesOf r.key r.va
  let table := s.cluster (clusterOf core)
  let miss := (s.core core).firstMiss r.key.vf r.writes lines
  let known (va : Nat) : Bool := table.xtab.any (fun p => p.2.vf == r.key.vf && p.2.page == va / 65536)
  if r.gone then ((s.onCore core (fun c => (c.failLanes r (some 1) r.lanes).delReq r.id)).reqsChanged core).countRecords s core
  else if miss.any known then s.attachReq core r (miss.getD 0) false
  else if miss.isSome && table.freeX.isNone then s.holdReq core r
  else
    let x := s.translateAll core r.key.vf r.writes lines
    match x.2 with
    | .ok pas => x.1.onCore core (fun c => c.setReq { r with stage := .ready, pas := pas })
    | .error f => x.1.attachReq core r f.1 f.2

/-- The cores and requests attached to an entry. -/
def State.attachedReqs (s : State) (cl e : Nat) : List (Nat × Req) :=
  (List.range 4).flatMap (fun i => ((s.core (4 * cl + i)).reqs.filter (fun r => r.stage == .faulted e)).map (fun r => (4 * cl + i, r)))

/-- Frees an entry. -/
def State.closeX (s : State) (cl e : Nat) : State :=
  let c := s.cluster cl
  s.setCluster cl { c with xtab := AMap.del c.xtab e, xpend := c.xpend.filter (fun x => !(x == e)) }

/-- Engine slots and matrix stores that stall on an entry try again. -/
def State.unstall (s : State) (cl e : Nat) : State :=
  let c := s.cluster cl
  let free (x : Option Nat) : Option Nat := if x == some e then none else x
  let s1 := s.setCluster cl { c with jslots := AMap.mapVals c.jslots (fun j => { j with stalled := free j.stalled }) }
  (List.range 4).foldl (fun s i =>
    if AMap.has s.cores (4 * cl + i) then
      s.onCore (4 * cl + i) (fun c => { c with msts := c.msts.map (fun m => { m with stalled := free m.stalled }) })
    else s) s1

/-- A resolve: every line attached walks again (R179). -/
def State.resolveX (s : State) (cl e : Nat) : State :=
  let rs := s.attachedReqs cl e
  rs.foldl (fun s p => s.walkReq p.1 p.2) ((s.closeX cl e).unstall cl e)

/-! ## Loads -/

/-- The registers a load writes from the bytes read (R195). -/
def loadWords (sz : BitVec 3) (bs : List Byte) : List Word :=
  match sz.toNat with
  | 0 => [BitVec.ofNat 32 (leNat bs)]
  | 1 => [ofInt32 (sext 8 (leNat bs))]
  | 2 => [BitVec.ofNat 32 (leNat bs)]
  | 3 => [ofInt32 (sext 16 (leNat bs))]
  | 4 => leWords bs 1
  | 5 => leWords bs 2
  | _ => leWords bs 4

/-- The words of the sectors in a mask. -/
def sectorWords (m : BitVec 4) : BitVec 16 :=
  (List.range 4).foldl (fun x i => if m.getLsbD i then x ||| (15#16 <<< (4 * i)) else x) 0#16

/-- The sectors of an L1 line all of whose words are valid. -/
def L1Line.sectors (l : L1Line) : BitVec 4 :=
  (List.range 4).foldl (fun m i => if l.valid.extractLsb' (4 * i) 4 == 15#4 then m ||| (1#4 <<< i) else m) 0#4

/-- Bytes of a line: valid words of the L1 where present, the home slice's otherwise. -/
def mergeLine (l1 home : List Byte) (valid : BitVec 16) : List Byte :=
  (List.range 64).map (fun i => if valid.getLsbD (i / 4) then getAt l1 i 0#8 else getAt home i 0#8)

/-- The L1 with room for one more line: it holds 640 KiB, and a full one gives a line up (R184, log 14). -/
def Core.l1Room (c : Core) (draw : Nat) : List L1Line :=
  if 10240 ≤ c.l1.length then c.l1.eraseIdx (Config.freeNat draw % 10240) else c.l1

/-- Installs sectors of a line in the L1 as valid and not owned; words valid there already stay as they are (R184). -/
def Core.install (c : Core) (draw : Nat) (k : Key) (va : Nat) (home : List Byte) (secs : BitVec 4) : Core :=
  if secs = 0#4 then c
  else
    match c.l1.find? (fun l => l.key == k) with
    | some _ =>
      { c with l1 := c.l1.map (fun l => if l.key = k then { l with data := mergeLine l.data home (l.valid ||| ~~~(sectorWords secs)), valid := l.valid ||| sectorWords secs } else l) }
    | none => { c with l1 := c.l1Room draw ++ [⟨k, va, home, sectorWords secs, 0#16⟩] }

/-- A line as a load sees it: what the L1 holds and, for missing sectors, the home slice's bytes, with the sectors that came
poisoned; the missing sectors are installed unless an acquire came between (R184, R185). -/
def State.loadLine (s : State) (core : Nat) (k : Key) (va : Nat) (pas : List Nat) (need : BitVec 4) (keep : Bool) :
    State × List Byte × BitVec 4 :=
  let have1 := match (s.core core).l1.find? (fun l => l.key == k) with
    | some l => (l.data, l.valid, l.sectors)
    | none => ([], 0#16, 0#4)
  let missing := need &&& ~~~have1.2.2
  if missing = 0#4 then (s, have1.1, 0#4)
  else
    let r := (s.count (s.vfOf core) 0x06 1).bring k va pas
    let bad := r.2.poison &&& missing
    let s1 := if keep then r.1.onCore core (fun c => c.install s.draws k va r.2.data (missing &&& ~~~bad)) else r.1
    let valid := (match (r.1.core core).l1.find? (fun l => l.key == k) with | some l => l.valid | none => 0#16)
    (s1, mergeLine have1.1 r.2.data valid, bad)

/-- Each lane of a load takes its bytes; a lane whose sector came poisoned takes 0 and a record (R181). -/
def Core.loadLanes (c : Core) (r : Req) (sz : BitVec 3) (line : List Byte) (bad : BitVec 4) : List LaneReq → Core
  | [] => c
  | l :: ls =>
    let off := l.addr % 64
    let c1 :=
      if bad &&& sectorMask off r.width = 0#4 then
        c.complete l.pend (loadWords sz ((line.drop off).take r.width))
      else (c.addRecord (r.record l 5)).complete l.pend (List.replicate 4 0#32)
    Core.loadLanes c1 r sz line bad ls

/-- The L1 copies of a line under another key, on a core that reads or writes it, are dropped, so that the core's later loads see
no older bytes (R192). -/
def Core.dropAliases (c : Core) (k : Key) (va : Nat) : Core :=
  { c with l1 := c.l1.filter (fun l => l.key == k || !(l.va == va && l.key.vf == k.vf)) }

/-- A line is read once at its home slice and copied into the L1s of cores; the read and the arrival are one, so no acquire comes
between them (R197, R275, R280). -/
def State.installAt (s : State) (r : Req) (cores : List Nat) : State :=
  let x := (s.count r.key.vf 0x06 1).bring r.key r.va r.pas
  cores.foldl (fun s1 k => s1.onCore k (fun c => c.install s.draws r.key r.va x.2.data (15#4 &&& ~~~x.2.poison))) x.1

/-- A line fill or load completes (LOAD_DATA_ARRIVAL). -/
def State.arriveLoad (s : State) (core : Nat) (r : Req) : State :=
  match r.kind with
  | .load sz =>
    if r.space = 0 then
      let need := r.lanes.foldl (fun m l => m ||| sectorMask (l.addr % 64) r.width) 0#4
      let x := s.loadLine core r.key r.va r.pas need (r.epoch == (s.core core).epoch)
      let s1 := if x.2.2 = 0#4 then x.1 else x.1.markPage r.key
      (s1.onCore core (fun c => ((c.dropAliases r.key r.va).loadLanes r sz x.2.1 x.2.2 r.lanes).delReq r.id)).reqsChanged core |>.countRecords s1 core
    else
      let mem := (s.core r.target).scratch
      let take (c : Core) (l : LaneReq) : Core := c.complete l.pend (loadWords sz (mem.bytes l.addr r.width))
      (s.onCore core (fun c => (r.lanes.foldl take c).delReq r.id)).reqsChanged core
  | .prefetch l1 => (s.installAt r (if l1 then [core] else [])).onCore core (fun c => c.delReq r.id)
  | .push cores => (s.installAt r cores).onCore core (fun c => c.delReq r.id)
  | _ => s

/-! ## Stores -/

/-- Registers the lanes of a store in ascending order (R175, R184). -/
def State.storeLanes (s : State) (core : Nat) (r : Req) : List LaneReq → State
  | [] => s
  | l :: ls =>
    if r.space = 0 then
      State.storeLanes (s.homeWrite r.key r.va r.pas (l.addr % 64) l.data (some core)) core r ls
    else State.storeLanes (s.onCore r.target (fun c => { c with scratch := c.scratch.putBytes l.addr l.data })) core r ls

/-- The flags of lanes fall. -/
def Core.completeLanes (c : Core) (vals : LaneReq → List Word) : List LaneReq → Core
  | [] => c
  | l :: ls => Core.completeLanes (c.complete l.pend (vals l)) vals ls

/-- A store is registered at its home slice, or written to its scratchpad (STORE_REGISTRATION). -/
def State.registerStore (s : State) (core : Nat) (r : Req) : State :=
  let s1 := (if r.space = 0 then s.count (s.vfOf core) 0x06 1 else s).storeLanes core r r.lanes
  let s2 := s1.onCore core (fun c =>
    let c1 := (if r.space = 0 then c.dropAliases r.key r.va else c).completeLanes (fun _ => []) r.lanes
    if r.space = 0 then c1.setReq { r with stage := .done } else c1.delReq r.id)
  s2.reqsChanged core

/-- The grant of a store returns: its words are owned where the line is present and the home slice still names the core
(STORE_GRANT, R184). -/
def State.grantStore (s : State) (core : Nat) (r : Req) : State :=
  let owner := match s.lineOf r.key with | some l => l.owner | none => []
  let m := r.lanes.foldl (fun m l => m ||| wordMask (l.addr % 64) r.width) 0#16
  let mine := (List.range 16).foldl (fun x i => if m.getLsbD i && AMap.look owner i == some core then x ||| (1#16 <<< i) else x) 0#16
  let mark (l : L1Line) : L1Line := if l.key = r.key then { l with owned := l.owned ||| (mine &&& l.valid) } else l
  s.onCore core (fun c => ({ c with l1 := c.l1.map mark } : Core).delReq r.id)

/-! ## Atomics -/

/-- An FP32 operation of an atomic: no status bit is set (R207). -/
def atomFloat (op : AtomOp) (o d : Nat) : Nat :=
  match op with
  | .fadd => (fp32.arith .rne false (addNum .rne (fp32.value o) (fp32.value d))).1
  | .fmin => (fp32.pick false o d).1
  | _ => (fp32.pick true o d).1

/-- The new value of an atomic (R219); CAS is told apart by its caller. -/
def atomValue (op : AtomOp) (bits o d : Nat) : Nat :=
  match op with
  | .add => (o + d) % 2 ^ bits
  | .min => if sext bits o ≤ sext bits d then o else d
  | .max => if sext bits o ≤ sext bits d then d else o
  | .umin => min o d
  | .umax => max o d
  | .and => o &&& d
  | .or => o ||| d
  | .xor => o ^^^ d
  | .xchg => d
  | .cas => d
  | op => atomFloat op o d

/-- What one lane of an atomic writes over the old bytes, if anything (R219, R222). -/
def atomWrite (op : AtomOp) (w : Nat) (old : List Byte) (l : LaneReq) : Option (List Byte) :=
  match op with
  | .cas => if old = l.data then some l.data2 else none
  | _ => some (leBytes (atomValue op (8 * w) (leNat old) (leNat l.data)) w)

/-- Performs the lanes of an atomic in ascending order (R205, R206): each sees the result of the one before it. A lane whose
sector is poisoned is not performed. -/
def State.atomLanes (s : State) (core : Nat) (r : Req) (op : AtomOp) : List LaneReq → State × List LaneReq
  | [] => (s, [])
  | l :: ls =>
    if r.space = 0 then
      let x := s.homeRead r.key r.va r.pas (l.addr % 64) r.width
      if x.2.2 then
        let s1 := (x.1.markPage r.key).onCore core (fun c => c.addRecord (r.record l 5))
        let y := State.atomLanes s1 core r op ls
        (y.1, { l with faulted := true, result := some (List.replicate r.width 0#8) } :: y.2)
      else
        let s1 := match atomWrite op r.width x.2.1 l with
          | some bs => x.1.homeWrite r.key r.va r.pas (l.addr % 64) bs none
          | none => x.1
        let y := State.atomLanes s1 core r op ls
        (y.1, { l with result := some x.2.1 } :: y.2)
    else
      let old := (s.core r.target).scratch.bytes l.addr r.width
      let s1 := match atomWrite op r.width old l with
        | some bs => s.onCore r.target (fun c => { c with scratch := c.scratch.putBytes l.addr bs })
        | none => s
      let y := State.atomLanes s1 core r op ls
      (y.1, { l with result := some old } :: y.2)

/-- Words of a line lose their owner (R205). -/
def State.disown (s : State) (k : Key) (m : BitVec 16) : State :=
  match s.lineOf k with
  | some l => (s.revoke l m none).putLine { l with owner := l.owner.filter (fun p => !(m.getLsbD p.1)) }
  | none => s

/-- An atomic is performed at its home slice or bank (ATOMIC_PERFORMANCE): the issuing core's L1 keeps no copy of the line. -/
def State.performAtomic (s : State) (core : Nat) (r : Req) (op : AtomOp) : State :=
  let s0 := if r.space = 0 then (s.count (s.vfOf core) 0x06 1).disown r.key (r.lanes.foldl (fun m x => m ||| wordMask (x.addr % 64) r.width) 0#16) else s
  let x := s0.atomLanes core r op r.lanes
  (x.1.onCore core (fun c =>
    (if r.space = 0 then (c.dropWords r.key 65535#16).dropAliases r.key r.va else c).setReq { r with stage := .done, lanes := x.2 })).reqsChanged core

/-- An atomic's value or acknowledgement returns (ATOMIC_RESULT_ARRIVAL): the acquire part comes first, the flag last (R209,
R221, R222). -/
def State.returnAtomic (s : State) (core : Nat) (r : Req) (returns acq : Bool) : State :=
  let vals (l : LaneReq) : List Word :=
    if returns then (match l.result with | some bs => leWords bs (r.width / 4) | none => []) else []
  (s.onCore core (fun c => (((if acq then c.acquire else c).completeLanes vals r.lanes).delReq r.id))).reqsChanged core

/-! ## When an event can occur -/

/-- Whether a physical line of a request lies in a frozen piece (R371). -/
def State.held (s : State) (r : Req) : Bool := r.space == 0 && r.pas.any s.frozen

/-- Whether a request's walk can complete (TRANSLATION_WALK): a stuck one only where room has come. -/
def Req.canWalk (r : Req) : Bool := r.stage == .walk || r.stage == .stuck

/-- Whether a request that a resume brought back is still to take effect before a later one (R414). -/
def Core.replayTurn (c : Core) (r : Req) : Bool :=
  !(c.reqs.any (fun e => decide (e.id < r.id) && decide (e.id < c.resumeReq) && (e.stage == .walk || e.stage == .ready)))

/-- Whether a load's data can arrive. -/
def Core.canArrive (c : Core) (r : Req) : Bool :=
  r.stage == .ready && c.turn r && c.replayTurn r &&
    (match r.kind with | .load _ => true | .prefetch _ => true | .push _ => true | _ => false)

/-- Whether a store can be registered. -/
def State.canRegister (s : State) (core : Nat) (r : Req) : Bool :=
  r.stage == .ready && r.kind == .store && (s.core core).turn r && (s.core core).replayTurn r && !(s.held r)

/-- Whether a store's grant can return. -/
def Req.canGrant (r : Req) : Bool := r.stage == .done && r.kind == .store

/-- Whether an atomic can be performed (R209). -/
def State.canPerform (s : State) (core : Nat) (r : Req) : Bool :=
  r.stage == .ready && (match r.kind with | .atomic .. => true | _ => false) && (s.core core).turn r && (s.core core).replayTurn r &&
    !((s.core core).awaits r.after) && !(s.held r)

/-- Whether an atomic's result can return. -/
def Req.canReturn (r : Req) : Bool := r.stage == .done && (match r.kind with | .atomic .. => true | _ => false)

end Sys2Proof.Machine
end

