-- ==== Sys2Proof/Machine/Engines.lean ====
section
/-! DEFINITION. The Jacquard unit (R230 to R244): its slots, the application of engine words, launches, elements, and the
seven engine words. -/

namespace Sys2Proof.Machine

open Sys2Proof

/-- A slot of a cluster. -/
def Cluster.slot (c : Cluster) (n : Nat) : JSlot := AMap.lookD c.jslots n JSlot.reset

/-- Replaces a slot. -/
def Cluster.setSlot (c : Cluster) (n : Nat) (j : JSlot) : Cluster := { c with jslots := AMap.put c.jslots n j }

/-- Changes a slot. -/
def Cluster.updSlot (c : Cluster) (n : Nat) (f : JSlot → JSlot) : Cluster := c.setSlot n (f (c.slot n))

/-- The core that owns a slot. -/
def slotCore (cl slot : Nat) : Nat := 4 * cl + slot / 64

/-- Whether a core belongs to the instance of another (R230). -/
def State.sameInstance (s : State) (core other : Nat) : Bool :=
  let a := s.core core
  let b := s.core other
  a.launch.isSome && a.launch == b.launch && a.inst == b.inst

/-! ## States of a slot (R231) -/

/-- Whether a slot is at rest. -/
def JSlot.resting (j : JSlot) : Bool := decide (j.state < 2)

/-- STATUS of a slot (R238). -/
def JSlot.status (j : JSlot) : Word :=
  if j.state = 0 then 0#32
  else BitVec.ofNat 32 (j.gen.toNat * 2 ^ 24 + j.failed * 256 + (if j.refused then 128 else 0) + j.cause)

/-- A slot becomes WAITING, queued for launch where it is launchable. -/
def Cluster.wake (c : Cluster) (n : Nat) : Cluster :=
  let j := c.slot n
  if j.fired ∧ j.pleft = 0 then { (c.setSlot n { j with state := 2, queued := some c.nextLaunch }) with nextLaunch := c.nextLaunch + 1 }
  else c.setSlot n { j with state := 2 }

/-- A predecessor completes (R231): a running or queued successor holds it until it is IDLE again. -/
def Cluster.predDone (c : Cluster) (n : Nat) : Cluster :=
  let j := c.slot n
  if j.state = 3 ∨ (j.state = 2 ∧ j.fired ∧ j.pleft = 0) then c.setSlot n { j with heldPreds := j.heldPreds + 1 }
  else if j.state = 1 ∨ (j.state = 2 ∧ 0 < j.pleft) then (c.setSlot n { j with pleft := j.pleft - 1 }).wake n
  else c

/-- Applies the completions a slot held, now that it is IDLE. -/
def Cluster.releaseHeld (n : Nat) : Nat → Cluster → Cluster
  | 0, c => c
  | k + 1, c => Cluster.releaseHeld n k (c.predDone n)

/-- An engine word refused: only REFUSED of the slot it names changes. -/
def Cluster.refuse (c : Cluster) (n : Nat) : Cluster := c.updSlot n (fun j => { j with refused := true })

/-- NEDGE on two slots (R231, R242). -/
def Cluster.edge (c : Cluster) (n t : Nat) (remove : Bool) : Cluster :=
  let a := c.slot n
  let b := c.slot t
  if !(a.state == 1) || !(b.state == 1) || n == t then c.refuse n
  else if remove then
    if a.succ.contains t then
      (c.setSlot n { a with succ := a.succ.erase t }).updSlot t (fun j => { j with npred := j.npred - 1, pleft := j.pleft - 1 })
    else c.refuse n
  else if a.succ.contains t || decide (8 ≤ a.succ.length) || decide (8 ≤ b.npred) then c.refuse n
  else (c.setSlot n { a with succ := a.succ ++ [t] }).updSlot t (fun j => { j with npred := j.npred + 1, pleft := j.pleft + 1 })

/-- The effect of an engine word on its slot (R231). -/
def Cluster.applyOp (c : Cluster) (n : Nat) (op : EngineOp) : Cluster :=
  let j := c.slot n
  match op with
  | .ndef false => if j.resting then c.setSlot n { j with kind := 0, cmd := JSlot.reset.cmd, state := 1 } else c.refuse n
  | .ndef true => if j.state = 1 ∧ j.npred = 0 ∧ j.succ = [] then c.setSlot n { j with state := 0 } else c.refuse n
  | .load kind cmd => if j.resting then c.setSlot n { j with kind := kind, cmd := cmd, state := 1 } else c.refuse n
  | .nedge t remove => c.edge n t remove
  | .nfire =>
    if j.state = 1 ∨ (j.state = 2 ∧ j.fired = false) then (c.setSlot n { j with fired := true }).wake n else c.refuse n
  | .nwait _ => c

/-! ## Application (R232, R244) -/

/-- Completes the results and flags of an engine word on its core. -/
def State.completeOn (s : State) (core : Nat) (ids : List Nat) (vals : List Word) : State :=
  s.onCore core (fun c => ids.foldl (fun c i => c.complete i vals) c)

/-- Completes the NWAITs applied to a slot that is at rest: each writes STATUS and clears REFUSED. -/
def State.settleWaits (s : State) (cl n : Nat) : State :=
  let c := s.cluster cl
  if (c.slot n).resting then
    let waits := c.jwords.filter (fun w => w.atRest && w.slot == n)
    let s1 := s.setCluster cl { c with jwords := c.jwords.filter (fun w => !(w.atRest && w.slot == n)) }
    waits.foldl (fun s w =>
      let st := ((s.cluster cl).slot n).status
      (s.setCluster cl ((s.cluster cl).updSlot n (fun j => { j with refused := false }))).completeOn w.core w.pends [st]) s1
  else s

/-- The words that can be applied next: the first unapplied one of each core, once the stores it follows are registered. -/
def State.nextWords (s : State) (cl : Nat) : List EngineWord :=
  let ws := (s.cluster cl).jwords.filter (fun w => !w.atRest)
  (dedup (ws.map (fun w => w.core))).filterMap (fun k =>
    match ws.find? (fun w => w.core == k) with
    | some w => if (s.core k).awaits w.after || s.stopped k then none else some w
    | none => none)

/-- Removes the first occurrence of a word. -/
def dropWord (w : EngineWord) : List EngineWord → List EngineWord
  | [] => []
  | x :: t => if x = w then t else x :: dropWord w t

/-- Replaces the first occurrence of a word. -/
def markWord (w : EngineWord) : List EngineWord → List EngineWord
  | [] => []
  | x :: t => if x = w then { x with atRest := true } :: t else x :: markWord w t

/-- Applies one engine word: its flag falls, or for NWAIT when the slot comes to rest. -/
def State.applyWord (s : State) (cl : Nat) (w : EngineWord) : State :=
  let c := s.cluster cl
  match w.op with
  | .nwait _ => (s.setCluster cl { c with jwords := markWord w c.jwords }).settleWaits cl w.slot
  | op =>
    ((s.setCluster cl { (c.applyOp w.slot op) with jwords := dropWord w c.jwords }).completeOn w.core w.pends []).settleWaits cl w.slot

/-- An element of a nonempty list, chosen freely where there are several. -/
def pickFree {α : Type} (draw : Nat) : List α → Option α
  | [] => none
  | [x] => some x
  | x :: xs => some (getAt (x :: xs) (Config.freeNat draw % (xs.length + 1)) x)

/-- JACQUARD_WORD_APPLY (R232). -/
def execJacquardWordApply (cluster : Nat) (s : State) : Host.Outcome State Fault Refusal :=
  match pickFree s.cur.draw (s.nextWords cluster) with
  | some w => .next (s.applyWord cluster w)
  | none => .next s

/-! ## Launches (R231 to R236) -/

/-- Channels in use. -/
def Cluster.busy (c : Cluster) : Nat := (c.jslots.filter (fun p => p.2.state == 3 && !(p.2.kind == 0) && !p.2.waitCh)).length

/-- The slots that can launch, with the number under which they became launchable. -/
def Cluster.launchable (c : Cluster) : List (Nat × Nat) :=
  c.jslots.filterMap (fun p => match p.2.queued with
    | some q => if p.2.kind = 0 ∨ c.busy < 4 then some (q, p.1) else none
    | none => none)

/-- The running launches that a resume brought back and that wait for a channel (R239). -/
def State.waiting (s : State) (cl : Nat) : List Nat :=
  sortBy id (AMap.keys ((s.cluster cl).jslots.filter (fun p => p.2.waitCh && !(s.stopped (slotCore cl p.1)))))

/-- The slot that launches next: the one that became launchable first. A launch that a resume brought back takes a free channel
first, and no other slot of its context launches before it (R239). -/
def State.nextLaunchable (s : State) (cl : Nat) : Option Nat :=
  let back := s.waiting cl
  let later (n : Nat) : Bool := back.any (fun m => s.vfOf (slotCore cl m) == s.vfOf (slotCore cl n))
  let able := (s.cluster cl).launchable.filter (fun p => !(s.stopped (slotCore cl p.2)) && !(later p.2))
  if !(back.isEmpty) && decide ((s.cluster cl).busy < 4) then back.head?
  else ((sortBy (fun p => p.1) able).head?).map (fun p => p.2)

/-- The command's fields (R237). -/
def cmdHi (c : Command) : Nat := (c.desc.extractLsb' 96 32).toNat
def cmdDidx (c : Command) : Nat := (c.desc.extractLsb' 64 32).toNat
def cmdRows (c : Command) : Nat := (c.desc.extractLsb' 80 16).toNat
def cmdRowLen (c : Command) : Nat := (c.desc.extractLsb' 64 16).toNat
def cmdSidx (c : Command) : Nat := (c.desc.extractLsb' 32 32).toNat
def cmdNobar (c : Command) : Bool := c.desc.getLsbD 31
def cmdBar (c : Command) : Nat := (c.desc.extractLsb' 16 14).toNat

/-- Elements of a launch. -/
def JSlot.total (j : JSlot) : Nat :=
  if j.kind = 0 then 0 else if j.kind = 1 then cmdHi j.cmd else cmdRows j.cmd * cmdRowLen j.cmd

/-- Bytes a launch credits: the nominal count (R235, R237). -/
def JSlot.bytes (j : JSlot) : Nat := j.total * 2 ^ bEsize j.cmd.src

/-- A launch is complete: the barrier is credited, then the successors released, then the slot is IDLE again (R231, R235).
Successors that become launchable together launch in ascending slot order (R232). -/
def State.finishSlot (s : State) (cl n : Nat) : State :=
  let j := (s.cluster cl).slot n
  let s1 := if j.kind = 0 ∨ cmdNobar j.cmd then s else s.onCore (slotCore cl n) (fun c => c.creditBar (cmdBar j.cmd) j.bytes)
  let c1 := (sortBy (fun n => n) j.succ).foldl Cluster.predDone (s1.cluster cl)
  let j1 := c1.slot n
  let c2 := c1.setSlot n
    { j1 with fired := false, pleft := j1.npred, gen := j1.gen + 1#8, state := 1, failed := j1.runFailed, cause := j1.runCause,
              heldPreds := 0 }
  let s2 := ((s1.setCluster cl c2).settleWaits cl n).onCore (slotCore cl n) (fun c => { c with resumeJ := c.resumeJ.erase n })
  s2.setCluster cl (Cluster.releaseHeld n j1.heldPreds (s2.cluster cl))

/-- ENGINE_LAUNCH (R232): an empty node completes in the cycle of its launch (R242); a launch that a resume brought back goes on
from its PROGRESS (R239). -/
def execEngineLaunch (cluster : Nat) (s : State) : Host.Outcome State Fault Refusal :=
  match s.nextLaunchable cluster with
  | none => .next s
  | some n =>
    if ((s.cluster cluster).slot n).waitCh then
      .next (s.setCluster cluster ((s.cluster cluster).updSlot n (fun j => { j with waitCh := false })))
    else
    let s1 := s.setCluster cluster ((s.cluster cluster).updSlot n (fun j =>
      { j with state := 3, queued := none, progress := 0, runFailed := 0, runCause := 0, idxVal := none, stalled := none }))
    .next (if ((s1.cluster cluster).slot n).kind = 0 then s1.finishSlot cluster n else s1)

/-! ## Elements (R233) -/

/-- The outcome of one access of an engine or matrix store. -/
inductive Elem where
  | bytes (bs : List Byte)
  | fail (cause : Nat)
  | wait
  | stall (entry : Nat)
  deriving DecidableEq, Repr

/-- Translates lines for a unit of a cluster: each by a walk. -/
def State.walkAll (s : State) (v : Nat) (write : Bool) : List Nat → Except (Nat × Bool) (List Nat)
  | [] => .ok []
  | va :: vas =>
    match s.walk v va write with
    | .fault p => .error (va, p)
    | .ok pa =>
      match State.walkAll s v write vas with
      | .error e => .error e
      | .ok pas => .ok (pa :: pas)

/-- A unit stalls on a translation fault (R178, R233); it waits where the table is full. -/
def State.stallOn (s : State) (cl v : Nat) (write : Bool) (f : Nat × Bool) : State × Elem :=
  match s.openX cl v f.1 write f.2 with
  | some (s1, e) => (s1, .stall e)
  | none => (s, .wait)

/-- Reads element `i` of a record, for a unit that acts as a core. -/
def State.readElem (s : State) (core v : Nat) (b : BufRec) (i : Nat) : State × Elem :=
  let w := 2 ^ bEsize b
  let a := s.form core v b i w false
  match a.fault with
  | some n => (s, .fail n)
  | none =>
    if a.waits then (s, .wait)
    else if bSpace b = 0 then
      let k := s.keyOf v b i a.off a.addr
      let va := a.addr / 64 * 64
      match s.walkAll v false (s.linesOf k va) with
      | .error f => s.stallOn (clusterOf core) v false f
      | .ok pas =>
        let r := s.homeRead k va pas (a.addr % 64) w
        if r.2.2 then (r.1.markPage k, .fail 5) else (r.1, .bytes r.2.1)
    else
      let p := scratchPlace core b a.addr
      (s, .bytes ((s.core p.1).scratch.bytes p.2 w))

/-- Writes element `i` of a record; a registered store owned by no core (R233). -/
def State.writeElem (s : State) (core v : Nat) (b : BufRec) (i : Nat) (bs : List Byte) : State × Elem :=
  let a := s.form core v b i bs.length true
  match a.fault with
  | some n => (s, .fail n)
  | none =>
    if a.waits then (s, .wait)
    else if bSpace b = 0 then
      let k := s.keyOf v b i a.off a.addr
      let va := a.addr / 64 * 64
      match s.walkAll v true (s.linesOf k va) with
      | .error f => s.stallOn (clusterOf core) v true f
      | .ok pas =>
        (s.homeWrite k va pas (a.addr % 64) bs none, .bytes [])
    else
      let p := scratchPlace core b a.addr
      (s.onCore p.1 (fun c => { c with scratch := c.scratch.putBytes p.2 bs }), .bytes [])

/-- A slot after an element: a failed one is counted, the first cause kept (R238). -/
def JSlot.step (j : JSlot) (fail : Option Nat) : JSlot :=
  let j1 := { j with progress := j.progress + 1, stalled := none }
  let j2 := if j.kind = 1 ∨ j1.progress % cmdRowLen j.cmd ≠ 0 then j1 else { j1 with idxVal := none }
  match fail with
  | some n => { j2 with runFailed := min 65535 (j2.runFailed + 1), runCause := if j2.runCause = 0 then n else j2.runCause }
  | none => j2

/-- Stores a slot. -/
def State.setSlot (s : State) (cl n : Nat) (j : JSlot) : State := s.setCluster cl ((s.cluster cl).setSlot n j)

/-- Moves one element from an index of SRC to an index of DST; a source of none writes zeros, a destination of none skips. -/
def State.moveElem (s : State) (cl n : Nat) (j : JSlot) (src dst : Option Nat) : State :=
  let core := slotCore cl n
  let v := s.vfOf core
  match dst with
  | none => s.setSlot cl n (j.step none)
  | some d =>
    let r := match src with
      | some i => s.readElem core v j.cmd.src i
      | none => (s, .bytes (List.replicate (2 ^ bEsize j.cmd.dst) 0#8))
    match r.2 with
    | .fail c => r.1.setSlot cl n (j.step (some c))
    | .wait => r.1
    | .stall e => r.1.setSlot cl n { j with stalled := some e }
    | .bytes bs =>
      let w := r.1.writeElem core v j.cmd.dst d bs
      match w.2 with
      | .fail c => w.1.setSlot cl n (j.step (some c))
      | .wait => w.1
      | .stall e => w.1.setSlot cl n { j with stalled := some e }
      | .bytes _ => (w.1.setSlot cl n (j.step none)).count v 0x0E (2 ^ bEsize j.cmd.dst)

/-- Reads the index entry of a row (R237). -/
def State.fetchIdx (s : State) (cl n : Nat) (j : JSlot) : State :=
  let core := slotCore cl n
  let r := s.readElem core (s.vfOf core) j.cmd.idx (cmdSidx j.cmd + j.progress / cmdRowLen j.cmd)
  match r.2 with
  | .fail c => r.1.setSlot cl n { j with idxVal := some (0, c) }
  | .wait => r.1
  | .stall e => r.1.setSlot cl n { j with stalled := some e }
  | .bytes bs => r.1.setSlot cl n { j with idxVal := some (leNat bs, 0) }

/-- The next element of a running launch, in ascending order (R234, R237). -/
def State.nextElem (s : State) (cl n : Nat) (j : JSlot) : State :=
  let i := j.progress
  if j.kind = 1 then s.moveElem cl n j (some (cmdSidx j.cmd + i)) (some (cmdDidx j.cmd + i))
  else
    match j.idxVal with
    | none => s.fetchIdx cl n j
    | some (x, c) =>
      let len := cmdRowLen j.cmd
      let dense := cmdHi j.cmd + i
      let sparse := x * len + i % len
      if c ≠ 0 then s.setSlot cl n (j.step (some c))
      else if j.kind = 2 then s.moveElem cl n j (if x = 0xFFFFFFFF then none else some sparse) (some dense)
      else s.moveElem cl n j (some dense) (if x = 0xFFFFFFFF then none else some sparse)

/-- Whether a slot's launch can go on: it has its channel and is not stalled. -/
def JSlot.canMove (j : JSlot) : Bool := j.state == 3 && !(j.kind == 0) && j.stalled.isNone && !j.waitCh

/-- ENGINE_LAUNCH_COMPLETION (R233 to R235): the launch moves its next element, and when all are done it completes. -/
def execEngineLaunchCompletion (cluster slot : Nat) (s : State) : Host.Outcome State Fault Refusal :=
  let j := (s.cluster cluster).slot slot
  if !j.canMove || s.stopped (slotCore cluster slot) then .next s
  else if j.progress < j.total then .next (s.nextElem cluster slot j)
  else if s.tearing (slotCore cluster slot) then .next s
  else .next (s.finishSlot cluster slot)

/-- The element that a slot stalls on fails with XLATE (R179, R233). -/
def JSlot.abortElem (j : JSlot) : JSlot :=
  if j.kind ≠ 1 ∧ j.idxVal.isNone = true then { j with idxVal := some (0, 4), stalled := none } else j.step (some 4)

/-! ## The engine words (R241) -/

/-- Whether the front end's flag of a word is full (R42). -/
def FrontEnd.flagFull (x : FrontEnd) (f : Bool) : Bool :=
  match selFlag x.setA x.setB f with
  | some i => decide (15 ≤ getAt x.flags i 0)
  | none => false

/-- A front-end result and flag in flight. -/
def Core.openFe (c : Core) (dst : Reg) (f : Bool) : Core × Nat :=
  match c.fe with
  | none => (c, 0)
  | some x =>
    let fl := selFlag x.setA x.setB f
    let x1 := match fl with | some i => { x with flags := raiseFlag x.flags i } | none => x
    { c with fe := some x1 }.addPend ⟨feUid, dst.toNat, [], fl, [.frontEnd], 0⟩

/-- Results and flags for the lanes of a word, in turn. -/
def Core.openAll (dst : Reg) (n : Nat) (f : Bool) : List Nat → Core → Res (Core × List Nat)
  | [], c => .ok (c, [])
  | u :: us, c => (c.openPend u dst n f).bind (fun r => (Core.openAll dst n f us r.1).map (fun x => (x.1, r.2 :: x.2)))

/-- Queues an engine word at the unit. -/
def State.queueWord (s : State) (w : EngineWord) : State :=
  let cl := clusterOf w.core
  let c := s.cluster cl
  s.setCluster cl { c with jwords := c.jwords ++ [w] }

/-- An engine word: its operand comes from the lowest active lane, or the front end; it acts once per run (R241). -/
def engineWord (s : State) (f : Bool) (node : BitVec 8) (srcs dsts : List Reg) (block : Option Reg) (dst : Reg)
    (val : Core → Nat → BitVec 128) (feVal : FrontEnd → BitVec 128) (feOk : Bool)
    (mk : State → BitVec 128 → Option EngineOp) (follows : Bool) : Res State :=
  let form : Form := { stream := .both, helper := false }
  let k := s.cur.core
  let slot := node.toNat
  let n := dsts.length
  let inside := s.sameInstance k (slotCore (clusterOf k) slot)
  (checkForm form s).bind fun _ =>
    let c0 := s.core k
    (operandCheck c0 s.active (fun u => match block with | some r => c0.blockOk u r 4 | none => true) s.lowLane true).bind fun _ =>
    bothWordS form s srcs dsts
      (fun s1 act =>
        match act with
        | [] => .ok s1
        | u :: _ =>
          let c := s1.core k
          if !inside then .trap (trapAt .illegalOperand s1.lowLane)
          else
            match mk s1 (val c u) with
            | none => .trap (trapAt .illegalOperand (c.th u).lane)
            | some op =>
              if c.flagFull act f then .wait false
              else
                let after := if follows then act.flatMap c.storesOf else []
                (Core.openAll dst n f act c).map (fun r => (s1.setCore k r.1).queueWord ⟨k, slot, op, r.2, after, false, false⟩))
      (fun s1 x =>
        if !inside || !feOk then .trap (trapAt .illegalOperand 0)
        else
          match mk s1 (feVal x) with
          | none => .trap (trapAt .illegalOperand 0)
          | some op =>
            if x.flagFull f then .wait false
            else
              let r := (s1.core k).openFe dst f
              .ok ((s1.setCore k r.1).queueWord ⟨k, slot, op, [r.2], [], false, false⟩))

/-- An engine word with one source value. -/
def engineSrc (s : State) (f : Bool) (node : BitVec 8) (a : Reg) (mk : State → Nat → Option EngineOp) : Res State :=
  engineWord s f node [a] [] none 108#7 (fun c u => (c.readReg s.cur.draw u a).setWidth 128) (fun x => (x.read s.cur.draw a).setWidth 128)
    true (fun s1 v => mk s1 v.toNat) false

/-- NDEF (R242). -/
def execNdef (_lk : Link) (f : Bool) (node : BitVec 8) (a : Reg) (s : State) : Host.Outcome State Fault Refusal :=
  finish s (engineSrc s f node a (fun _ v => if v < 2 then some (.ndef (v == 1)) else none))

/-- NEDGE (R242): the target slot lies in the instance. -/
def execNedge (_lk : Link) (f : Bool) (node : BitVec 8) (a : Reg) (s : State) : Host.Outcome State Fault Refusal :=
  finish s (engineSrc s f node a (fun s1 v =>
    let t := v % 256
    if (v == t || v == t + 2 ^ 31) && s1.sameInstance s1.cur.core (slotCore (clusterOf s1.cur.core) t) then
      some (.nedge t (decide (2 ^ 31 ≤ v)))
    else none))

/-- NFIRE (R243): it reaches the unit once the thread's earlier stores are registered (R236). -/
def execNfire (_lk : Link) (f : Bool) (node : BitVec 8) (s : State) : Host.Outcome State Fault Refusal :=
  finish s (engineWord s f node [] [] none 108#7 (fun _ _ => 0#128) (fun _ => 0#128) true (fun _ _ => some .nfire) true)

/-- NWAIT (R244). -/
def execNwait (_lk : Link) (f : Bool) (node : BitVec 8) (a : Reg) (s : State) : Host.Outcome State Fault Refusal :=
  finish s (engineWord s f node [] [a] none a (fun _ _ => 0#128) (fun _ => 0#128) true (fun _ _ => some (.nwait a.toNat)) false)

/-- The command of a descriptor with the records it names, where it is valid (R237). -/
def makeCmd (s : State) (kind slot : Nat) (buf : Nat → BufRec) (d : BitVec 128) : Option EngineOp :=
  let n := d.toNat
  let src := buf (bits n 4 0)
  let dst := buf (bits n 9 5)
  let idx := buf (bits n 14 10)
  let cmd : Command := ⟨d, src, dst, idx⟩
  let reserved := tbit n 30 || tbit n 15 || (kind == 1 && !(bits n 14 10 == 0))
  let rows := !(kind == 1) && (cmdRowLen cmd == 0 || !(bEsize idx == 2) || bSpace idx == 2)
  let bar := !(cmdNobar cmd) && !(s.barOk (slotCore (clusterOf s.cur.core) slot) (cmdBar cmd))
  if reserved || !(bEsize src == bEsize dst) || rows || bar then none else some (.load kind cmd)

/-- CPY, GATH and SCAT: the descriptor stands in four registers of a warp's thread, or two of the front end. -/
def commandWord (s : State) (f : Bool) (node : BitVec 8) (a : Reg) (kind : Nat) : Res State :=
  let c := s.core s.cur.core
  let draw := s.cur.draw
  let buf (i : Nat) : BufRec := if s.cur.fe then AMap.lookD c.bufs i 0#128 else c.buf draw i
  engineWord s f node [] [] (if s.cur.fe then none else some a) 108#7
    (fun c u => BitVec.ofNat 128 (leNat (wordsBytes (c.readBlock draw u a 4))))
    (fun x => x.read draw (a + 1#7) ++ x.read draw a) (decide (a.toNat ≤ 62))
    (fun s1 d => makeCmd s1 kind node.toNat buf d) false

/-- CPY (R242). -/
def execCpy (_lk : Link) (f : Bool) (node : BitVec 8) (a : Reg) (s : State) : Host.Outcome State Fault Refusal :=
  finish s (commandWord s f node a 1)

/-- GATH (R242). -/
def execGath (_lk : Link) (f : Bool) (node : BitVec 8) (a : Reg) (s : State) : Host.Outcome State Fault Refusal :=
  finish s (commandWord s f node a 2)

/-- SCAT (R242). -/
def execScat (_lk : Link) (f : Bool) (node : BitVec 8) (a : Reg) (s : State) : Host.Outcome State Fault Refusal :=
  finish s (commandWord s f node a 3)

end Sys2Proof.Machine
end

