-- ==== Sys2Proof/Machine/Special.lean ====
section
/-! DEFINITION. The special functions of pipe Y (R148, R149). The spec bounds each result and leaves the function open:
the model takes the free constant `Config.special` where its answer lies within the bound, else an answer of its own that
does. The bounds of 1/x, 1/√x and √x are decided exactly; the others against an enclosure of the exact result whose width
is far below the bound, so that no answer the bound allows is shut out. -/

namespace Sys2Proof.Machine

open Sys2Proof

/-! ## Dyadic comparisons -/

/-- a × 2^ea ≤ b × 2^eb. -/
def dyLe (a ea b eb : Int) : Bool :=
  let e := if ea ≤ eb then ea else eb
  decide (a * 2 ^ (ea - e).toNat ≤ b * 2 ^ (eb - e).toNat)

/-- a × 2^ea < b × 2^eb. -/
def dyLt (a ea b eb : Int) : Bool := !(dyLe b eb a ea)

/-- The sum of two dyadic numbers. -/
def dyAdd (a ea b eb : Int) : Int × Int :=
  let e := if ea ≤ eb then ea else eb
  (a * 2 ^ (ea - e).toNat + b * 2 ^ (eb - e).toNat, e)

/-- The binade of m × 2^e, 0 < m. -/
def binade (m : Nat) (e : Int) : Int := (Nat.log2 m : Int) + e

/-- The exponent of an ulp in a binade (R148). -/
def ulpExp (b : Int) : Int := (if b < -126 then -126 else b) - 23

/-- Whether a significand is a power of two. -/
def pow2 (m : Nat) : Bool := m == 2 ^ Nat.log2 m

/-! ## Exact bounds -/

/-- |r − 1/x| < 1 ulp, for x = m × 2^e > 0. -/
def nearRcp (m : Nat) (e : Int) (rm re : Int) : Bool :=
  let b := if pow2 m then -(binade m e) else -(binade m e) - 1
  let u := ulpExp b
  let d := dyAdd (rm * m) (re + e) (-1) 0
  dyLt (d.1.natAbs : Int) d.2 (m : Int) (u + e)

/-- |r − √x| < 1 ulp. -/
def nearSqrt (m : Nat) (e : Int) (rm re : Int) : Bool :=
  let u := ulpExp ((binade m e) / 2)
  let lo := dyAdd rm re (-1) u
  let hi := dyAdd rm re 1 u
  (decide (lo.1 < 0) || dyLt (lo.1 * lo.1) (2 * lo.2) m e) && decide (0 < hi.1) && dyLt m e (hi.1 * hi.1) (2 * hi.2)

/-- |r − 1/√x| < 1 ulp. -/
def nearRsqrt (m : Nat) (e : Int) (rm re : Int) : Bool :=
  let b := binade m e
  let u := ulpExp (if pow2 m then (-b) / 2 else (-(b + 1)) / 2)
  let lo := dyAdd rm re (-1) u
  let hi := dyAdd rm re 1 u
  (decide (lo.1 < 0) || dyLt (lo.1 * lo.1 * m) (2 * lo.2 + e) 1 0) && decide (0 < hi.1) && dyLt 1 0 (hi.1 * hi.1 * m) (2 * hi.2 + e)

/-! ## Enclosures -/

/-- π rounded down in units of 2^-320, and log₂ e rounded down in units of 2^-192. -/
def piUnits : Nat := 6710401180212168915155840974220003240804194089427148950727106424351713218671805380099500388914039
def log2eUnits : Nat := 9055943544797870567083544809312461607371518589544137143473

/-- ln 2 rounded down in units of 2^-128: the sum of 1 / (k 2^k). -/
def ln2Units : Nat := ((List.range 160).foldl (fun n k => n + 2 ^ 160 / ((k + 1) * 2 ^ (k + 1))) 0) / 2 ^ 32

/-- exp(y / 2^128) in units of 2^-128, rounded down, by its series; the error is below 64 units for y ≤ 2^128. -/
def expSeries : Nat → Nat → Nat → Nat → Nat
  | 0, _, _, s => s
  | n + 1, y, t, s =>
    let k := 41 - (n + 1)
    let t1 := t * y / 2 ^ 128 / k
    expSeries n y t1 (s + t1)

/-- 2^x for x = X / 2^128: a number n and a lower bound s in units of 2^-128 with 2^x in 2^n × [s, s + 64]. -/
def exp2Units (x : Int) : Int × Nat :=
  let n := x / (2 ^ 128 : Nat)
  let f := (x - n * (2 ^ 128 : Nat)).toNat
  (n, expSeries 40 (f * ln2Units / 2 ^ 128) (2 ^ 128) (2 ^ 128))

/-- A dyadic number in units of 2^-128, rounded down. -/
def toUnits (a ea : Int) : Int := if 0 ≤ ea + 128 then a * 2 ^ (ea + 128).toNat else a / (2 ^ (-(ea + 128)).toNat : Nat)

/-- An enclosure: lower and upper bound in units of 2^e. -/
structure Encl where
  lo : Int
  hi : Int
  e : Int

/-- |r − y| ≤ b × 2^be is possible for some y of the enclosure. -/
def Encl.near (x : Encl) (rm re b be : Int) : Bool :=
  let l := dyAdd x.lo x.e (-b) be
  let h := dyAdd x.hi x.e b be
  dyLe l.1 l.2 rm re && dyLe rm re h.1 h.2

/-- The exponent of an ulp at the enclosed value, which is no power of two: where the enclosure reaches one, the value lies below
it. -/
def Encl.ulp (x : Encl) : Int :=
  let m := min x.lo.natAbs x.hi.natAbs
  if m = 0 then -149 else ulpExp (binade m x.e)

/-- Within 2 ulp. -/
def Encl.near2 (x : Encl) (rm re : Int) : Bool := x.near rm re 2 x.ulp

/-- 2^x. -/
def enclExp2 (xm xe : Int) : Encl :=
  let p := exp2Units (toUnits xm xe)
  ⟨p.2, p.2 + 64, p.1 - 128⟩

/-- The binade of |log₂ x|, for x = m × 2^e > 0 that is no power of two. -/
def log2Binade (m : Nat) (e : Int) : Int :=
  let reaches (k : Int) : Bool :=
    if 0 ≤ binade m e then (let x := enclExp2 1 k; dyLe x.lo x.e m e) else (let x := enclExp2 (-1) k; dyLe m e x.hi x.e)
  match (List.range 33).find? (fun (i : Nat) => reaches (7 - (i : Int))) with
  | some i => 7 - (i : Int)
  | none => -26

/-- |r − log₂ x| ≤ 2 ulp is possible, for x = m × 2^e > 0 that is no power of two. -/
def nearLog2 (m : Nat) (e : Int) (rm re : Int) : Bool :=
  let u := ulpExp (log2Binade m e)
  let lo := dyAdd rm re (-2) u
  let hi := dyAdd rm re 2 u
  let small (a ea : Int) : Bool := dyLe (a.natAbs : Int) ea 256 0
  small lo.1 lo.2 && small hi.1 hi.2 &&
    (let l := enclExp2 lo.1 lo.2; dyLe l.lo l.e m e) && (let h := enclExp2 hi.1 hi.2; dyLe m e h.hi h.e)

/-- log₂ x in units of 2^-80, rounded down, bit by bit. -/
def log2Units (m : Nat) (e : Int) : Nat → Int → Int
  | 0, t => t
  | n + 1, t =>
    let t1 := t + 2 ^ n
    let x := enclExp2 t1 (-80)
    log2Units m e n (if dyLe x.lo x.e m e then t1 else t)

/-- tanh x for x = m × 2^e > 0. -/
def enclTanh (m : Nat) (e : Int) : Encl :=
  if binade m e < -10 then
    let big := (m : Int) * 2 ^ 128
    let cube := toUnits ((m : Int) ^ 3) (2 * e) / 3
    ⟨big - cube - 1, big - cube + (m : Int) * 2 ^ 90 + 1, e - 128⟩
  else if 6 < binade m e then ⟨2 ^ 64 - 1, 2 ^ 64, -64⟩
  else
    let y := toUnits (-2 * (m : Int) * log2eUnits) (e - 192)
    let p := exp2Units y
    let elo : Int := if 0 ≤ p.1 then p.2 else (p.2 / 2 ^ (-p.1).toNat : Nat)
    let ehi : Int := elo + 66
    let one : Int := 2 ^ 128
    ⟨(one - ehi) * one / (one + ehi), (one - elo) * one / (one + elo) + 1, -128⟩

/-- The series of sin or cos on [0, π/2] in units of 2^-128, by alternating terms. -/
def trigSeries : Nat → Nat → Nat → Nat → Bool → Int → Int
  | 0, _, _, _, _, s => s
  | n + 1, y2, k, t, neg, s =>
    let t1 := t * y2 / 2 ^ 128 / (k * (k + 1))
    trigSeries n y2 (k + 2) t1 (!neg) (if neg then s - t1 else s + t1)

/-- sin (m × 2^e) or cos, for m × 2^e ≥ 0, within 2^-100. -/
def enclTrig (cos : Bool) (m : Nat) (e : Int) : Encl :=
  let one : Int := 2 ^ 128
  let x : Nat := if 0 ≤ e + 320 then m * 2 ^ (e + 320).toNat else m / 2 ^ (-(e + 320)).toNat
  let q := x / (piUnits / 2)
  let y := x % (piUnits / 2) / 2 ^ 192
  let y2 := y * y / 2 ^ 128
  let sn := trigSeries 24 y2 2 y true y
  let cs := trigSeries 24 y2 1 (2 ^ 128) true one
  let k := (if cos then q + 1 else q) % 4
  let v := if k = 0 then sn else if k = 1 then cs else if k = 2 then -sn else -cs
  ⟨v - 2 ^ 28, v + 2 ^ 28, -128⟩

/-! ## The model's own answers, within the bounds -/

/-- An integer square root by Newton's method from above. -/
def isqrt : Nat → Nat → Nat → Nat
  | 0, _, r => r
  | n + 1, x, r => let r1 := (r + x / r) / 2; if r1 < r then isqrt n x r1 else r

/-- √x, rounded down. -/
def rootOf (x : Nat) : Nat := if x = 0 then 0 else isqrt 512 x (2 ^ (Nat.log2 x / 2 + 1))

/-- A value known to lie in [v, v + 1) units of 2^e, rounded to FP32. -/
def ownCode (neg : Bool) (v : Nat) (exact : Bool) (e : Int) : Nat :=
  (fp32.roundTo .rne false neg (2 * v + (if exact then 0 else 1)) (e - 1)).1

/-- 1/x. -/
def ownRcp (neg : Bool) (m : Nat) (e : Int) : Nat :=
  let k := Nat.log2 m + 64
  ownCode neg (2 ^ k / m) (2 ^ k % m == 0) (-(k : Int) - e)

/-- √x. -/
def ownSqrt (m : Nat) (e : Int) : Nat :=
  let e1 := if e % 2 = 0 then e - 128 else e - 129
  let x := m * 2 ^ (e - e1).toNat
  let r := rootOf x
  ownCode false r (r * r == x) (e1 / 2)

/-- 1/√x. -/
def ownRsqrt (m : Nat) (e : Int) : Nat :=
  let e1 := if e % 2 = 0 then e else e - 1
  let x := m * 2 ^ (e - e1).toNat
  let k := Nat.log2 x + 128
  let r := rootOf (2 ^ (2 * k) / x)
  ownCode false r (r * r * x == 2 ^ (2 * k)) (-(k : Int) - e1 / 2)

/-- The middle of an enclosure. -/
def Encl.own (x : Encl) : Nat :=
  let v := x.lo + x.hi
  if v = 0 then 0 else (fp32.roundTo .rne false (decide (v < 0)) v.natAbs (x.e - 1)).1

/-! ## The functions -/

/-- The functions of R148, by number. -/
inductive Special where
  | rcp | rsq | sqrt | ex2 | lg2 | tanh | sin | cos
  deriving DecidableEq, Repr

def Special.num : Special → Nat
  | .rcp => 0
  | .rsq => 1
  | .sqrt => 2
  | .ex2 => 3
  | .lg2 => 4
  | .tanh => 5
  | .sin => 6
  | .cos => 7

/-- Whether an answer ±rm × 2^re lies within the bound of R148 for the input ±m × 2^e. -/
def Special.near (k : Special) (neg : Bool) (m : Nat) (e : Int) (rn : Bool) (rm : Nat) (re : Int) : Bool :=
  let r := sgn rn rm
  match k with
  | .rcp => nearRcp m e (if neg then -r else r) re
  | .rsq => nearRsqrt m e r re
  | .sqrt => nearSqrt m e r re
  | .ex2 => (enclExp2 (sgn neg m) e).near2 r re
  | .lg2 => nearLog2 m e r re
  | .tanh => (enclTanh m e).near2 (if neg then -r else r) re
  | .sin => trigNear (enclTrig false m e) m e (if neg then -r else r) re
  | .cos => trigNear (enclTrig true m e) m e r re
where
  /-- 2^-22, and beyond π also |x| × 2^-46. -/
  trigNear (x : Encl) (m : Nat) (e r re : Int) : Bool :=
    if dyLe m e piUnits (-320) then x.near r re 1 (-22)
    else
      let b := dyAdd 1 (-22) m (e - 46)
      x.near r re b.1 b.2

/-- The model's own answer. -/
def Special.own (k : Special) (neg : Bool) (m : Nat) (e : Int) : Nat :=
  match k with
  | .rcp => ownRcp neg m e
  | .rsq => ownRsqrt m e
  | .sqrt => ownSqrt m e
  | .ex2 => (enclExp2 (sgn neg m) e).own
  | .lg2 => (let t := log2Units m e 80 (binade m e * 2 ^ 80)
             Encl.own ⟨t, t, -80⟩)
  | .tanh => (let c := (enclTanh m e).own
              if neg then c + 2 ^ 31 else c)
  | .sin => (let c := (enclTrig false m e).own
             if neg then (c + 2 ^ 31) % 2 ^ 32 else c)
  | .cos => (enclTrig true m e).own

/-- The answer for a finite nonzero input with a finite result: the free constant's where it lies within the bound. -/
def Special.answer (k : Special) (x : Word) (neg : Bool) (m : Nat) (e : Int) : Nat :=
  let c := Config.special k.num x
  match fp32.value c.toNat with
  | .fin rn rm re => if k.near neg m e rn rm re then c.toNat else k.own neg m e
  | _ => k.own neg m e

/-- FP32 codes that the table of R149 names. -/
def pInf : Nat := 0x7F800000
def nInf : Nat := 0xFF800000
def pOne : Nat := 0x3F800000
def cNan : Nat := 0x7FC00000

/-- The integer value of a dyadic number, where it is one. -/
def dyInt (neg : Bool) (m : Nat) (e : Int) : Option Int :=
  if 0 ≤ e then some (sgn neg (m * 2 ^ e.toNat))
  else if m % 2 ^ (-e).toNat = 0 then some (sgn neg (m / 2 ^ (-e).toNat))
  else none

/-- A special function: result and FSTAT bits (R148, R149). The result of FRCP at ±2^-128, where the spec states none, is
the free constant's. -/
def Special.eval (k : Special) (x : Word) : Nat × Nat :=
  match fp32.value x.toNat with
  | .nan s => (cNan, if s then stNV else 0)
  | .inf neg =>
    match k with
    | .rcp => (if neg then 2 ^ 31 else 0, 0)
    | .rsq => if neg then (cNan, stNV) else (0, 0)
    | .sqrt => if neg then (cNan, stNV) else (pInf, 0)
    | .ex2 => (if neg then 0 else pInf, 0)
    | .lg2 => if neg then (cNan, stNV) else (pInf, 0)
    | .tanh => (if neg then pOne + 2 ^ 31 else pOne, 0)
    | .sin => (cNan, stNV)
    | .cos => (cNan, stNV)
  | .fin neg m e =>
    let z := if neg then 2 ^ 31 else 0
    if m = 0 then
      match k with
      | .rcp => (pInf + z, stDZ)
      | .rsq => (pInf + z, stDZ)
      | .sqrt => (z, 0)
      | .ex2 => (pOne, 0)
      | .lg2 => (nInf, stDZ)
      | .tanh => (z, 0)
      | .sin => (z, 0)
      | .cos => (pOne, 0)
    else
      let b := binade m e
      let plain (_ : Unit) : Nat × Nat := (k.answer x neg m e, 0)
      match k with
      | .rcp =>
        if b < -128 then (pInf + z, stOF)
        else if b = -128 ∧ pow2 m then ((Config.special 0 x).toNat, 0)
        else plain ()
      | .rsq => if neg then (cNan, stNV) else plain ()
      | .sqrt => if neg then (cNan, stNV) else plain ()
      | .ex2 =>
        if !neg && dyLe 128 0 m e then (pInf, stOF)
        else if neg && dyLt 150 0 m e then (0, 0)
        else
          match dyInt neg m e with
          | some i => if -149 ≤ i then (if i < -126 then 2 ^ (i + 149).toNat else (i + 127).toNat * 2 ^ 23, 0) else plain ()
          | none => plain ()
      | .lg2 =>
        if neg then (cNan, stNV)
        else if pow2 m then (fp32.finish .rne false (.fin (decide (b < 0)) b.natAbs 0) |>.1, 0)
        else plain ()
      | _ => plain ()

end Sys2Proof.Machine
end

