-- ==== Sys2Proof/Machine/FloatWords.lean ====
section
/-! DEFINITION. The float, conversion, special-function and random words of majors 0x15 to 0x1B (R138, R139, R144 to
R156). -/

namespace Sys2Proof.Machine

open Sys2Proof

/-! ## Shapes -/

/-- Adds each active thread's status bits (R137). -/
def Core.orAll (c : Core) (act : List Nat) (delay : Nat) (bitsOf : Nat → Nat) : Core :=
  act.foldl (fun c1 u => c1.updTh u (fun t => t.orFstat (BitVec.ofNat 32 (bitsOf u)) delay)) c

/-- A float word: result and FSTAT bits per thread. -/
def floatWord (f : Form) (s : State) (p : ResPipe) (d : Reg) (srcs : List Reg) (val : Core → Nat → Nat × Nat) : Res State :=
  warpWord f s srcs [d] (fun c act =>
    (c.results s.cur.draw p s.cur.run act d (fun u => BitVec.ofNat 32 (val c u).1)).map (fun c1 =>
      c1.orAll act p.delay (fun u => (val c u).2)))

/-- A float operand of a format (R45, R425). -/
def Core.readF (c : Core) (draw u : Nat) (f : Fmt) (r : Reg) : Nat := f.operand r (c.readReg draw u r)

/-- The rounding mode of the word in hand (R134). -/
def State.mode (s : State) : Mode := modeOf s.ext.rm

/-! ## Arithmetic (R145) -/

/-- FADD, FSUB and FMUL. -/
def arithWord (s : State) (d a b : Reg) (op : Mode → Num → Num → Num × Nat) : Res State :=
  let n := s.cur.draw
  floatWord { rm := true, sat := true } s .x d [a, b] (fun c u =>
    fp32.arith s.mode s.ext.sat (op s.mode (fp32.value (c.readF n u fp32 a)) (fp32.value (c.readF n u fp32 b))))

/-- The difference: the sum with the second value's sign changed. -/
def subNum (mode : Mode) (a b : Num) : Num × Nat := addNum mode a b.neg

/-- FADD (R145). -/
def execFadd (_lk : Link) (d a b : Reg) (s : State) : Host.Outcome State Fault Refusal := finish s (arithWord s d a b addNum)

/-- FSUB (R145). -/
def execFsub (_lk : Link) (d a b : Reg) (s : State) : Host.Outcome State Fault Refusal := finish s (arithWord s d a b subNum)

/-- FMUL (R145). -/
def execFmul (_lk : Link) (d a b : Reg) (s : State) : Host.Outcome State Fault Refusal :=
  finish s (arithWord s d a b (fun _ x y => mulNum x y))

/-- FFMA (R145): the addend is C3, or the old destination where no C3 is named (R51). -/
def execFfma (_lk : Link) (d a b : Reg) (s : State) : Host.Outcome State Fault Refusal :=
  let n := s.cur.draw
  let c3 := s.ext.c3
  let add := if c3 = 0#7 then d else c3
  finish s (floatWord { rm := true, sat := true, c3 := true } s .x d (if c3 = 0#7 then [a, b] else [a, b, c3]) (fun c u =>
    fp32.arith s.mode s.ext.sat (fmaNum s.mode (fp32.value (c.readF n u fp32 a)) (fp32.value (c.readF n u fp32 b))
      (fp32.value (c.readF n u fp32 add)))))

/-! ## Minimum, maximum, magnitude, comparison -/

/-- FMIN and FMAX. -/
def pickWord (s : State) (d a b : Reg) (max : Bool) : Res State :=
  let n := s.cur.draw
  floatWord {} s .x d [a, b] (fun c u => fp32.pick max (c.readF n u fp32 a) (c.readF n u fp32 b))

/-- FMIN (R146). -/
def execFmin (_lk : Link) (d a b : Reg) (s : State) : Host.Outcome State Fault Refusal := finish s (pickWord s d a b false)

/-- FMAX (R146). -/
def execFmax (_lk : Link) (d a b : Reg) (s : State) : Host.Outcome State Fault Refusal := finish s (pickWord s d a b true)

/-- FABS (R146). -/
def execFabs (_lk : Link) (d a : Reg) (s : State) : Host.Outcome State Fault Refusal :=
  finish s (floatWord {} s .x d [a] (fun c u => (c.readF s.cur.draw u fp32 a % 2 ^ 31, 0)))

/-- FCMP's conditions and NV (R147). -/
def floatCond (k : BitVec 4) (a b : Nat) : Bool × Nat :=
  let x := fp32.value a
  let y := fp32.value b
  let un := x.isNan || y.isNan
  let o := cmpNum x y
  let quiet := nvOf [x, y]
  let loud := if un then stNV else 0
  if k = 0#4 then (!un && o == .eq, quiet)
  else if k = 1#4 then (un || !(o == .eq), quiet)
  else if k = 2#4 then (!un && o == .lt, loud)
  else if k = 3#4 then (!un && !(o == .gt), loud)
  else if k = 4#4 then (!un && o == .gt, loud)
  else if k = 5#4 then (!un && !(o == .lt), loud)
  else if k = 6#4 then (un, quiet)
  else (!un, quiet)

/-- FCMP (R147). -/
def execFcmp (_lk : Link) (k : BitVec 4) (p : BitVec 3) (a b : Reg) (s : State) : Host.Outcome State Fault Refusal :=
  let n := s.cur.draw
  finish s (warpWord { legal := decide (k.toNat ≤ 7) } s [a, b] [] (fun c act =>
    let r (u : Nat) : Bool × Nat := floatCond k (c.readF n u fp32 a) (c.readF n u fp32 b)
    .ok ((act.foldl (fun c1 u => c1.updTh u (fun t => t.setPred p.toNat (r u).1 4)) c).orAll act 4 (fun u => (r u).2))))

/-! ## Special functions (R148, R149) -/

/-- A special function of pipe Y. -/
def specialWord (k : Special) (s : State) (d a : Reg) : Res State :=
  floatWord {} s .y d [a] (fun c u => k.eval (BitVec.ofNat 32 (c.readF s.cur.draw u fp32 a)))

/-- FRCP (R148). -/
def execFrcp (_lk : Link) (d a : Reg) (s : State) : Host.Outcome State Fault Refusal := finish s (specialWord .rcp s d a)

/-- FRSQ (R148). -/
def execFrsq (_lk : Link) (d a : Reg) (s : State) : Host.Outcome State Fault Refusal := finish s (specialWord .rsq s d a)

/-- FSQRT (R148). -/
def execFsqrt (_lk : Link) (d a : Reg) (s : State) : Host.Outcome State Fault Refusal := finish s (specialWord .sqrt s d a)

/-- FEX2 (R148). -/
def execFex2 (_lk : Link) (d a : Reg) (s : State) : Host.Outcome State Fault Refusal := finish s (specialWord .ex2 s d a)

/-- FLG2 (R148). -/
def execFlg2 (_lk : Link) (d a : Reg) (s : State) : Host.Outcome State Fault Refusal := finish s (specialWord .lg2 s d a)

/-- FTANH (R148). -/
def execFtanh (_lk : Link) (d a : Reg) (s : State) : Host.Outcome State Fault Refusal := finish s (specialWord .tanh s d a)

/-- FSIN (R148). -/
def execFsin (_lk : Link) (d a : Reg) (s : State) : Host.Outcome State Fault Refusal := finish s (specialWord .sin s d a)

/-- FCOS (R148). -/
def execFcos (_lk : Link) (d a : Reg) (s : State) : Host.Outcome State Fault Refusal := finish s (specialWord .cos s d a)

/-! ## The generator (R138, R139) -/

/-- One step of G: the new state and the 32 bits drawn (R138). -/
def genStep (g : DWord) : DWord × Word :=
  let g1 := g * 0xD1342543DE82EF95#64 + 1#64
  (g1, ((g1 ^^^ (g1 >>> 27)).extractLsb' 32 32))

/-- The multiplier that spreads TIDs and indices (R139). -/
def genSpread (n : Nat) : DWord := BitVec.ofNat 64 n * 0x9E3779B97F4A7C15#64

/-- Steps each active thread's generator (R138). -/
def Core.stepGen (c : Core) (act : List Nat) : Core := c.updAll act (fun t => { t with gen := (genStep t.gen).1 })

/-! ## Conversions -/

/-- The float format of a conversion code: 0 to 4 as source, 6 to 10 as result (R150). -/
def cvtFmt (n : Nat) : Fmt :=
  if n = 0 ∨ n = 6 then fp16 else if n = 1 ∨ n = 7 then bf16 else if n = 2 ∨ n = 8 then e4m3
  else if n = 3 ∨ n = 9 then e5m2 else e2m1

/-- Element width of a conversion code (R150). -/
def cvtWidth (n : Nat) : Nat := if n = 5 ∨ n = 11 then 8 else (cvtFmt n).width

/-- A widening conversion of a code (R151). -/
def widen (sel x : Nat) : Nat × Nat :=
  if sel = 5 then
    (if x = 0xFF then (cNan, 0) else fp32.finish .rne false (.fin false 1 ((x : Int) - 127)))
  else
    match (cvtFmt sel).value x with
    | .nan s => (cNan, if s then stNV else 0)
    | v => fp32.finish .rne false v

/-- FP32 to E8M0 (R151). -/
def toE8m0 (x : Nat) : Nat × Nat :=
  match fp32.value x with
  | .nan s => (0xFF, if s then stNV else 0)
  | .inf _ => (0xFF, 0)
  | .fin .. => (x / 2 ^ 23 % 256, 0)

/-- A narrowing conversion (R151); `rnd` is the random value of a stochastic one. An E2M1 overflow sets OF whether or not
SAT asks, and saturates. -/
def narrow (sel : Nat) (mode : Mode) (sat : Bool) (rnd : Option Nat) (x : Nat) : Nat × Nat :=
  let f := cvtFmt sel
  let small := f.inf.isNone && f.nan.isNone
  match fp32.value x with
  | .nan s => (f.nanCode, if s || small then stNV else 0)
  | .inf neg =>
    if sat then (f.maxCode + f.sign neg, stSC)
    else (f.infCode neg, if f.inf.isNone then stNV else 0)
  | .fin neg m e =>
    let r := match rnd with
      | some n => f.sround sat neg m e n
      | none => f.finish mode (sat || small) (.fin neg m e)
    if small && (tbit r.2 6 || tbit r.2 2) then (r.1, orBits r.2 stOF) else r

/-- CVTF (R150, R151). -/
def execCvtf (_lk : Link) (d a b : Reg) (s : State) : Host.Outcome State Fault Refusal :=
  let n := s.cur.draw
  let sel := s.ext.sel.toNat
  let narrowing := decide (6 ≤ sel) && decide (sel ≤ 10)
  let f : Form := { rm := narrowing, sr := narrowing, sat := narrowing, sel := fun e => decide (e.toNat ≤ 11) }
  let w := cvtWidth sel
  let val (c : Core) (u : Nat) : Nat × Nat :=
    let e := (c.readReg n u b).toNat % (32 / w)
    if sel ≤ 5 then
      let x := if 112 ≤ a.toNat then everyElem w (if sel = 5 then e8m0Const (a.toNat - 112) else (cvtFmt sel).const (a.toNat - 112))
        else (c.readReg n u a).toNat
      widen sel (elem w e x)
    else
      let x := c.readF n u fp32 a
      let t := if sel = 11 then toE8m0 x
        else narrow sel s.mode s.ext.sat (if s.ext.sr then some (genStep (c.th u).gen).2.toNat else none) x
      (setElem w e (c.readReg n u d).toNat t.1, t.2)
  finish s (warpWord f s [a, b] [d] (fun c act =>
    (c.results n .y s.cur.run act d (fun u => BitVec.ofNat 32 (val c u).1)).map (fun c1 =>
      let c2 := c1.orAll act 6 (fun u => (val c u).2)
      if s.ext.sr then c2.stepGen act else c2)))

/-- CVTSR (R154): CVTF's stochastic rounding with the random value from B and the element from C3. -/
def execCvtsr (_lk : Link) (d a b : Reg) (s : State) : Host.Outcome State Fault Refusal :=
  let n := s.cur.draw
  let sel := s.ext.sel.toNat
  let ok := decide (6 ≤ sel) && decide (sel ≤ 10)
  let w := cvtWidth sel
  let c3 := s.ext.c3
  finish s (floatWord { c3 := true, sat := true, legal := ok, sel := fun _ => ok } s .y d (if c3 = 0#7 then [a, b] else [a, b, c3])
    (fun c u =>
      let e := (if c3 = 0#7 then 0 else (c.readReg n u c3).toNat) % (32 / w)
      let t := narrow sel .rne s.ext.sat (some (c.readReg n u b).toNat) (c.readF n u fp32 a)
      (setElem w e (c.readReg n u d).toNat t.1, t.2)))

/-- An FP32 value as an integer in a range (R152). -/
def toInteger (mode : Mode) (lo hi : Int) (x : Nat) : Int × Nat :=
  match fp32.value x with
  | .nan _ => (0, stNV)
  | .inf neg => (if neg then lo else hi, stNV)
  | .fin neg m e =>
    let u := inUnits m e 0
    let exact := u.2.1 == 0
    let i := sgn neg (if roundsUp mode neg u.1 u.2.1 u.2.2 exact then u.1 + 1 else u.1)
    if i < lo then (lo, stNV) else if hi < i then (hi, stNV) else (i, if exact then 0 else stNX)

/-- CVTFI (R152). -/
def execCvtfi (_lk : Link) (d a b : Reg) (s : State) : Host.Outcome State Fault Refusal :=
  let n := s.cur.draw
  let sel := s.ext.sel.toNat
  let f : Form := { rm := true, legal := decide (2 ≤ sel) || b == 0#7, sel := fun e => decide (e.toNat ≤ 3) }
  let w := if sel < 2 then 32 else 8
  let lo : Int := if sel % 2 = 1 then 0 else -(2 ^ (w - 1) : Nat)
  let hi : Int := if sel % 2 = 1 then (2 ^ w : Nat) - 1 else (2 ^ (w - 1) : Nat) - 1
  finish s (floatWord f s .y d (if sel < 2 then [a] else [a, b]) (fun c u =>
    let r := toInteger s.mode lo hi (c.readF n u fp32 a)
    let bitsOf := (ofInt32 r.1).toNat
    if sel < 2 then (bitsOf, r.2)
    else (setElem 8 ((c.readReg n u b).toNat % 4) (c.readReg n u d).toNat bitsOf, r.2)))

/-- CVTIF (R153). -/
def execCvtif (_lk : Link) (d a b : Reg) (s : State) : Host.Outcome State Fault Refusal :=
  let n := s.cur.draw
  let sel := s.ext.sel.toNat
  let f : Form := { rm := true, legal := decide (2 ≤ sel) || b == 0#7, sel := fun e => decide (e.toNat ≤ 3) }
  finish s (floatWord f s .y d (if sel < 2 then [a] else [a, b]) (fun c u =>
    let x := (c.readReg n u a).toNat
    let y := if sel < 2 then x else elem 8 ((c.readReg n u b).toNat % 4) x
    let i : Int := if sel % 2 = 1 then y else sext (if sel < 2 then 32 else 8) y
    fp32.finish s.mode false (.fin (decide (i < 0)) i.natAbs 0)))

/-! ## Packed pairs (R155) -/

/-- A packed word: both halves and the bits of both. -/
def packed (f : Nat → Nat × Nat) : Nat × Nat :=
  let l := f 0
  let h := f 1
  (l.1 + 65536 * h.1, orBits l.2 h.2)

/-- The format of a packed word's halves. -/
def State.half (s : State) : Fmt := if s.ext.sel.getLsbD 0 then bf16 else fp16

/-- HADD2 and HMUL2. -/
def pairWord (s : State) (d a b : Reg) (op : Mode → Num → Num → Num × Nat) : Res State :=
  let n := s.cur.draw
  let f := s.half
  floatWord { rm := true, sat := true, sel := fun e => decide (e.toNat ≤ 1) } s .x d [a, b] (fun c u =>
    packed (fun h => f.arith s.mode s.ext.sat
      (op s.mode (f.value (elem 16 h (c.readF n u f a))) (f.value (elem 16 h (c.readF n u f b))))))

/-- HFMA2 (R155). -/
def execHfma2 (_lk : Link) (d a b : Reg) (s : State) : Host.Outcome State Fault Refusal :=
  let n := s.cur.draw
  let f := s.half
  let c3 := s.ext.c3
  let add := if c3 = 0#7 then d else c3
  finish s (floatWord { rm := true, sat := true, c3 := true, sel := fun e => decide (e.toNat ≤ 1) } s .x d
    (if c3 = 0#7 then [a, b] else [a, b, c3]) (fun c u =>
      packed (fun h => f.arith s.mode s.ext.sat (fmaNum s.mode (f.value (elem 16 h (c.readF n u f a)))
        (f.value (elem 16 h (c.readF n u f b))) (f.value (elem 16 h (c.readF n u f add)))))))

/-- HADD2 (R155). -/
def execHadd2 (_lk : Link) (d a b : Reg) (s : State) : Host.Outcome State Fault Refusal := finish s (pairWord s d a b addNum)

/-- HMUL2 (R155). -/
def execHmul2 (_lk : Link) (d a b : Reg) (s : State) : Host.Outcome State Fault Refusal :=
  finish s (pairWord s d a b (fun _ x y => mulNum x y))

/-- HMAX2 (R155). -/
def execHmax2 (_lk : Link) (d a b : Reg) (s : State) : Host.Outcome State Fault Refusal :=
  let n := s.cur.draw
  let f := s.half
  finish s (floatWord { sel := fun e => decide (e.toNat ≤ 3) } s .x d [a, b] (fun c u =>
    packed (fun h => f.pick (!(s.ext.sel.getLsbD 1)) (elem 16 h (c.readF n u f a)) (elem 16 h (c.readF n u f b)))))

/-! ## SEED and RAND -/

/-- SEED (R139, R156). -/
def execSeed (_lk : Link) (a b : Reg) (s : State) : Host.Outcome State Fault Refusal :=
  let n := s.cur.draw
  finish s (warpWord {} s [a, b] [] (fun c act =>
    .ok (act.foldl (fun c1 u =>
      c1.updTh u (fun t => { t with gen := (c.readReg n u b ++ c.readReg n u a) ^^^ genSpread t.tid.toNat })) c)))

/-- RAND (R138, R156). -/
def execRand (_lk : Link) (d : Reg) (s : State) : Host.Outcome State Fault Refusal :=
  finish s (warpWord {} s [] [d] (fun c act =>
    (c.results s.cur.draw .y s.cur.run act d (fun u => (genStep (c.th u).gen).2)).map (fun c1 => c1.stepGen act)))

end Sys2Proof.Machine
end

