-- ==== Sys2Proof/Machine/MatrixMath.lean ====
section
/-! DEFINITION. The arithmetic of a matrix pass (R247, R248, R252 to R254) and the conversions of MST (R266): exact block
sums, one rounding per block. -/

namespace Sys2Proof.Machine

open Sys2Proof

/-- The element kinds of R252. -/
inductive ElemKind where
  | float (f : Fmt)
  | int8
  | tern
  deriving DecidableEq, Repr

/-- What FMT selects (R252): A and B elements, blocks, and whether scales apply. -/
structure PassFmt where
  a : ElemKind
  b : ElemKind
  blocks : Nat
  mx : Bool
  deriving DecidableEq, Repr

/-- The table of R252. -/
def passFmt (n : Nat) : PassFmt :=
  match n with
  | 0 => ⟨.float e4m3, .float e4m3, 16, false⟩
  | 1 => ⟨.float e4m3, .float e5m2, 16, false⟩
  | 2 => ⟨.float e5m2, .float e4m3, 16, false⟩
  | 3 => ⟨.float e5m2, .float e5m2, 16, false⟩
  | 4 => ⟨.float e4m3, .float e4m3, 16, true⟩
  | 5 => ⟨.float e5m2, .float e5m2, 16, true⟩
  | 6 => ⟨.float e2m1, .float e2m1, 32, true⟩
  | 7 => ⟨.float bf16, .float bf16, 8, false⟩
  | 8 => ⟨.float fp16, .float fp16, 8, false⟩
  | 9 => ⟨.int8, .int8, 16, false⟩
  | _ => ⟨.int8, .tern, 16, false⟩

/-- Bits of an element. -/
def ElemKind.width : ElemKind → Nat
  | .float f => f.width
  | .int8 => 8
  | .tern => 2

/-- The code of element `k` of a latch row (R248). -/
def rowElem (w : Nat) (row : List Byte) (k : Nat) : Nat :=
  if w = 16 then leNat ((row.drop (2 * k)).take 2) else (getAt row (w * k / 8) 0#8).toNat / 2 ^ (w * k % 8) % 2 ^ w

/-- The value of an element code. -/
def ElemKind.num (e : ElemKind) (x : Nat) : Num :=
  match e with
  | .float f => f.value x
  | .int8 => let v := sext 8 x
    .fin (decide (v < 0)) v.natAbs 0
  | .tern => .fin (decide (x = 3)) (if x = 1 ∨ x = 3 then 1 else 0) 0

/-- The exponent in whose units block sums are formed: below that of every product. -/
def sumExp : Int := -512

/-- A block's products, folded: whether a NaN arises, +∞ and −∞ products, and the exact sum in units of 2^sumExp. -/
structure BlockSum where
  nan : Bool
  pinf : Bool
  ninf : Bool
  sum : Int
  deriving DecidableEq, Repr

/-- Adds one product (R253, R254). -/
def BlockSum.add (s : BlockSum) (a b : Num) : BlockSum :=
  let inf (neg : Bool) : BlockSum := if neg then { s with ninf := true } else { s with pinf := true }
  match a, b with
  | .nan _, _ => { s with nan := true }
  | _, .nan _ => { s with nan := true }
  | .inf n1, .inf n2 => inf (n1 != n2)
  | .inf n1, .fin n2 m _ => if m = 0 then { s with nan := true } else inf (n1 != n2)
  | .fin n1 m _, .inf n2 => if m = 0 then { s with nan := true } else inf (n1 != n2)
  | .fin n1 m1 e1, .fin n2 m2 e2 => { s with sum := s.sum + sgn (n1 != n2) (m1 * m2 * 2 ^ (e1 + e2 - sumExp).toNat) }

/-- The sum of a block of 32 elements. -/
def blockSum (f : PassFmt) (ra rb : List Byte) (b : Nat) : BlockSum :=
  (List.range 32).foldl (fun s i =>
    let k := 32 * b + i
    s.add (f.a.num (rowElem f.a.width ra k)) (f.b.num (rowElem f.b.width rb k))) ⟨false, false, false, 0⟩

/-- blockval(S, sa, sb) as an FP32 code (R254). -/
def blockVal (s : BlockSum) (sa sb : Nat) : Nat :=
  if s.nan || sa == 255 || sb == 255 || (s.pinf && s.ninf) then fp32.nanCode
  else if s.pinf || s.ninf then fp32.infCode s.ninf
  else if s.sum = 0 then 0
  else (fp32.finish .rne false (.fin (decide (s.sum < 0)) s.sum.natAbs (sumExp + (sa : Int) - 127 + (sb : Int) - 127))).1

/-- One FP32 addition of a pass (R135, R253). -/
def accAdd (x t : Nat) : Nat := (fp32.arith .rne false (addNum .rne (fp32.value x) (fp32.value t))).1

/-- Whether a format sums integers. -/
def PassFmt.isInt (f : PassFmt) : Bool := match f.a with | .int8 => true | _ => false

/-- One cell of a pass (R253): `sa` and `sb` are the rows' scale bytes. -/
def passCell (f : PassFmt) (ra rb sa sb : List Byte) (x : Nat) : Nat :=
  (List.range f.blocks).foldl (fun x b =>
    let s := blockSum f ra rb b
    if f.isInt then (((x : Int) + s.sum / 2 ^ (-sumExp).toNat) % 2 ^ 32).toNat
    else
      let scale (r : List Byte) : Nat := if f.mx then (getAt r b 0#8).toNat else 127
      accAdd x (blockVal s (scale sa) (scale sb))) x

/-- The A and B latches of a sub-array (R247). -/
def feedOf (mode s : Nat) : Nat × Nat :=
  if mode = 0 then (0, s) else if mode = 1 then (s / 2, s % 2) else if mode = 2 then (s, 0) else (s, s)

/-- Rows and columns of the output (R247). -/
def outShape (mode : Nat) : Nat × Nat := if mode = 0 then (32, 128) else if mode = 1 then (64, 64) else (128, 32)

/-- The sub-array and cell of an output position (R247). -/
def outCell (mode y x : Nat) : Nat × Nat × Nat :=
  if mode = 0 then (x / 32, y, x % 32) else if mode = 1 then (2 * (y / 32) + x / 32, y % 32, x % 32) else (y / 32, y % 32, x)

/-- Bytes of an output element (R266). -/
def outBytes (ofmt : Nat) : Nat := if ofmt = 0 ∨ ofmt = 5 then 4 else if ofmt = 1 ∨ ofmt = 2 then 2 else 1

/-- The conversion of a cell and its status bits (R266). -/
def outConv (ofmt : Nat) (mode : Mode) (sat : Bool) (rnd : Option Nat) (x : Nat) : Nat × Nat :=
  if ofmt = 0 ∨ ofmt = 5 then (x, 0)
  else if ofmt = 6 then
    (if sat then let v := sext 32 x
        (((if v < -128 then (-128 : Int) else if 127 < v then 127 else v) % 256).toNat, 0)
      else (x % 256, 0))
  else narrow (ofmt + 5) mode sat rnd x

end Sys2Proof.Machine
end

