-- ==== Sys2Proof/Machine/Matrix.lean ====
section
/-! DEFINITION. The matrix engine (R245 to R268): claims, latches, posted words, passes, matrix stores, and the nine matrix
words. -/

namespace Sys2Proof.Machine

open Sys2Proof

/-! ## Latches and tiles -/

/-- A row of an operand latch: side 0 A, 1 B (R245). -/
def Core.latchRow (c : Core) (side sub row : Nat) : List Byte := AMap.lookD c.latch (128 * side + 32 * sub + row) (List.replicate 512 0#8)

/-- A row of a scale latch. -/
def Core.scaleRow (c : Core) (side sub row : Nat) : List Byte := AMap.lookD c.scale (128 * side + 32 * sub + row) (List.replicate 32 0#8)

/-- The sub-arrays of a mask. -/
def subsOf (mask : BitVec 4) : List Nat := (List.range 4).filter (fun i => mask.getLsbD i)

/-- Writes a latch row in each sub-array of a mask. -/
def Core.setLatch (c : Core) (side : Nat) (mask : BitVec 4) (row : Nat) (bs : List Byte) : Core :=
  { c with latch := (subsOf mask).foldl (fun m s => AMap.put m (128 * side + 32 * s + row) bs) c.latch }

/-- A tile of an accumulator. -/
def Cluster.tile (c : Cluster) (sub n : Nat) : List Word := AMap.lookD c.accs (8 * sub + n) (List.replicate 1024 0#32)

/-- Sets tiles of an accumulator to 0. -/
def Cluster.zeroTiles (c : Cluster) (mask : BitVec 4) (n : Nat) : Cluster :=
  { c with accs := (subsOf mask).foldl (fun m s => AMap.del m (8 * s + n)) c.accs }

/-- The claim on an index. -/
def Cluster.claim (c : Cluster) (n : Nat) : Claim := AMap.lookD c.claims n Claim.reset

/-- Whether a warp of a core holds an index (R246). -/
def State.holdsAcc (s : State) (core warp n : Nat) : Bool := (s.cluster (clusterOf core)).claim n == ⟨1, core, warp⟩

/-! ## Descriptors and latch rows (R258, R260 to R262) -/

/-- A matrix descriptor as read. -/
structure MDesc where
  idx : Nat
  buf : BufRec
  pitch : Nat
  bar : Nat
  deriving DecidableEq, Repr

/-- The descriptor in the registers of the lowest lane of the run. -/
def readDesc (c : Core) (draw u : Nat) (a : Reg) : MDesc :=
  let w1 := (c.readReg draw u (a + 1#7)).toNat
  ⟨(c.readReg draw u a).toNat, c.buf draw (bits w1 20 16), bits w1 15 0, (c.readReg draw u (a + 2#7)).toNat⟩

/-- Reserved bits and PITCH (R258); `lat` for a latch load, whose BAR must be 0. -/
def descBad (c : Core) (draw u : Nat) (a : Reg) (lat : Bool) : Bool :=
  let d := readDesc c draw u a
  !((c.readReg draw u (a + 1#7)).toNat / 2 ^ 21 == 0) || decide (2 ^ 14 ≤ d.bar) || d.pitch == 0 || (lat && !(d.bar == 0))

/-- The check of a run of `len` bytes at byte offset `o` of a scratchpad record: its cause in R181 codes, or whether it
waits for a peer. -/
def State.rowCheck (s : State) (core : Nat) (b : BufRec) (o len align : Nat) : Option Nat × Bool :=
  let a := bBase b + o
  let claim := s.claimBytes core
  if decide (bExtent b * 2 ^ bEsize b < o + len) ||
      (bSpace b == 1 && decide (claim < a + len)) ||
      (bSpace b == 2 && (decide (2 ^ 20 < a + len) || decide (claim < a % 2 ^ 18 + len))) then (some 1, false)
  else if a % align ≠ 0 then (some 2, false)
  else if bSpace b = 2 then
    match s.peer core (4 * clusterOf core + a / 2 ^ 18) with
    | .ok => (none, false)
    | .notYet => (none, true)
    | .absent => (some 3, false)
  else (none, false)

/-- Bytes of a scratchpad record from an offset, swizzle included (R173). -/
def State.recBytes (s : State) (core : Nat) (b : BufRec) (o len : Nat) : List Byte :=
  (List.range len).map (fun i =>
    let p := scratchPlace core b (bBase b + swz ((o + i) / 16 * 16) (bSwz b) + (o + i) % 16)
    (s.core p.1).scratch.read p.2)

/-- The byte offset of a source row. -/
def MDesc.rowOff (d : MDesc) (j : Nat) : Nat := (d.idx + j * d.pitch) * 2 ^ bEsize d.buf

/-- The trap of a matrix word's failed check, with INFO 0. -/
def matrixTrap (n lane : Nat) : TrapInfo := trapAt (laneCause n) lane

/-- The first failed check of a list of runs. -/
def firstFault : List (Option Nat × Bool) → Option Nat
  | [] => none
  | x :: t => match x.1 with | some n => some n | none => firstFault t

/-! ## Issue -/

/-- A matrix word: its operand checks, R65 with every lane of the warp live and in the run (R256), then its effect. -/
def mxWord (f : Form) (s : State) (dsts : List Reg) (ok : Core → Nat → Bool) (bad : Core → Bool)
    (body : State → List Nat → Res State) : Res State :=
  let f1 := { f with g := false, helper := false }
  (checkForm f1 s).bind fun _ =>
    let c0 := s.core s.cur.core
    (operandCheck c0 s.active (fun u => ok c0 u && dsts.all (c0.dstOk u)) s.lowLane (dsts.all dstNamed)).bind fun _ =>
    if bad c0 then .trap (trapAt .illegalOperand s.lowLane)
    else
      warpWordS f1 s [] dsts (fun s1 act =>
        let width := s1.width s1.cur.core
        (collect65 (s1.core s1.cur.core) s1.cur width act (fullMask width) true).bind fun _ => body s1 act)

/-- Posts a word: its flag rises in every lane (R251); an MST is also counted until its bytes are written. -/
def postMatrix (s : State) (act : List Nat) (f : Bool) (op : MatrixOp) (after : List Nat) (stores : Bool) : Res State :=
  let k := s.cur.core
  let c := s.core k
  if c.flagFull act f then .waitAll
  else
    (Core.openAll 108#7 0 f act c).map (fun r =>
      let late := if stores then act.foldl (fun (x : Core × List Nat) u =>
          let y := x.1.addPend ⟨u, 108, [], none, [], 0⟩
          (y.1, x.2 ++ [y.2])) (r.1, []) else (r.1, [])
      let w : MatrixWord := ⟨late.1.nextM, s.cur.warp, op, r.2, late.2, 0, act, after, 0, false, 0⟩
      s.setCore k { late.1 with mwords := late.1.mwords ++ [w], nextM := late.1.nextM + 1 })

/-- The stores of every thread of the issuing warp, which a latch load reads after (R268). -/
def Core.warpStores (c : Core) (warp : Nat) : List Nat :=
  (AMap.keys (c.threads.filter (fun p => p.2.warp == warp))).flatMap c.storesOf

/-- MRESV (R259). -/
def execMresv (_lk : Link) (acc : BitVec 3) (a : Reg) (s : State) : Host.Outcome State Fault Refusal :=
  finish s (mxWord {} s [a] (fun _ _ => true) (fun _ => false) (fun s1 act =>
    let k := s1.cur.core
    let cl := clusterOf k
    let c := s1.cluster cl
    let n := acc.toNat
    let free := (c.claim n).state == 0
    let res := s1.holdsAcc k s1.cur.warp n || free
    let s2 := if free then
        s1.setCluster cl { (c.zeroTiles 15#4 n) with claims := AMap.put c.claims n ⟨1, k, s1.cur.warp⟩ }
      else s1
    ((s2.core k).plainResults act a (fun _ => if res then 1#32 else 0#32)).map (fun c1 => s2.setCore k c1)))

/-- MFREE (R259). -/
def execMfree (_lk : Link) (acc : BitVec 3) (s : State) : Host.Outcome State Fault Refusal :=
  finish s (mxWord {} s [] (fun _ _ => true) (fun _ => false) (fun s1 _ =>
    let k := s1.cur.core
    let cl := clusterOf k
    let c := s1.cluster cl
    if s1.holdsAcc k s1.cur.warp acc.toNat then
      .ok ((s1.setCluster cl { c with claims := AMap.put c.claims acc.toNat ⟨2, k, s1.cur.warp⟩ }).settleClaims cl)
    else .ok s1))

/-- A latch load through a descriptor: its record is of SPACE 1 or 2, its rows pass their checks (R258). -/
def latchWord (s : State) (f : Bool) (a : Reg) (mask : BitVec 4) (n : Nat) (extra : Core → MDesc → Bool)
    (rows : State → MDesc → List Nat → List (Option Nat × Bool)) (op : Core → MDesc → List Nat → MatrixOp) : Res State :=
  let draw := s.cur.draw
  let low := s.cur.run.headD 0
  mxWord { legal := !(mask == 0#4) } s [] (fun c u => c.blockOk u a n)
    (fun c =>
      let d := readDesc c draw low a
      descBad c draw low a true || bSpace d.buf == 0 || extra c d)
    (fun s1 act =>
      let c := s1.core s1.cur.core
      let d := readDesc c draw low a
      match firstFault (rows s1 d act) with
      | some n => .trap (matrixTrap n s1.lowLane)
      | none => postMatrix s1 act f (op c d act) (c.warpStores s1.cur.warp) false)

/-- MLDB (R260). -/
def execMldb (_lk : Link) (f : Bool) (a : Reg) (k : BitVec 4) (s : State) : Host.Outcome State Fault Refusal :=
  finish s (latchWord s f a k 3 (fun _ _ => false)
    (fun s1 d _ => (List.range 32).map (fun j => s1.rowCheck s1.cur.core d.buf (d.rowOff j) 512 16))
    (fun _ d _ => .mldb k d.buf d.idx d.pitch))

/-- The latch rows that the lanes of a run give, by register value (R261); a constant specifier gives the integer that it names in
integer fields, MSCALE's too, not an E8M0 code (R263, R425, log 109). -/
def givenRows (c : Core) (draw width : Nat) (half : Bool) (r : Reg) (act : List Nat) : List (Nat × Word) :=
  (act.filter (fun u => decide ((c.th u).lane < 32))).map (fun u =>
    ((if width = 16 ∧ half then 16 else 0) + (c.th u).lane, c.readReg draw u r))

/-- MGATH (R261). -/
def execMgath (_lk : Link) (f : Bool) (a : Reg) (h : Bool) (k : BitVec 4) (s : State) : Host.Outcome State Fault Refusal :=
  let width := s.width s.cur.core
  let given (c : Core) (act : List Nat) : List (Nat × Nat) :=
    (givenRows c s.cur.draw width h (a + 3#7) act).map (fun p => (p.1, p.2.toNat))
  finish s (latchWord s f a k 4 (fun _ _ => h && !(width == 16))
    (fun s1 d act => ((given (s1.core s1.cur.core) act).filter (fun p => !(p.2 == 0xFFFFFFFF))).map
      (fun p => s1.rowCheck s1.cur.core d.buf (d.rowOff p.2) 512 16))
    (fun c d act => .mgath k d.buf d.idx d.pitch (given c act)))

/-- Elements of an MTRN row. -/
def trnElems (wide : Bool) : Nat := if wide then 256 else 512

/-- MTRN (R262). -/
def execMtrn (_lk : Link) (f : Bool) (a : Reg) (e : Bool) (k : BitVec 4) (s : State) : Host.Outcome State Fault Refusal :=
  finish s (latchWord s f a k 3 (fun _ d => !(bEsize d.buf == (if e then 1 else 0)))
    (fun s1 d _ => (List.range (trnElems e)).map (fun i =>
      s1.rowCheck s1.cur.core d.buf (d.rowOff i) (32 * 2 ^ bEsize d.buf) (2 ^ bEsize d.buf)))
    (fun _ d _ => .mtrn k e d.buf d.idx d.pitch))

/-- MSCALE (R263). -/
def execMscale (_lk : Link) (g : BitVec 3) (f : Bool) (a : Reg) (e h : Bool) (k : BitVec 4) (s : State) : Host.Outcome State Fault Refusal :=
  let width := s.width s.cur.core
  let sel := s.ext.sel.toNat
  finish s (mxWord { legal := !(k == 0#4), sel := fun x => decide (4 ≤ x.toNat) && decide (x.toNat ≤ 7) } s []
    (fun c u => c.srcOk u a) (fun _ => h && !(width == 16))
    (fun s1 act => postMatrix s1 act f
      (.mscale e k g.toNat sel (givenRows (s1.core s1.cur.core) s1.cur.draw width h a act)) [] false))

/-- MZERO (R264). -/
def execMzero (_lk : Link) (acc : BitVec 3) (f : Bool) (k : BitVec 4) (s : State) : Host.Outcome State Fault Refusal :=
  finish s (mxWord { legal := !(k == 0#4) } s [] (fun _ _ => true)
    (fun _ => !(s.holdsAcc s.cur.core s.cur.warp acc.toNat))
    (fun s1 act => postMatrix s1 act f (.mzero k acc.toNat) [] false))

/-- Whether a posted word is an MMA. -/
def MatrixWord.isMma (w : MatrixWord) : Bool := match w.op with | .mma .. => true | _ => false

/-- Whether the die of a core lacks the sign-select path (R3, R4). -/
def State.noTernary (s : State) (core : Nat) : Bool := !(s.devcap.getLsbD (4 + dieOf core))

/-- MMA (R265). -/
def execMma (_lk : Link) (acc : BitVec 3) (mode : BitVec 2) (f z : Bool) (t : BitVec 4) (s : State) : Host.Outcome State Fault Refusal :=
  finish s (mxWord { legal := decide (t.toNat ≤ 10), absent := t == 10#4 && s.noTernary s.cur.core } s [] (fun _ _ => true)
    (fun _ => !(s.holdsAcc s.cur.core s.cur.warp acc.toNat))
    (fun s1 act =>
      if 4 ≤ ((s1.core s1.cur.core).mwords.filter MatrixWord.isMma).length then .waitAll
      else postMatrix s1 act f (.mma acc.toNat mode.toNat z t.toNat) [] false))

/-- The output elements of an MST, in order: record index and cell (R267). -/
def outElems (mode idx pitch : Nat) : List (Nat × (Nat × Nat × Nat)) :=
  let sh := outShape mode
  (List.range (sh.1 * sh.2)).map (fun e => (idx + e / sh.2 * pitch + e % sh.2, outCell mode (e / sh.2) (e % sh.2)))

/-- A generator after some steps. -/
def genAfter : Nat → DWord → DWord
  | 0, g => g
  | n + 1, g => genAfter n (genStep g).1

/-- Each lane's generator steps once for each element that the lane converts, as the word issues (R138, R267). -/
def Core.stepGens (c : Core) (us : List Nat) (elems : Nat) : Core :=
  ((List.range us.length).zip us).foldl (fun c p =>
    c.updTh p.2 (fun t => { t with gen := genAfter ((elems + us.length - 1 - p.1) / us.length) t.gen })) c

/-- MST (R266). -/
def execMst (_lk : Link) (acc : BitVec 3) (mode : BitVec 2) (f : Bool) (a : Reg) (l : Bool) (t : BitVec 4) (s : State) :
    Host.Outcome State Fault Refusal :=
  let draw := s.cur.draw
  let low := s.cur.run.headD 0
  let o := t.toNat
  let rounds := decide (1 ≤ o) && decide (o ≤ 4)
  let w := outBytes o
  finish s (mxWord { legal := decide (o ≤ 6), rm := rounds, sr := rounds, sat := rounds || o == 6 } s []
    (fun c u => c.blockOk u a 3)
    (fun c =>
      let d := readDesc c draw low a
      !(s.holdsAcc s.cur.core s.cur.warp acc.toNat) || descBad c draw low a false || !(s.barOk s.cur.core d.bar) ||
        !(2 ^ bEsize d.buf == w) || decide (d.pitch < (outShape mode.toNat).2))
    (fun s1 act =>
      let k := s1.cur.core
      let d := readDesc (s1.core k) draw low a
      let accs := (outElems mode.toNat d.idx d.pitch).map (fun e => s1.form k (s1.vfOf k) d.buf e.1 w true)
      match firstFault (accs.map (fun x => (x.fault, x.waits))) with
      | some n => .trap (matrixTrap n s1.lowLane)
      | none =>
        let gens := if s1.ext.sr then act.map (fun u => ((s1.core k).th u).gen) else []
        let s2 := if s1.ext.sr then s1.onCore k (fun c => c.stepGens act accs.length) else s1
        postMatrix s2 act f (.mst acc.toNat mode.toNat l o d.buf d.idx d.pitch d.bar s1.ext.rm s1.ext.sr s1.ext.sat gens) [] true))

/-! ## Application (R249) -/

/-- Rows or groups that a latch load reads. -/
def MatrixOp.steps : MatrixOp → Nat
  | .mldb .. => 32
  | .mgath _ _ _ _ rows => rows.length
  | .mtrn .. => 32
  | _ => 0

/-- The descriptor of a posted latch load. -/
def MatrixOp.desc : MatrixOp → MDesc
  | .mldb _ b i p => ⟨i, b, p, 0⟩
  | .mgath _ b i p _ => ⟨i, b, p, 0⟩
  | .mtrn _ _ b i p => ⟨i, b, p, 0⟩
  | _ => ⟨0, 0#128, 0, 0⟩

/-- Replaces element `k` of a latch row. -/
def putElem (wide : Bool) (row : List Byte) (k : Nat) (bs : List Byte) : List Byte := spliceBytes row (if wide then 2 * k else k) bs

/-- One step of a latch load: one row, or one group of MTRN's source rows (R251, R262). -/
def State.latchStep (s : State) (core : Nat) (op : MatrixOp) (i : Nat) : Core :=
  let c := s.core core
  let d := op.desc
  match op with
  | .mldb mask .. => c.setLatch 1 mask i (s.recBytes core d.buf (d.rowOff i) 512)
  | .mgath mask _ _ _ rows =>
    match rows.drop i with
    | (r, j) :: _ => c.setLatch 0 mask r (if j = 0xFFFFFFFF then List.replicate 512 0#8 else s.recBytes core d.buf (d.rowOff j) 512)
    | [] => c
  | .mtrn mask wide .. =>
    let w := if wide then 2 else 1
    let per := trnElems wide / 32
    (List.range per).foldl (fun c g =>
      let k := per * i + g
      let bs := s.recBytes core d.buf (d.rowOff k) (32 * w)
      (subsOf mask).foldl (fun c sub => (List.range 32).foldl (fun (c : Core) j =>
        c.setLatch 1 (1#4 <<< sub) j (putElem wide (c.latchRow 1 sub j) k ((bs.drop (w * j)).take w))) c) c) c
  | _ => c

/-- Whether a latch load's next row can be read: its peer has started. -/
def State.rowReady (s : State) (core : Nat) (op : MatrixOp) (i : Nat) : Bool :=
  let d := op.desc
  let ok (o : Nat) : Bool := !((s.rowCheck core d.buf o 1 1).2)
  match op with
  | .mldb .. => ok (d.rowOff i)
  | .mgath _ _ _ _ rows => (match rows.drop i with | (_, j) :: _ => j == 0xFFFFFFFF || ok (d.rowOff j) | [] => true)
  | .mtrn _ wide .. => (List.range (trnElems wide / 32)).all (fun g => ok (d.rowOff (trnElems wide / 32 * i + g)))
  | _ => true

/-- Writes scales (R263). -/
def Core.setScales (c : Core) (side : Bool) (mask : BitVec 4) (g sel : Nat) (rows : List (Nat × Word)) : Core :=
  let put (row : List Byte) (v : Word) : List Byte :=
    if sel = 0 then spliceBytes row (4 * g) (leBytes v.toNat 4) else spliceBytes row (4 * g + sel - 4) [v.extractLsb' (8 * (sel - 4)) 8]
  (subsOf mask).foldl (fun c sub => rows.foldl (fun (c : Core) r =>
    let key := 128 * (if side then 1 else 0) + 32 * sub + r.1
    { c with scale := AMap.put c.scale key (put (c.scaleRow (if side then 1 else 0) sub r.1) r.2) }) c) c

/-- Converts the cells of an MST in order, each with the next step of its lane's generator where it rounds at random; each lane
takes the status bits of what it converts (R267). -/
def convertAll (c : Cluster) (uids : List Nat) (acc ofmt : Nat) (mode : Mode) (sr sat : Bool) :
    List (Nat × (Nat × Nat × Nat)) → Nat → List DWord → Core → List (Nat × List Byte) × Core
  | [], _, _, k => ([], k)
  | e :: es, i, gs, k =>
    let j := i % uids.length
    let x := (getAt (c.tile e.2.1 acc) (32 * e.2.2.1 + e.2.2.2) 0#32).toNat
    let g := genStep (getAt gs j 0#64)
    let y := outConv ofmt mode sat (if sr then some g.2.toNat else none) x
    let k1 := if y.2 = 0 then k else k.updTh (getAt uids j 0) (fun t => t.orNow (BitVec.ofNat 32 y.2))
    let rest := convertAll c uids acc ofmt mode sr sat es (i + 1) (if sr then setAt gs j g.1 else gs) k1
    ((e.1, leBytes y.1 (outBytes ofmt)) :: rest.1, rest.2)

/-- Whether a pass on an accumulator of a core is in progress. -/
def Cluster.passOn (c : Cluster) (core acc : Nat) : Bool :=
  [c.pass, c.ending].any (fun x => match x with
    | some p => p.core == core && p.acc == acc
    | none => false)

/-- Removes a word and lets its flag fall. -/
def State.retireWord (s : State) (core : Nat) (w : MatrixWord) : State :=
  (s.onCore core (fun c => { c with mwords := c.mwords.filter (fun x => !(x.id == w.id)) })).completeOn core w.pends []

/-- Whether the first word of a core can apply now. -/
def State.headReady (s : State) (core : Nat) (w : MatrixWord) : Bool :=
  match w.op with
  | .mma .. => false
  | .mscale .. => true
  | .mzero _ acc => !((s.cluster (clusterOf core)).passOn core acc)
  | .mst acc .. => !((s.cluster (clusterOf core)).passOn core acc)
  | op => decide (w.progress < op.steps) && !((s.core core).awaits w.after) && s.rowReady core op w.progress

/-- Applies the first word of a core, or one step of it. -/
def State.applyHead (s : State) (core : Nat) (w : MatrixWord) : State :=
  let cl := clusterOf core
  match w.op with
  | .mma .. => s
  | .mscale side mask g sel rows => (s.onCore core (fun c => c.setScales side mask g sel rows)).retireWord core w
  | .mzero mask acc => ((s.setCluster cl ((s.cluster cl).zeroTiles mask acc)).retireWord core w).settleClaims cl
  | .mst acc mode clear ofmt buf idx pitch bar rm sr sat gens =>
    let c := s.cluster cl
    let r := convertAll c w.uids acc ofmt (modeOf rm) sr sat (outElems mode idx pitch) 0 gens (s.core core)
    let out : MstWrite := ⟨w.id, buf, r.1, bar, r.1.length * outBytes ofmt, w.late, none⟩
    let s1 := s.setCore core { r.2 with msts := r.2.msts ++ [out] }
    ((if clear then s1.setCluster cl (c.zeroTiles 15#4 acc) else s1).retireWord core w).settleClaims cl
  | op =>
    (s.setCore core (s.latchStep core op w.progress)).onCore core (fun c =>
      { c with mwords := c.mwords.map (fun x => if x.id = w.id then { x with progress := x.progress + 1 } else x) })

/-- The first MMA of a core that has not been posted. -/
def Core.unposted (c : Core) : Option MatrixWord := c.mwords.find? (fun w => w.isMma && w.age == 0)

/-- Whether a warp holds a live member of the token's group (R73, R250). -/
def Core.hasToken (c : Core) (warp : Nat) : Bool :=
  match c.token with
  | some g => (match AMap.look c.groups g with | some x => x.members.any (fun m => (c.th m.1).warp == warp) | none => false)
  | none => false

/-- Posts an MMA in the reservation table: its age and its priority (R250). -/
def State.postMma (s : State) (core : Nat) (w : MatrixWord) : State :=
  let cl := clusterOf core
  let c := s.cluster cl
  let k := s.core core
  (s.setCluster cl { c with nextAge := c.nextAge + 1 }).setCore core
    { k with mwords := k.mwords.map (fun x => if x.id = w.id then { x with age := c.nextAge + 1, prio := k.hasToken w.warp } else x) }

/-- What MATRIX_WORD_APPLY can do on a core: post its next MMA, or apply its first word. -/
def State.matrixMoves (s : State) (core : Nat) : List State :=
  let c := s.core core
  if s.stopped core then [] else
  (match c.unposted with | some w => [s.postMma core w] | none => []) ++
    (match c.mwords with | w :: _ => if s.headReady core w then [s.applyHead core w] else [] | [] => [])

/-- MATRIX_WORD_APPLY (R249, R250). -/
def execMatrixWordApply (core : Nat) (s : State) : Host.Outcome State Fault Refusal :=
  match pickFree s.cur.draw (s.matrixMoves core) with
  | some s1 => .next s1
  | none => .next s

/-- Whether a matrix word is a latch load. -/
def MatrixOp.isLoad : MatrixOp → Bool
  | .mldb .. => true
  | .mgath .. => true
  | .mtrn .. => true
  | _ => false

/-- LATCH_LOAD_COMPLETE (R251): the last row is written and the load's flag falls. -/
def execLatchLoadComplete (core : Nat) (s : State) : Host.Outcome State Fault Refusal :=
  match (s.core core).mwords with
  | w :: _ =>
    if w.op.isLoad && decide (w.op.steps ≤ w.progress) && !((s.core core).awaits w.after) && !(s.stopped core) then
      .next (s.retireWord core w)
    else .next s
  | [] => .next s

/-! ## Passes (R250 to R253) -/

/-- The eligible entries of a cluster: each core's first word, where it is a posted MMA. -/
def State.eligible (s : State) (cl : Nat) : List (Nat × MatrixWord) :=
  (List.range 4).filterMap (fun i =>
    match (s.core (4 * cl + i)).mwords with
    | w :: _ => if w.isMma && !(w.age == 0) && !(s.stopped (4 * cl + i)) then some (4 * cl + i, w) else none
    | [] => none)

/-- Whether the first of two entries goes before the other (R250). -/
def MatrixWord.before (a b : MatrixWord) : Bool :=
  let pa := decide (64 ≤ a.passed)
  let pb := decide (64 ≤ b.passed)
  if pa != pb then pa else if a.prio != b.prio then a.prio else decide (a.age < b.age)

/-- The entry that is granted. -/
def bestEntry : List (Nat × MatrixWord) → Option (Nat × MatrixWord)
  | [] => none
  | x :: t =>
    match bestEntry t with
    | none => some x
    | some y => if y.2.before x.2 then some y else some x

/-- The tile of one sub-array after a pass (R253), and whether a ternary code 0b10 was read. -/
def passTile (c : Core) (cl : Cluster) (acc mode fmt s : Nat) (zero : Bool) : List Word × Bool :=
  let f := passFmt fmt
  let fd := feedOf mode s
  let old := cl.tile s acc
  let cells := (List.range 1024).map (fun i =>
    BitVec.ofNat 32 (passCell f (c.latchRow 0 fd.1 (i / 32)) (c.latchRow 1 fd.2 (i % 32)) (c.scaleRow 0 fd.1 (i / 32)) (c.scaleRow 1 fd.2 (i % 32))
      (if zero then 0 else (getAt old i 0#32).toNat)))
  let bad := decide (fmt = 10) && (List.range 32).any (fun j => (List.range 512).any (fun k => rowElem 2 (c.latchRow 1 fd.2 j) k == 2))
  (cells, bad)

/-- The accumulators with the tiles that a pass leaves. -/
def Cluster.hold (c : Cluster) (p : Pass) : Cluster :=
  { c with accs := (List.range 4).foldl (fun m i => AMap.put m (8 * i + p.acc) (getAt p.tiles i [])) c.accs }

/-- Whether the engine may grant a pass: it is free, or in the last cycles of one pass alone (R251). -/
def Cluster.canGrant (c : Cluster) : Bool := c.pass.isNone || c.ending.isNone

/-- MATRIX_PASS_GRANT (R250): the pass takes its latches at the grant; entries that could have gone are passed over. A pass
whose flag has yet to fall has written its tiles by then (R251). -/
def execMatrixPassGrant (cluster : Nat) (s : State) : Host.Outcome State Fault Refusal :=
  let cl0 := s.cluster cluster
  let cl := match cl0.pass with | some p => { (cl0.hold p) with pass := none, ending := some p } | none => cl0
  let es := s.eligible cluster
  match (if cl0.canGrant then bestEntry es else none) with
  | none => .next s
  | some (core, w) =>
    match w.op with
    | .mma acc mode zero fmt =>
      let c := s.core core
      let tiles := (List.range 4).map (fun i => passTile c cl acc mode fmt i zero)
      let pass : Pass := ⟨core, acc, tiles.map (fun t => t.1), tiles.any (fun t => t.2), w⟩
      let s1 := es.foldl (fun s e =>
        if e.1 = core then s.onCore core (fun c => { c with mwords := c.mwords.filter (fun x => !(x.id == w.id)) })
        else s.onCore e.1 (fun c => { c with mwords := c.mwords.map (fun x => if x.id = e.2.id then { x with passed := x.passed + 1 } else x) })) s
      .next ((s1.setCluster cluster { cl with pass := some pass }).count (s.vfOf core) 0x03 1)
    | _ => .next s

/-- MATRIX_PASS_COMPLETE (R251, R253): the tiles of the earlier pass hold its result and its flag falls; FSTAT.TC is set where a
bad ternary code was read. -/
def execMatrixPassComplete (cluster : Nat) (s : State) : Host.Outcome State Fault Refusal :=
  let cl := s.cluster cluster
  let after := match cl.ending with | some _ => { cl with ending := none } | none => (match cl.pass with | some p => { (cl.hold p) with pass := none } | none => cl)
  match cl.ending <|> cl.pass with
  | none => .next s
  | some p =>
    let s1 := s.setCluster cluster after
    let tc (c : Core) : Core :=
      if p.tcBad then { c with threads := AMap.mapVals c.threads (fun t => if t.warp = p.word.warp then t.orNow 128#32 else t) }
      else c
    .next (((s1.onCore p.core tc).completeOn p.core p.word.pends []).settleClaims cluster)

/-! ## MST's bytes (R267) -/

/-- Replaces a matrix store in progress. -/
def Core.setMst (c : Core) (m : MstWrite) : Core := { c with msts := c.msts.map (fun x => if x.id = m.id then m else x) }

/-- MST_CREDIT (R267): the store writes its next element, and when all are written credits its barrier with every byte. -/
def execMstCredit (core id : Nat) (s : State) : Host.Outcome State Fault Refusal :=
  match (s.core core).msts.find? (fun m => m.id == id) with
  | none => .next s
  | some m =>
    if m.stalled.isSome then .next s
    else
      match m.elems with
      | [] =>
        if s.tearing core then .next s
        else
        .next ((s.onCore core (fun c => ({ c with msts := c.msts.filter (fun x => !(x.id == id)) } : Core).creditBar m.bar m.bytes)).completeOn core m.late [])
      | e :: es =>
        let r := s.writeElem core (s.vfOf core) m.buf e.1 e.2
        match r.2 with
        | .wait => .next r.1
        | .stall x => .next (r.1.onCore core (fun c => c.setMst { m with stalled := some x }))
        | _ => .next (r.1.onCore core (fun c => c.setMst { m with elems := es }))

end Sys2Proof.Machine
end

