-- ==== Sys2Proof/Machine/Flow.lean ====
section
/-! DEFINITION. The flow words of majors 0x01 to 0x08 (R77 to R88). -/

namespace Sys2Proof.Machine

open Sys2Proof

/-! ## Clauses and yield points -/

/-- Whether a thread's long-latency work and its helpers have ended (R82, R83). -/
def Core.settled (c : Core) (u : Nat) : Bool := flagsZero (c.th u).flags && c.teamDone u

/-- The effect of YIELD on one thread once its wait is over (R82). -/
def yieldThread (dflt deadline : Nat) (soft : Bool) (t : Thread) : Thread :=
  { t.clearY with
    dl := if deadline = 0 then dflt else deadline, yc := 0, lastYield := deadline,
    hold := if soft then .halted else t.hold, early := if soft then [] else t.early }

/-- HDR in warp code (R39, R43, R77). -/
def hdrWarp (s : State) (wait : BitVec 12) (a b : BitVec 4) (y : Bool) : Res State :=
  let k := s.cur.core
  let c := s.core k
  let open1 (t : Thread) : Thread := { t.clearY with pc := t.pc + 4#32, setA := a, setB := b, wait := wait }
  if !y then .ok (s.setCore k (c.updAll s.cur.run open1))
  else
    (helperCheck { helper := false } c s.cur.run).bind fun _ =>
    if !(s.cur.run.all c.settled) then .wait false
    else
      let s1 := s.setCore k (c.updAll s.cur.run (fun t => yieldThread (s.deadline k) t.lastYield (s.soft k) (open1 t)))
      .ok (s1.count (s.vfOf k) 2 s.cur.run.length)

/-- HDR in front-end code (R43). -/
def hdrFront (x : FrontEnd) (wait : BitVec 12) (a b : BitVec 4) (y : Bool) : Res FrontEnd :=
  if y && !(flagsZero x.flags) then .wait false
  else .ok { x with setA := a, setB := b, wait := wait }

/-- HDR (R77). -/
def execHdr (wait : BitVec 12) (setA setB : BitVec 4) (y : Bool) (s : State) : Host.Outcome State Fault Refusal :=
  finishQuiet s (if s.cur.fe then feWord { stream := .both, g := false } s [] [] (fun x => hdrFront x wait setA setB y)
    else hdrWarp s wait setA setB y)

/-- NOP (R78). -/
def execNop (_lk : Link) (s : State) : Host.Outcome State Fault Refusal :=
  finish s (bothWord { stream := .both, g := false } s [] [] (fun c _ => .ok c) (fun x => .ok x))

/-- YIELD (R82). -/
def execYield (_lk : Link) (l : BitVec 8) (s : State) : Host.Outcome State Fault Refusal :=
  finish s (warpWordS { g := false, helper := false } s [] [] (fun s1 act =>
    let k := s1.cur.core
    let c := s1.core k
    if !(act.all c.settled) then .wait false
    else
      let s2 := s1.setCore k (c.updAll act (yieldThread (s1.deadline k) l.toNat (s1.soft k)))
      .ok (s2.count (s2.vfOf k) 2 act.length)))

/-! ## Branches -/

/-- The packet that holds the word in hand. -/
def Cur.packet (cur : Cur) : Nat := cur.pc.toNat / 12

/-- The target of a direct branch where it lies in the segment (R49, R79). -/
def directTarget (cur : Cur) (npk : Nat) (off : BitVec 19) : Option Nat :=
  let t : Int := (cur.packet : Int) + off.toInt
  if 0 ≤ t ∧ t < (npk : Int) then some t.toNat else none

/-- Moves a thread to a packet: a taken branch, whose redirect takes one more cycle (R44, R66). -/
def Thread.goTo (p : Nat) (t : Thread) : Thread := { t.clearY with pc := BitVec.ofNat 32 (12 * p), last := t.last + 1 }

/-- Moves the front end to a packet. -/
def FrontEnd.goTo (p : Nat) (x : FrontEnd) : FrontEnd := { x with pc := BitVec.ofNat 32 (12 * p), last := x.last + 1 }

/-- The form of the branch words. -/
def branchForm : Form := { stream := .both }

/-- A direct branch to a target in the segment; one outside it raises ILLEGAL_PACKET before every other check (R56). -/
def withTarget (s : State) (off : BitVec 19) (f : Nat → Res State) : Res State :=
  match directTarget s.cur s.segLen off with
  | none => .trap (trapAt .illegalPacket (if s.cur.fe then 0 else s.lowLane))
  | some p => f p

/-- BRA and BRC: a direct branch taken in the threads that a test picks (R79). -/
def directBranch (s : State) (off : BitVec 19) (takenW : Core → Nat → Bool) (takenF : FrontEnd → Bool) : Res State :=
  withTarget s off fun p => bothWord branchForm s [] []
    (fun c act => .ok (c.updAll (act.filter (takenW c)) (Thread.goTo p)))
    (fun x => .ok (if takenF x then x.goTo p else x))

/-- BRA (R79). -/
def execBra (_i : BitVec 2) (off : BitVec 19) (s : State) : Host.Outcome State Fault Refusal :=
  finish s (directBranch s off (fun _ _ => true) (fun _ => true))

/-- BRC (R79). -/
def execBrc (_i : BitVec 2) (p : BitVec 3) (n : Bool) (off : BitVec 19) (s : State) : Host.Outcome State Fault Refusal :=
  finish s (directBranch s off (fun c u => (c.th u).predAt s.cur.draw u p.toNat != n) (fun x => x.predAt s.cur.draw p.toNat != n))

/-- CALL (R80). -/
def execCall (_i : BitVec 2) (off : BitVec 19) (s : State) : Host.Outcome State Fault Refusal :=
  let back := s.cur.packet + 1
  finish s (withTarget s off fun p => bothWord branchForm s [] []
    (fun c act => (forEach (fun u c => c.writeAt u 103#7 (BitVec.ofNat 32 back) 0) act c).map (fun c => c.updAll act (Thread.goTo p)))
    (fun x => .ok ((x.write 63#7 (BitVec.ofNat 64 back) 0).goTo p)))

/-- ILLEGAL_PACKET where a packet number that an active thread reads lies outside the segment, before every other check (R56,
R81). -/
def packetCheck (s : State) (a : Reg) : Res Unit :=
  let c := s.core s.cur.core
  let out (u : Nat) : Bool := c.srcOk u a && decide (s.segLen ≤ (c.readReg s.cur.draw u a).toNat)
  match (if s.cur.fe then [] else s.active).find? out with
  | some u => .trap (trapAt .illegalPacket (c.th u).lane)
  | none => match (if s.cur.fe then c.fe else none) with
    | some x => if feSrcOk a && decide (s.segLen ≤ (x.read s.cur.draw a).toNat) then .trap (trapAt .illegalPacket 0) else .ok ()
    | none => .ok ()

/-- BRX and RET: to the packet a register holds (R81). -/
def indirectBranch (s : State) (a : Reg) : Res State :=
  (packetCheck s a).bind fun _ => bothWord branchForm s [a] []
    (fun c act => .ok (act.foldl (fun c1 u => c1.updTh u (Thread.goTo (c.readReg s.cur.draw u a).toNat)) c))
    (fun x => .ok (x.goTo (x.read s.cur.draw a).toNat))

/-- BRX (R81). -/
def execBrx (_i : BitVec 2) (a : Reg) (s : State) : Host.Outcome State Fault Refusal := finish s (indirectBranch s a)

/-- RET (R81). -/
def execRet (_i : BitVec 2) (a : Reg) (s : State) : Host.Outcome State Fault Refusal := finish s (indirectBranch s a)

/-! ## Ending threads -/

/-- Ends threads in turn and frees the claims of a warp that has ended. -/
def State.endThreads (s : State) (k : Nat) (us : List Nat) : State :=
  (s.onCore k (fun c => us.foldl Core.endThread c)).freeClaims k

/-- EXIT (R83). -/
def execExit (_lk : Link) (s : State) : Host.Outcome State Fault Refusal :=
  finish s (bothWordS { stream := .both, helper := false } s [] []
    (fun s1 act => if !(act.all (s1.core s1.cur.core).settled) then .wait false else .ok (s1.endThreads s1.cur.core act))
    (fun s1 x => if !(flagsZero x.flags) then .wait false else .ok (s1.setFe { x with ended := true })))

/-- The pending results and flags of a thread that the retirement tracker takes over: stores, atomics, copies, matrix
stores, and results bound for a row that a handle holds (R84). -/
def State.trackable (s : State) (k u : Nat) : List Nat :=
  let c := s.core k
  let cl := s.cluster (clusterOf k)
  let held := c.damask.flatMap (fun e => if e.2.state == 0 then [] else e.2.map)
  let moves (r : Req) : Bool := match r.kind with | .store => true | .atomic .. => true | _ => false
  let ofReqs := (c.reqs.filter moves).flatMap (fun r => (r.lanes.filter (fun l => l.uid == u)).map (fun l => l.pend))
  let copies (w : EngineWord) : Bool := match w.op with | .load .. => true | _ => false
  let ofEngine := (cl.jwords.filter (fun w => w.core == k && copies w)).flatMap (fun w => w.pends)
  let ofMatrix := c.mwords.flatMap (fun m => m.late) ++ c.msts.flatMap (fun m => m.late)
  let mine := c.pend.filter (fun p => p.2.uid == u)
  let bound (p : Pend) : Bool := p.dests.any (fun ps => ps.any (fun q => held.contains q.1))
  (mine.filter (fun p => bound p.2 || ofReqs.contains p.1 || ofEngine.contains p.1 || ofMatrix.contains p.1)).map (fun p => p.1)

/-- What of a thread's outstanding work a TAIL discards: loads into rows that no handle holds (R84). -/
def Core.discard (c : Core) (u : Nat) (keep : List Nat) : Core :=
  let gone := (c.pend.filter (fun p => p.2.uid == u && !(keep.contains p.1))).map (fun p => p.1)
  let reqs := c.reqs.map (fun r => { r with lanes := r.lanes.filter (fun l => !(gone.contains l.pend)) })
  { c with pend := c.pend.filter (fun p => !(gone.contains p.1)), reqs := reqs.filter (fun r => !(r.lanes.isEmpty)) }

/-- The entries of the retirement tracker still in use. -/
def Core.trackerLive (c : Core) : AMap (List Nat) := c.tracker.filter (fun e => e.2.any (fun p => AMap.has c.pend p))

/-- TAIL in one thread (R84). -/
def State.tailThread (u : Nat) (s : State) : Res State :=
  let k := s.cur.core
  let keep := s.trackable k u
  let c := s.core k
  let used := c.trackerLive
  if !keep.isEmpty && decide (64 ≤ used.length) then .wait false
  else
    let slot := match lowest (fun i => !(AMap.has used i)) 64 0 with | some i => i | none => 0
    let tracker := if keep.isEmpty then used else AMap.put used slot keep
    .ok (s.setCore k ({ (c.discard u keep) with tracker := tracker }.endThread u))

/-- TAIL (R84). -/
def execTail (_lk : Link) (s : State) : Host.Outcome State Fault Refusal :=
  finish s (warpWordS { helper := false } s [] [] (fun s1 act =>
    let c := s1.core s1.cur.core
    if !(act.all c.teamDone) then .wait false
    else (forEach State.tailThread act s1).map (fun s2 => s2.freeClaims s2.cur.core)))

/-! ## Waiting and steering -/

/-- SLEEP (R88). -/
def execSleep (_lk : Link) (a : Reg) (s : State) : Host.Outcome State Fault Refusal :=
  finish s (warpWord { helper := false } s [a] [] (fun c act =>
    .ok (act.foldl (fun c1 u =>
      let n := (c.readReg s.cur.draw u a).toNat % 65536
      if n = 0 then c1 else c1.updTh u (fun t => { t with hold := .sleep n })) c)))

/-- PRIO (R87). -/
def execPrio (_lk : Link) (a : Reg) (s : State) : Host.Outcome State Fault Refusal :=
  finish s (warpWord { helper := false } s [a] [] (fun c act =>
    match act with
    | [] => .ok c
    | u :: _ =>
      let g := (c.readReg s.cur.draw u a).toNat
      .ok { c with token := if g < 64 ∧ AMap.has c.groups g = true then some g else none }))

/-- DQPUT (R71, R85). One that waits for room computes its consumer set again at each try: the set is that of the moment at
which it posts (log 105), no earlier than 4 cycles after a BUFSET before it (R193). -/
def execDqput (_i : BitVec 2) (a b : Reg) (s : State) : Host.Outcome State Fault Refusal :=
  finish s (feWordS { stream := .front } s [a, b] [] (fun s1 x =>
    let k := s1.cur.core
    let c := s1.core k
    let roles := (x.read s1.cur.draw b).toNat
    let n := match s1.header k with | some h => h.nroles | none => 0
    let consumers := (c.warps.filter (fun w => decide (w.role < n) && tbit roles w.role && !(c.warpEnded w.id))).map (fun w => w.id)
    if consumers.isEmpty then .ok s1
    else if c.bufFresh || decide (64 ≤ c.dq.length) then .wait false
    else .ok (s1.setCore k { c with dq := c.dq ++ [⟨((x.read s1.cur.draw a).setWidth 32).setWidth 64, consumers⟩] })))

/-- The oldest entry of a queue that lists a warp. -/
def oldestFor (w : Nat) (q : List QEntry) : Option QEntry := q.find? (fun e => e.left.contains w)

/-- A queue after a warp has taken its oldest entry. -/
def takeOldest (w : Nat) : List QEntry → List QEntry
  | [] => []
  | e :: t =>
    if e.left.contains w then
      let l := e.left.filter (fun x => !(x == w))
      if l.isEmpty then t else { e with left := l } :: t
    else e :: takeOldest w t

/-- Whether the front-end thread of a core has ended, or never was (R86, R91). -/
def Core.feEnded (c : Core) : Bool := match c.fe with | some f => f.ended | none => true

/-- DQTAKE (R86). -/
def execDqtake (_lk : Link) (d : Reg) (s : State) : Host.Outcome State Fault Refusal :=
  finish s (warpWord { g := false, helper := false } s [] [d] (fun c act =>
    let w := s.width s.cur.core
    (collect65 c s.cur w act (fullMask w) false).bind fun _ =>
    match oldestFor s.cur.warp c.dq with
    | none => if c.feEnded then .trap (trapAt .illegalConvergence s.lowLane) else .waitAll
    | some e => ({ c with dq := takeOldest s.cur.warp c.dq }).plainResults act d (fun _ => e.value.setWidth 32)))

/-! ## EXT and what is no instruction -/

/-- EXT (R50, R51): its fields are held for the word that follows; RM 5 to 7, or SR with RM, makes that word illegal. -/
def execExt (c3 : Reg) (rm : BitVec 3) (sr sat : Bool) (g sel : BitVec 4) (s : State) : Host.Outcome State Fault Refusal :=
  let bad := decide (5 ≤ rm.toNat) || (sr && !(rm == 0#3))
  let s1 := { s with cur := { s.cur with ext := some ⟨c3, rm, sr, sat, g, sel⟩, extBad := bad, status := .issued } }
  let c := s1.core s1.cur.core
  if s1.cur.fe then .next (match c.fe with | some x => s1.setFe { x with pc := x.pc + 4#32 } | none => s1)
  else .next (s1.setCore s1.cur.core (c.updAll s1.cur.run (fun t => { t with pc := t.pc + 4#32 })))

/-- A word that is no instruction raises ILLEGAL_INSTRUCTION; a packet that breaks R55 or lies outside the segment raises
ILLEGAL_PACKET at the offending slot (R32, R54). -/
def execUnallocatedEncoding (packet : Bool) (slot : Nat) (s : State) : Host.Outcome State Fault Refusal :=
  if packet then .next (s.raise (trapAt .illegalPacket s.lowLane) (slotPc s.cur.gpc slot))
  else .next (s.raise (trapAt .illegalInstruction s.lowLane) s.cur.pc)

/-! ## Events of waiting threads -/

/-- Whether a thread spends the cycle that begins in a wait that counts: in SLEEP, parked, or waiting for a window peer or a row
(R28, R68, R88, R289, R302). -/
def Thread.counting (t : Thread) : Bool :=
  match t.hold with
  | .sleep n => !(n == 0)
  | .parked n _ => !(n == 0)
  | _ => t.stall

/-- Whether its next unit would pass its deadline (R69). -/
def Thread.overdue (t : Thread) : Bool := t.counting && decide (1024 * t.dl < t.yc + 1)

/-- The end of a SLEEP whose cycles have all passed (R88). -/
def execSleepWake (core uid : Nat) (s : State) : Host.Outcome State Fault Refusal :=
  let c := s.core core
  match (c.th uid).hold with
  | .sleep 0 => .next (s.setCore core (c.updTh uid (fun t => { t with hold := .run })))
  | _ => .next s

/-- A unit of waiting that would pass DL × 1,024 ends the launch (R69, R88, R302). The record names the word that waits: a SLEEP
or an OFFER has issued, any other has not. -/
def execWatchdog (core uid : Nat) (s : State) : Host.Outcome State Fault Refusal :=
  let c := s.core core
  let t := c.th uid
  if t.overdue ∧ s.tearing core = false then
    let pc := if t.hold == .run then t.pc else t.pc - 4#32
    let s1 := { s with cur := ⟨core, false, t.warp, [uid], false, pc, pc, 1, none, false, s.cur.draw, .issued⟩ }
    .next (s1.raise (trapAt .watchdog t.lane) pc)
  else .next s

end Sys2Proof.Machine
end

