-- ==== Sys2Proof/Machine/Memory.lean ====
section
/-! DEFINITION. The memory access words of majors 0x1F to 0x27 (R194 to R201), but for those that serve faults. -/

namespace Sys2Proof.Machine

open Sys2Proof

/-! ## LD, ST, LDS, STS, LDW and STW (R195, R196) -/

/-- Bytes moved for an SZ (R195). -/
def szBytes (sz : BitVec 3) : Nat :=
  if sz.toNat < 2 then 1 else if sz.toNat < 4 then 2 else if sz.toNat = 4 then 4 else if sz.toNat = 5 then 8 else 16

/-- Registers moved. -/
def szRegs (sz : BitVec 3) : Nat := (szBytes sz + 3) / 4

/-- A memory word: its form, its register checks, and what it asks of each lane. -/
def memWord (f : Form) (s : State) (idx : Reg) (ok : Core → Nat → Bool) (m : Core → MemWord) : Res State :=
  (checkForm f s).bind fun _ =>
    let c := s.core s.cur.core
    let regs := s.idxRegs idx
    (operandCheck c s.active (fun u => ok c u && regs.all (c.srcOk u)) s.lowLane true).bind fun _ =>
    warpWordS f s regs [] (fun s1 act => acceptWord s1 act (m c))

/-- A load in one of the spaces. -/
def loadWord (s : State) (d : Reg) (buf : BitVec 5) (idx : Reg) (f : Bool) (sz : BitVec 3) (space : Nat) : Res State :=
  let n := szRegs sz
  memWord { c3 := true, legal := !(sz == 7#3) } s idx (fun c u => c.dataOk u d n true false)
    (fun _ => ⟨.load sz, [space], buf, idx, szBytes sz, f, d, n, fun _ => [], fun _ => [], false, false⟩)

/-- A store in one of the spaces. -/
def storeWord (s : State) (d : Reg) (buf : BitVec 5) (idx : Reg) (f : Bool) (sz : BitVec 3) (space : Nat) : Res State :=
  let n := szRegs sz
  let w := szBytes sz
  memWord { c3 := true, legal := !(sz == 7#3 || sz == 1#3 || sz == 3#3) } s idx (fun c u => c.dataOk u d n true true)
    (fun c => ⟨.store, [space], buf, idx, w, f, 108#7, 0, fun u => c.dataBytes s.cur.draw u d n w, fun _ => [], true, false⟩)

/-- LD (R196). -/
def execLd (_lk : Link) (d : Reg) (buf : BitVec 5) (idx : Reg) (f : Bool) (sz : BitVec 3) (s : State) : Host.Outcome State Fault Refusal :=
  finish s (loadWord s d buf idx f sz 0)

/-- ST (R196). -/
def execSt (_lk : Link) (d : Reg) (buf : BitVec 5) (idx : Reg) (f : Bool) (sz : BitVec 3) (s : State) : Host.Outcome State Fault Refusal :=
  finish s (storeWord s d buf idx f sz 0)

/-- LDS (R196). -/
def execLds (_lk : Link) (d : Reg) (buf : BitVec 5) (idx : Reg) (f : Bool) (sz : BitVec 3) (s : State) : Host.Outcome State Fault Refusal :=
  finish s (loadWord s d buf idx f sz 1)

/-- STS (R196). -/
def execSts (_lk : Link) (d : Reg) (buf : BitVec 5) (idx : Reg) (f : Bool) (sz : BitVec 3) (s : State) : Host.Outcome State Fault Refusal :=
  finish s (storeWord s d buf idx f sz 1)

/-- LDW (R196). -/
def execLdw (_lk : Link) (d : Reg) (buf : BitVec 5) (idx : Reg) (f : Bool) (sz : BitVec 3) (s : State) : Host.Outcome State Fault Refusal :=
  finish s (loadWord s d buf idx f sz 2)

/-- STW (R196). -/
def execStw (_lk : Link) (d : Reg) (buf : BitVec 5) (idx : Reg) (f : Bool) (sz : BitVec 3) (s : State) : Host.Outcome State Fault Refusal :=
  finish s (storeWord s d buf idx f sz 2)

/-! ## PREF (R197) -/

/-- The translations of lines that a core already holds; none where one misses. -/
def Core.heldLines (c : Core) (s : State) (v : Nat) : List Nat → Option (List Nat)
  | [] => some []
  | va :: vas =>
    match c.tlbHit v va false with
    | none => none
    | some e => (Core.heldLines c s v vas).map (fun ps => s.redirect (e.pa + (va - e.va)) :: ps)

/-- A line prefetched: dropped where its translation misses. -/
def State.prefetch (s : State) (core : Nat) (l1 : Bool) (k : Key) (va : Nat) : State :=
  match (s.core core).heldLines s k.vf (s.linesOf k va) with
  | none => s
  | some pas =>
    s.onCore core (fun c =>
      c.addReqs [{ Req.base (.prefetch l1) core 1 0#32 with key := k, va := va, pas := pas, epoch := c.epoch }])

/-- PREF (R197). -/
def execPref (_lk : Link) (buf : BitVec 5) (idx : Reg) (sz : BitVec 3) (s : State) : Host.Outcome State Fault Refusal :=
  finish s (warpWordS { c3 := true, legal := decide (sz.toNat < 2) } s (s.idxRegs idx) [] (fun s1 act =>
    let core := s1.cur.core
    let c := s1.core core
    let draw := s1.cur.draw
    let b := c.buf draw buf.toNat
    let v := s1.vfOf core
    let off (u : Nat) : Nat := if s1.ext.c3 = 0#7 then 0 else (c.readReg draw u s1.ext.c3).toNat
    if !(bSpace b == 0) then .trap (trapAt .illegalOperand s1.lowLane)
    else if !c.accepts then .wait false
    else
      let accs := (act.map (fun u => s1.form core v b ((c.readReg draw u idx).toNat + off u) 1 false)).filter (fun a => a.fault.isNone)
      let lines := dedup (accs.map (fun a => (s1.keyOf v b a.index a.off a.addr, a.addr / 64 * 64)))
      .ok (lines.foldl (fun s l => s.prefetch core (sz == 0#3) l.1 l.2) s1)))

/-! ## BUFSET, QPUSH and QPOP (R198 to R200) -/

/-- BUFSET (R198): the record it replaces may still be read for 4 cycles (R193). -/
def execBufset (_i : BitVec 2) (d a b : Reg) (s : State) : Host.Outcome State Fault Refusal :=
  finish s (feWordS { stream := .front, legal := decide (d.toNat < 32) } s [a, b] [] (fun s1 x =>
    let r : BufRec := x.read s1.cur.draw b ++ x.read s1.cur.draw a
    if !(recValid r) then .trap (trapAt .illegalOperand 0)
    else
      .ok (s1.onCore s1.cur.core (fun c =>
        { c with bufs := AMap.put c.bufs d.toNat r,
                 bufOld := (d.toNat, AMap.lookD c.bufs d.toNat 0#128, c.clock) :: c.bufOld.filter (fun e => decide (c.clock < e.2.2 + 4)) }))))

/-- QPUSH (R199): it waits until the record of a BUFSET before it stands (R193). -/
def execQpush (_i : BitVec 2) (a b : Reg) (s : State) : Host.Outcome State Fault Refusal :=
  finish s (feWordS { stream := .front } s [a, b] [] (fun s1 x =>
    let k := s1.cur.core
    let c := s1.core k
    let q := (x.read s1.cur.draw b).toNat % 4
    let n := match s1.header k with | some h => h.nroles | none => 0
    let consumers := (c.warps.filter (fun w => decide (q < n) && w.role == q && !(c.warpEnded w.id))).map (fun w => w.id)
    let entries := AMap.lookD c.wq q []
    if consumers.isEmpty then .ok s1
    else if c.bufFresh || decide (32 ≤ entries.length) then .wait false
    else .ok (s1.setCore k { c with wq := AMap.put c.wq q (entries ++ [⟨x.read s1.cur.draw a, consumers⟩]) })))

/-- The role of a warp. -/
def Core.roleOf (c : Core) (w : Nat) : Nat := match c.warps.find? (fun x => x.id == w) with | some x => x.role | none => 0

/-- QPOP (R200). -/
def execQpop (_lk : Link) (d : Reg) (s : State) : Host.Outcome State Fault Refusal :=
  let f : Form := { g := false, helper := false }
  finish s ((checkForm f s).bind fun _ =>
    let c0 := s.core s.cur.core
    (operandCheck c0 s.active (fun u => c0.blockOk u d 2) s.lowLane true).bind fun _ =>
    warpWord f s [] [] (fun c act =>
      let width := s.width s.cur.core
      (collect65 c s.cur width act (fullMask width) false).bind fun _ =>
      let role := c.roleOf s.cur.warp
      let q := AMap.lookD c.wq role []
      match oldestFor s.cur.warp q with
      | none => if c.feEnded then .trap (trapAt .illegalConvergence s.lowLane) else .waitAll
      | some e =>
        forEach (fun u c => c.writeBlock u d 4 [e.value.setWidth 32, e.value.extractLsb' 32 32]) act
          { c with wq := AMap.put c.wq role (takeOldest s.cur.warp q) }))

/-! ## FREC (R201) -/

/-- The oldest fault record, taken off the queue; eight words of 0 where it is empty. -/
def Core.popRecord (c : Core) : Core × FaultRecord :=
  match c.faultq with
  | r :: rs => ({ c with faultq := rs }, r)
  | [] => (c, List.replicate 8 0#32)

/-- FREC (R201). -/
def execFrec (_lk : Link) (d : Reg) (s : State) : Host.Outcome State Fault Refusal :=
  let f : Form := { helper := false }
  finish s ((checkForm f s).bind fun _ =>
    let c0 := s.core s.cur.core
    (operandCheck c0 s.active (fun u => c0.blockOk u d 8) s.lowLane true).bind fun _ =>
    warpWord f s [] [] (fun c act =>
      forEach (fun u (c : Core) => c.popRecord.1.writeBlock u d 4 c.popRecord.2) act c))

end Sys2Proof.Machine
end

