-- ==== Sys2Proof/Machine/PoolWords.lean ====
section
/-! DEFINITION. Words that complete after their issue (R294, R323, R424): their results, the trap one of them may raise
late, and the end of a pool word's lanes. -/

namespace Sys2Proof.Machine

open Sys2Proof

/-- A word of a number, and argument `i` of a word that reads a block of registers. -/
def w32 (n : Nat) : Word := BitVec.ofNat 32 n
def arg (xs : List Word) (i : Nat) : Nat := (getAt xs i 0#32).toNat

/-- No page, in a header, a record or a result. -/
def noPage : Word := 0xFFFFFFFF#32

/-- Results of a word that completes in the cycle `done`: registers from `dst`, and the predicate where one is named (R324,
R424). -/
def Core.poolResult (c : Core) (u : Nat) (dst : Reg) (done : Nat) (vals : List Word) (pd : Option Nat) (failed : Bool) : Core :=
  let c1 := c.writeDoneAll u dst done vals
  match pd with
  | some p => c1.updTh u (fun t => t.setPredDone c1.clock done p failed)
  | none => c1

/-- Such results in each thread of a run. -/
def Core.poolResults (c : Core) (us : List Nat) (dst : Reg) (done : Nat) (vals : List Word) (pd : Option Nat) (failed : Bool) : Core :=
  us.foldl (fun c u => c.poolResult u dst done vals pd failed) c

/-- Where the word in hand stands. -/
def Cur.place (cur : Cur) : WordAt := ⟨cur.pc, cur.gpc, cur.glen⟩

/-- Raises a trap of a word that issued earlier, in the threads that waited for it; none in a launch that is being torn
down. -/
def State.raiseAt (s : State) (draw core : Nat) (us : List Nat) (w : WordAt) (t : TrapInfo) : State :=
  let c := us.foldl (fun (c : Core) u => c.updTh u (fun x => { x with hold := .run })) (s.core core)
  if s.tearing core then s.setCore core c else
  let warp := (c.th (us.headD 0)).warp
  { ({ s.setCore core c with cur := ⟨core, false, warp, us, false, w.pc, w.gpc, w.glen, none, false, draw, .issued⟩ }).raise t w.pc with
    cur := s.cur }

/-- The threads that wait for a pool word, in lane order. -/
def Core.poolWaiters (c : Core) (word : Nat) : List Nat :=
  sortBy (fun u => (c.th u).lane) (AMap.keys (c.threads.filter (fun p => p.2.hold == .pool word)))

/-- A pool word's outstanding lanes changed: at the last one its threads go on, or its KV_POISON is raised (R326). -/
def State.settleWord (s : State) (draw core word : Nat) (left : List Nat) (bad : Option (Nat × Nat)) (w : WordAt) : State :=
  let c := s.core core
  if !left.isEmpty then s.setCore core { c with poolWords := AMap.put c.poolWords word (left, bad) }
  else
    let us := c.poolWaiters word
    let c1 := us.foldl (fun (c : Core) u => c.updTh u (fun x => { x with hold := .run })) { c with poolWords := AMap.del c.poolWords word }
    match bad with
    | none => s.setCore core c1
    | some (lane, page) =>
      (s.setCore core c1).raiseAt draw core us w ⟨.kvPoison, lane, BitVec.ofNat 32 page, none⟩

/-- A lane of a pool word completes with its results. -/
def State.endLane (s : State) (draw : Nat) (l : PoolLane) (vals : List Word) (failed : Bool) : State :=
  let c := s.core l.core
  match AMap.look c.poolWords l.word with
  | none => s
  | some (left, bad) =>
    (s.setCore l.core (c.poolResult l.uid l.dst c.clock vals l.pd failed)).settleWord draw l.core l.word
      (left.filter (fun u => !(u == l.uid))) bad l.place

/-- Lanes of a word above a lane leave the pools they wait at. -/
def State.dropLanes (s : State) (core word lane : Nat) : State :=
  let keep (l : PoolLane) : Bool := !(l.core == core && l.word == word && decide (lane ≤ l.lane))
  { s with vfs := AMap.mapVals s.vfs (fun v =>
      { v with pools := AMap.mapVals v.pools (fun p => { p with queue := p.queue.filter keep }) }) }

/-- A lane meets a poisoned page: it and the lanes above it are not applied (R326). -/
def State.poisonLane (s : State) (draw : Nat) (l : PoolLane) (page : Nat) : State :=
  let s1 := s.dropLanes l.core l.word l.lane
  let c := s1.core l.core
  match AMap.look c.poolWords l.word with
  | none => s1
  | some (left, bad) =>
    let low := match bad with | some b => if b.1 < l.lane then some b else some (l.lane, page) | none => some (l.lane, page)
    s1.settleWord draw l.core l.word (left.filter (fun u => decide ((c.th u).lane < l.lane))) low l.place

end Sys2Proof.Machine
end

