-- ==== Sys2Proof/Machine/Tensor.lean ====
section
/-! DEFINITION. The tensor table and the tensor-cache words of majors 0x32 and 0x33 (R269 to R283), with the sweep of the
home slices and what each slice applies. -/

namespace Sys2Proof.Machine

open Sys2Proof

/-! ## The table (R269, R270, R277) -/

/-- A TREG descriptor's fields: the entry it asks for, its ID, and whether its reserved bits are 0. -/
def descTensor (w : List Word) : Tensor × Nat × Bool :=
  let x (j : Nat) : Nat := (getAt w j 0#32).toNat
  ({ Tensor.reset with
      state := 1, vbase := x 0 + bits (x 1) 19 0 * 2 ^ 32, pbase := x 2 + bits (x 3) 19 0 * 2 ^ 32, rows := x 4,
      stride := bits (x 5) 15 0, tr := bits (x 5) 23 16, tc := bits (x 6) 15 0, esize := bits (x 6) 19 16,
      format := bits (x 6) 23 20 },
   bits (x 7) 11 0,
   bits (x 1) 31 20 == 0 && bits (x 3) 31 20 == 0 && bits (x 5) 31 24 == 0 && bits (x 6) 31 24 == 0 && bits (x 7) 31 12 == 0)

/-- Whether a descriptor is valid (R270). -/
def Tensor.valid (e : Tensor) : Bool :=
  let es := 2 ^ e.esize
  decide (e.format ≤ 1) && decide (e.esize ≤ 4) && e.vbase % 64 == 0 && (e.stride * es) % 64 == 0 && (e.tc * es) % 64 == 0 &&
    decide (1 ≤ e.tr) && decide (1 ≤ e.tc) && decide (e.tc ≤ e.stride) && decide (1 ≤ e.rows) &&
    decide (e.tr * e.tc * es ≤ 65536) && decide (e.vbase + e.rows * e.stride * es ≤ 2 ^ 52) &&
    (if e.format = 0 then e.pbase == 0 else e.esize == 0 && e.pbase % 64 == 0)

/-- Replaces a tensor-table entry. -/
def State.setTensor (s : State) (v t : Nat) (e : Tensor) : State :=
  let x := s.vf v
  s.setVf v { x with tensors := AMap.put x.tensors t e }

/-- Whether a slice still holds a line of the entry under the generation that comes next (R273, wrap). -/
def State.wrapWait (s : State) (v t : Nat) : Bool :=
  let g := ((s.tensor v t).gen + 1) % 4096
  s.brocade.any (fun l => l.key.vf == v && l.key.t == t && l.gen == g)

/-- A core's L1 drops every line of a tensor. -/
def Core.dropTensor (c : Core) (v t : Nat) : Core := { c with l1 := c.l1.filter (fun l => !(l.key.vf == v && l.key.t == t)) }

/-- Fills a free entry at the next generation (R277). -/
def State.register (s : State) (v t : Nat) (e : Tensor) : State :=
  let old := s.tensor v t
  let s1 := s.setTensor v t { e with gen := (old.gen + 1) % 4096, late := old.late }
  { s1 with cores := AMap.mapVals s1.cores (fun c => c.dropTensor v t) }

/-- The entry that an ID names, or the lowest free one. -/
def VF.pickEntry (x : VF) (id : Nat) : Option Nat :=
  if id = 0 then lowest (fun t => (x.tensor t).state == 0) 4095 1 else some id

/-- The entry that TREG fills, or the result that says why it fills none (R277). -/
def State.tregEntry (s : State) (v : Nat) (w : List Word) : Except Word Nat :=
  let d := descTensor w
  if !(d.2.2 && d.1.valid) then .error 0xFFFFFFFE#32
  else
    match (s.vf v).pickEntry d.2.1 with
    | none => .error 0xFFFFFFFF#32
    | some t => if (s.tensor v t).state = 0 then .ok t else .error 0xFFFFFFFD#32

/-! ## Words that act once per run (R276) -/

/-- The form of the tensor-cache words. -/
def tensorForm : Form := { stream := .both }

/-- A word that a helper may not execute, checked after its operands (R56, R306). -/
def noHelper (s : State) (us : List Nat) : Res Unit := helperCheck { helper := false } (s.core s.cur.core) us

/-- The lane that decides a trap of the lowest active thread; 0 in front-end code. -/
def State.leadLane (s : State) (u : Nat) : Nat := if s.cur.fe then 0 else ((s.core s.cur.core).th u).lane

/-- The two words of a 64-bit front-end register, for consecutive registers. -/
def FrontEnd.readPairs (f : FrontEnd) (draw : Nat) (r : Reg) : Nat → List Word
  | 0 => []
  | n + 1 =>
    let v := f.read draw r
    v.setWidth 32 :: v.extractLsb' 32 32 :: FrontEnd.readPairs f draw (r + 1#7) n

/-! ## What the home slices apply (R278, R281) -/

/-- What a thread, or the front-end thread, is held by. -/
def Core.holdOf (c : Core) (u : Nat) : Hold :=
  if u = feUid then (match c.fe with | some f => f.hold | none => .run) else (c.th u).hold

/-- Holds a thread, or the front-end thread. -/
def Core.setHold (c : Core) (u : Nat) (h : Hold) : Core :=
  if u = feUid then { c with fe := c.fe.map (fun f => { f with hold := h }) } else c.updTh u (fun t => { t with hold := h })

/-- The threads of a run whose word a leader waits for. -/
def Core.heldWith (c : Core) (lead : Nat) : List Nat :=
  lead :: AMap.keys (c.threads.filter (fun p => p.2.hold == .follow lead))

/-- Holds a run on a tensor word. -/
def Core.holdSlices (c : Core) (job : SliceJob) (t : Nat) : List Nat → Core
  | [] => c
  | lead :: us => (us.foldl (fun c u => c.setHold u (.follow lead)) c).setHold lead (.slices job t false [])

/-- The result of a word that has just completed, in a thread or in the front-end thread (R424). -/
def Core.give (c : Core) (u : Nat) (dst : Reg) (v : Word) : Core :=
  if u = feUid then { c with fe := c.fe.map (fun f => f.writeDone c.clock c.clock dst (v.setWidth 64)) } else c.writeNow u dst v

/-- Such a result in each of a list. -/
def Core.giveAll (c : Core) (us : List Nat) (dst : Reg) (v : Word) : Core := us.foldl (fun c u => c.give u dst v) c

/-- TREG of one run on its descriptor (R277): it completes at once, or is held until the sweep has removed the lines of the
generation that comes next, its entry chosen now. -/
def tregRun (s : State) (us : List Nat) (d : Reg) (w : List Word) : State :=
  let v := s.vfOf s.cur.core
  match s.tregEntry v w with
  | .error res => s.onCore s.cur.core (fun c => c.giveAll us d res)
  | .ok t =>
    if s.wrapWait v t then s.onCore s.cur.core (fun c => c.holdSlices (.reg d w) t us)
    else (s.register v t (descTensor w).1).onCore s.cur.core (fun c => c.giveAll us d (BitVec.ofNat 32 t))

/-- TREG (R277). -/
def execTreg (_lk : Link) (d a : Reg) (s : State) : Host.Outcome State Fault Refusal :=
  let draw := s.cur.draw
  finish s (bothWordS tensorForm s [] [d]
    (fun s1 act => match act with
      | [] => .ok s1
      | u :: _ =>
        let k := s1.cur.core
        let c := s1.core k
        if !(c.blockOk u a 8) then .trap (trapAt .illegalOperand (c.th u).lane)
        else
          (noHelper s1 act).bind fun _ =>
          (c.ownAll act d 1).map fun c1 => tregRun (s1.setCore k c1) act d (c.readBlock draw u a 8))
    (fun s1 x =>
      if 60 < a.toNat then .trap (trapAt .illegalOperand 0)
      else .ok (tregRun s1 [feUid] d (x.readPairs draw a 4))))

/-- The lines of a tensor that a slice holds under the generation it matches. -/
def State.linesAt (s : State) (v t slice : Nat) : List BLine :=
  s.brocade.filter (fun l => l.key.vf == v && l.key.t == t && s.home l.key == slice && l.gen == s.genAt l.key)

/-- One slice revokes a line's owners; a discard drops its dirty sectors, but those that an eviction had written back, which
is free (R281). -/
def State.revokeLine (s : State) (draw n : Nat) (discard : Bool) (l : BLine) : State :=
  let s1 := s.revoke l 65535#16 none
  if discard then
    let kept := (List.range 4).foldl (fun m i => if Config.freeBool draw (4 * n + i) 9000 then m ||| (1#4 <<< i) else m) 0#4
    (s1.writeBack { l with dirty := l.dirty &&& kept }).putLine { l with dirty := 0#4, owner := [] }
  else s1.putLine { l with owner := [] }

/-- Applies to each line of a list, with its number. -/
def State.revokeLines (draw : Nat) (discard : Bool) : Nat → List BLine → State → State
  | _, [], s => s
  | n, l :: ls, s => State.revokeLines draw discard (n + 1) ls (s.revokeLine draw n discard l)

/-- One slice applies a tensor word: the lines of the old generation lose their owners, and for TINV the slice's generation
advances. -/
def State.applySlice (s : State) (draw v t : Nat) (job : SliceJob) (slice : Nat) : State :=
  match job with
  | .inv d =>
    let s1 := State.revokeLines draw d 0 (s.linesAt v t slice) s
    let e := s1.tensor v t
    s1.setTensor v t { e with late := e.late.erase slice }
  | _ => State.revokeLines draw false 0 (s.linesAt v t slice) s

/-- Whether a held tensor word may begin at the slices: TINV after the release of its threads and a wrap (R281), TREG after a
wrap (R277), TDROP once no accepted line request of the tensor is waiting to be served (R278). -/
def State.canBegin (s : State) (core lead t : Nat) (job : SliceJob) : Bool :=
  let c := s.core core
  let v := s.vfOf core
  match job with
  | .inv _ => (c.heldWith lead).all c.released && !(s.wrapWait v t)
  | .reg .. => !(s.wrapWait v t)
  | .make .. => !(s.wrapWait v t)
  | _ => !(s.cores.any (fun p => p.2.reqs.any (fun r =>
      r.key.vf == v && r.key.t == t && r.space == 0 && (r.stage == .walk || r.stage == .ready))))

/-- TINV begins: the generation advances, and every slice has an advance to apply. -/
def State.beginInv (s : State) (v t : Nat) : State :=
  let e := s.tensor v t
  s.setTensor v t { e with gen := (e.gen + 1) % 4096, late := e.late ++ List.range s.slices }

/-- The pool of a tensor entry is given up: its pages no longer count, its copy requests go, and lanes that wait on it fail
with BADSEQ (R331). -/
def State.forgetPool (s : State) (draw v t : Nat) : State :=
  match s.pool v t with
  | none => s
  | some p =>
    let held (tier : Nat) : Nat :=
      ((AMap.keys p.headers).filter (fun g => let h := p.header v g
        !(h.share == 0) && h.tier == tier && !(p.quarantine.contains g))).length
    let x := s.vf v
    let lower (m : AMap Nat) (tier : Nat) : AMap Nat := AMap.put m tier (AMap.lookD m tier 0 - held tier)
    let s1 := s.setVf v { x with pools := AMap.del x.pools t, used := lower (lower x.used 0) 1 }
    let mine (r : CopyReq) : Bool := r.vf == v && r.t == t
    let s2 := { s1 with
      clusters := AMap.mapVals s1.clusters (fun c => { c with copies := c.copies.filter (fun r => !(mine r)) }) }
    let ours (k : HaKind) : Bool := match k with | .copy r => mine r | _ => false
    let s3 := { s2 with
      parts := AMap.mapVals s2.parts (fun q =>
        { q with haPending := q.haPending.filter (fun e => !(ours e.2)), haWaiting := q.haWaiting.filter (fun k => !(ours k)) }) }
    p.queue.foldl (fun s l => s.endLane draw l [0xFFFFFFFF#32, 2#32] true) s3

/-- A pool descriptor: the pool, its VBASE, its ID, and whether it is valid (R331). -/
def descPool (w : List Word) : Pool × Nat × Nat × Bool :=
  let x (j : Nat) : Nat := arg w j
  let p : Pool :=
    ⟨x 2, x 3, bits (x 4) 7 0, x 5 + bits (x 6) 19 0 * 2 ^ 32, x 7 / 4096, [], [], [], []⟩
  let vbase := x 0 + bits (x 1) 19 0 * 2 ^ 32
  (p, vbase, x 7 % 4096,
    bits (x 1) 31 20 == 0 && bits (x 4) 31 8 == 0 && bits (x 6) 31 20 == 0 && vbase % 64 == 0 && p.seqbase % 64 == 0 &&
    decide (1 ≤ p.npages) && decide (p.npages ≤ 0xFFFFFFFE) && decide (p.nhbm ≤ p.npages) && decide (1 ≤ p.pay) &&
    decide (p.pay ≤ 128) && decide (1 ≤ p.nseq) && decide (vbase + p.npages * p.pageBytes ≤ 2 ^ 52) &&
    decide (p.seqbase + 64 * p.nseq ≤ 2 ^ 52))

/-- Makes a pool: its entry, every header in its free state, every record cleared (R331). -/
def State.makePool (s : State) (v t : Nat) (p : Pool) (vbase : Nat) : State :=
  let e := { Tensor.reset with state := 1, vbase := vbase, rows := p.npages, format := 2 }
  let s1 := (s.register v t e).setPool v t p
  let s2 := (List.range p.npages).foldl (fun s g => s.agentWrite (pageKey v t g 0) (vbase + g * p.pageBytes) 0 (p.freeHeader v g).pack) s1
  (List.range p.nseq).foldl (fun s i => s.agentWrite (flatKey v (p.seqbase + 64 * i)) (p.seqbase + 64 * i) 0 SeqRec.free.pack) s2

/-- KVNEW.pool of one run on its descriptor takes its entry (R331): it completes after a time of its size, its threads held so
long; an entry that is not free fails it. -/
def State.fillPool (s : State) (core v t : Nat) (us : List Nat) (dst : Reg) (pd : Option Nat) (w : List Word) : State :=
  let d := descPool w
  let c := s.core core
  let done := max c.clock ((us.map (fun u => (c.th u).busy)).foldl max 0)
  if (s.tensor v t).state = 0 then
    (s.makePool v t d.1 d.2.1).onCore core (fun c => c.poolResults us dst done [w32 t, w32 d.1.npages, 0#32] pd false)
  else s.onCore core (fun c => c.poolResults us dst done [noPage, 5#32] pd true)

/-- The end of a tensor word: the issuing core drops the tensor's L1 lines, a dropped entry is freed and keeps GEN, a TREG
fills its entry, and the threads go on. -/
def State.endSlices (s : State) (draw core lead v t : Nat) (job : SliceJob) : State :=
  let c0 := (s.core core).dropTensor v t
  let us := c0.heldWith lead
  let c1 := us.foldl (fun c u => c.setHold u .run) c0
  let s1 := s.setCore core c1
  let e := s1.tensor v t
  let freed := { Tensor.reset with gen := e.gen, late := e.late }
  match job with
  | .inv _ => s1
  | .reg dst desc =>
    -- an entry that another TREG filled meanwhile is not free (log 107)
    let res := if e.state = 0 then BitVec.ofNat 32 t else 0xFFFFFFFD#32
    (if e.state = 0 then s1.register v t (descTensor desc).1 else s1).onCore core (fun c => c.giveAll us dst res)
  | .make dst pd desc => s1.fillPool core v t us dst pd desc
  | .drop => s1.setTensor v t freed
  | .pool dst pd =>
    ((s1.setTensor v t freed).forgetPool draw v t).onCore core (fun c => c.poolResults us dst c.clock [0#32, 0#32, 0#32] pd false)

/-- One slice's part of a held tensor word. -/
def State.sliceStep (s : State) (draw core lead slice : Nat) : State :=
  let v := s.vfOf core
  match (s.core core).holdOf lead with
  | .slices job t begun left =>
    if begun then
      if !(left.contains slice) then s
      else
        let s1 := s.applySlice draw v t job slice
        let rest := left.erase slice
        if rest.isEmpty then s1.endSlices draw core lead v t job
        else s1.onCore core (fun c => c.setHold lead (.slices job t true rest))
    else if !(s.canBegin core lead t job) then s
    else
      match job with
      | .reg .. => s.endSlices draw core lead v t job
      | .make .. => s.endSlices draw core lead v t job
      | .inv _ =>
        if !((s.tensor v t).state == 1) then s.onCore core (fun c => (c.heldWith lead).foldl (fun c u => c.setHold u .run) c)
        else ((s.beginInv v t).applySlice draw v t job slice).onCore core
            (fun c => c.setHold lead (.slices job t true ((List.range s.slices).erase slice)))
      | _ => (s.applySlice draw v t job slice).onCore core
          (fun c => c.setHold lead (.slices job t true ((List.range s.slices).erase slice)))
  | _ => s

/-- TINV_SLICE_APPLY (R281). -/
def execTinvSliceApply (core uid slice : Nat) (s : State) : Host.Outcome State Fault Refusal :=
  .next (if slice < s.slices then s.sliceStep s.cur.draw core uid slice else s)

/-! ## TDROP and TINV -/

/-- Requests for a tensor that are held in an operand log or a request queue when it is dropped fault with BOUNDS at replay
(R278). -/
def State.markGone (s : State) (v t : Nat) : State :=
  let held (r : Req) : Bool := r.key.vf == v && r.key.t == t && r.space == 0 &&
    (match r.stage with | .faulted _ => true | .stuck => true | _ => false)
  { s with cores := AMap.mapVals s.cores (fun c => { c with reqs := c.reqs.map (fun r => if held r then { r with gone := true } else r) }) }

/-- TDROP of one run (R278). -/
def tdropRun (s : State) (us : List Nat) (a : Word) : Res State :=
  let v := s.vfOf s.cur.core
  let t := a.toNat % 65536
  let e := s.tensor v t
  let bad : Bool := !(a.toNat / 65536 == 0) || e.format == 2
  if bad then .trap (trapAt .illegalOperand (s.leadLane (us.headD 0)))
  else
    (noHelper s us).bind fun _ =>
    if t = 0 ∨ e.state ≠ 1 then .ok s
    else .ok (((s.setTensor v t { e with state := 2 }).markGone v t).onCore s.cur.core (fun c => c.holdSlices .drop t us))

/-- TINV of one run (R281). -/
def tinvRun (s : State) (us : List Nat) (a : Word) (b : Nat) : Res State :=
  let v := s.vfOf s.cur.core
  let t := a.toNat % 65536
  let e := s.tensor v t
  let bad : Bool := !(a.toNat / 65536 == 0) || decide (2 ≤ b) || t == 0 || e.format == 2
  if bad then .trap (trapAt .illegalOperand (s.leadLane (us.headD 0)))
  else
    (noHelper s us).bind fun _ =>
    if e.state ≠ 1 then .ok s
    else .ok (s.onCore s.cur.core (fun c => c.holdSlices (.inv (b == 1)) t us))

/-- TDROP (R278). -/
def execTdrop (_lk : Link) (a : Reg) (s : State) : Host.Outcome State Fault Refusal :=
  finish s (bothWordS tensorForm s [a] []
    (fun s1 act => match act with
      | [] => .ok s1
      | u :: _ => tdropRun s1 act ((s1.core s1.cur.core).readReg s.cur.draw u a))
    (fun s1 x => tdropRun s1 [feUid] ((x.read s.cur.draw a).setWidth 32)))

/-- TINV (R281). -/
def execTinv (_lk : Link) (a b : Reg) (s : State) : Host.Outcome State Fault Refusal :=
  finish s (bothWordS tensorForm s [a, b] []
    (fun s1 act => match act with
      | [] => .ok s1
      | u :: _ =>
        let c := s1.core s1.cur.core
        tinvRun s1 act (c.readReg s.cur.draw u a) (c.readReg s.cur.draw u b).toNat)
    (fun s1 x => tinvRun s1 [feUid] ((x.read s.cur.draw a).setWidth 32) (x.read s.cur.draw b).toNat))

/-! ## Tiles and lines -/

/-- The virtual address of line `n` of a tile, where the line lies inside the tile and the tensor (R173, R319). -/
def State.tileLine (s : State) (v t trow tcol n : Nat) : Option Nat :=
  let e := s.tensor v t
  if e.format = 2 then
    let pb := match s.pool v t with | some p => p.pageBytes | none => 0
    let l := 1024 * tcol + n
    if n < 1024 ∧ 64 * l < pb ∧ trow < e.rows then some (e.vbase + trow * pb + 64 * l) else none
  else
    let per := e.tc * 2 ^ e.esize / 64
    let r := trow * e.tr + n / per
    let c := tcol * e.tc + n % per * (64 / 2 ^ e.esize)
    if 0 < per ∧ n < e.tr * per ∧ r < e.rows ∧ c < e.stride then some (e.vbase + (r * e.stride + c) * 2 ^ e.esize) else none

/-- The lines of a tile, with their keys. -/
def State.tileLines (s : State) (v t trow tcol : Nat) : List (Key × Nat) :=
  let e := s.tensor v t
  let n := if e.format = 2 then 1024 else e.tr * (e.tc * 2 ^ e.esize / 64)
  (List.range n).filterMap (fun i => (s.tileLine v t trow tcol i).map (fun va => (⟨v, t, trow, tcol, i⟩, va)))

/-- The coordinates about a tile coordinate: from it upward, or on both sides. -/
def around (x n : Nat) (both : Bool) : List Nat :=
  (if both then (List.range n).filterMap (fun i => if i + 1 ≤ x then some (x - (i + 1)) else none) else []) ++
    (List.range (n + 1)).map (fun i => x + i)

/-- The tiles that TFETCH names (R279). -/
def fetchTiles (a b : Nat) : List (Nat × Nat) :=
  let both := tbit a 22
  (around (b % 65536) (bits a 18 16) both).flatMap (fun r => (around (b / 65536) (bits a 21 19) both).map (fun c => (r, c)))

/-- TFETCH's fills for the operands of its lanes (R279). -/
def State.tfetch (s : State) (ops : List (Nat × Nat)) : State :=
  let core := s.cur.core
  let v := s.vfOf core
  let tiles := dedup (ops.flatMap (fun o => (fetchTiles o.1 o.2).map (fun rc => (o.1 % 65536, rc, tbit o.1 23))))
  tiles.foldl (fun s x =>
    if (s.tensor v x.1).state == 1 && !(x.1 == 0) then
      (s.tileLines v x.1 x.2.1.1 x.2.1.2).foldl (fun s l => s.prefetch core x.2.2 l.1 l.2) s
    else s) s

/-- TFETCH (R279). -/
def execTfetch (_lk : Link) (a b : Reg) (s : State) : Host.Outcome State Fault Refusal :=
  finish s (bothWordS tensorForm s [a, b] []
    (fun s1 act =>
      let c := s1.core s1.cur.core
      let op (u : Nat) : Nat × Nat := ((c.readReg s.cur.draw u a).toNat, (c.readReg s.cur.draw u b).toNat)
      match act.find? (fun u => !((op u).1 / 2 ^ 24 == 0)) with
      | some u => .trap (trapAt .illegalOperand (c.th u).lane)
      | none => .ok (s1.tfetch (act.map op)))
    (fun s1 x =>
      let o := ((x.read s.cur.draw a).toNat % 2 ^ 32, (x.read s.cur.draw b).toNat % 2 ^ 32)
      if o.1 / 2 ^ 24 ≠ 0 then .trap (trapAt .illegalOperand 0) else .ok (s1.tfetch [o])))

/-! ## THALO (R280) -/

/-- The numbers from `lo` up to but not including `hi`. -/
def span (lo hi : Nat) : List Nat := (List.range (hi - lo)).map (fun i => lo + i)

/-- The lines of a tile's halo: every line with an element in the band around the tile and outside it. -/
def State.haloLines (s : State) (v t trow tcol hr hc : Nat) : List (Key × Nat) :=
  let e := s.tensor v t
  let w := 64 / 2 ^ e.esize
  let rlo := trow * e.tr
  let clo := tcol * e.tc
  let rows := span (rlo - hr) (min e.rows (rlo + e.tr + hr))
  let c0 := clo - hc
  let c1 := min e.stride (clo + e.tc + hc)
  let cols := if c0 < c1 then span (c0 / w) ((c1 - 1) / w + 1) else []
  rows.flatMap (fun r => cols.filterMap (fun q =>
    let c := q * w
    let inside := decide (rlo ≤ r) && decide (r < rlo + e.tr) && decide (clo ≤ c) && decide (c < clo + e.tc)
    if inside || e.tr == 0 || e.tc == 0 then none
    else some (⟨v, t, r / e.tr, c / e.tc, (r % e.tr) * (e.tc * 2 ^ e.esize / 64) + (c % e.tc) / w⟩, e.vbase + (r * e.stride + c) * 2 ^ e.esize)))

/-- One halo line, read once at its home slice and on its way to the L1 of each named core; dropped where its translation
misses (R280). -/
def State.pushLine (s : State) (cores : List Nat) (l : Key × Nat) : State :=
  match (s.core s.cur.core).heldLines s l.1.vf (s.linesOf l.1 l.2) with
  | none => s
  | some pas =>
    s.onCore s.cur.core (fun c => c.addReqs [{ Req.base (.push cores) s.cur.core 1 0#32 with key := l.1, va := l.2, pas := pas, epoch := c.epoch }])

/-- THALO of one run: the number of lines of the halo (R280). -/
def State.thalo (s : State) (act : List Nat) (a b lane : Nat) : Res (State × Word) :=
  let core := s.cur.core
  let c := s.core core
  let v := s.vfOf core
  let named := (List.range 4).filter (fun i => tbit a (24 + i))
  let cores := named.map (fun i => 4 * clusterOf core + i)
  let mine (k : Nat) : Bool := (s.core k).launch == c.launch && (s.core k).inst == c.inst
  if a / 2 ^ 28 ≠ 0 ∨ named = [] ∨ cores.all mine = false then .trap (trapAt .illegalOperand lane)
  else
    (noHelper s act).bind fun _ =>
    let t := a % 65536
    if t = 0 ∨ (s.tensor v t).state ≠ 1 then .ok (s, 0#32)
    else
      let ls := s.haloLines v t (b % 65536) (b / 65536) (bits a 19 16) (bits a 23 20)
      .ok (ls.foldl (fun s l => s.pushLine cores l) s, BitVec.ofNat 32 ls.length)

/-- THALO (R280). -/
def execThalo (_lk : Link) (d a b : Reg) (s : State) : Host.Outcome State Fault Refusal :=
  let draw := s.cur.draw
  finish s (bothWordS tensorForm s [a, b] [d]
    (fun s1 act => match act with
      | [] => .ok s1
      | u :: _ =>
        let k := s1.cur.core
        let c := s1.core k
        (s1.thalo act (c.readReg draw u a).toNat (c.readReg draw u b).toNat (c.th u).lane).bind fun r =>
        ((r.1.core k).plainResults act d (fun _ => r.2)).map (fun c1 => r.1.setCore k c1))
    (fun s1 x => (s1.thalo [] ((x.read draw a).toNat % 2 ^ 32) ((x.read draw b).toNat % 2 ^ 32) 0).map
      (fun r => r.1.setFe (x.write d (r.2.setWidth 64) 4))))

/-! ## TLOOK (R282) -/

/-- What a slice answers for a line. -/
def State.tlook (s : State) (v a b : Nat) : Word :=
  let t := a % 65536
  let k : Key := ⟨v, t, b % 65536, b / 65536, a / 65536⟩
  let e := s.tensor v t
  if t = 0 ∨ e.state ≠ 1 then 0x80000000#32
  else
    match s.tileLine v t k.trow k.tcol k.line with
    | none => 0x80000000#32
    | some _ =>
      let base := e.gen * 2 ^ 16 + s.home k * 2 ^ 8
      match s.brocade.find? (fun l => l.key == k && l.gen == e.gen) with
      | none => BitVec.ofNat 32 base
      | some l => BitVec.ofNat 32 (base + 0xF0 + (if l.poison = 0#4 then 0 else 4) + (if l.dirty = 0#4 then 0 else 2) + 1)

/-- TLOOK (R282). -/
def execTlook (_lk : Link) (d a b : Reg) (s : State) : Host.Outcome State Fault Refusal :=
  let draw := s.cur.draw
  finish s (bothWordS tensorForm s [a, b] [d]
    (fun s1 act =>
      let k := s1.cur.core
      let c := s1.core k
      (c.slowResults act d c.clock (fun u => s1.tlook (s1.vfOf k) (c.readReg draw u a).toNat (c.readReg draw u b).toNat)).map
        (fun c1 => s1.setCore k c1))
    (fun s1 x => .ok (s1.setFe (x.writeDone x.last x.last d
      ((s1.tlook (s1.vfOf s1.cur.core) ((x.read draw a).toNat % 2 ^ 32) ((x.read draw b).toNat % 2 ^ 32)).setWidth 64)))))

/-! ## The sweep (R273) -/

/-- Whether a swept line goes: its generation is superseded, or its entry is free or dropping. -/
def State.sweepable (s : State) (l : BLine) : Bool :=
  !(l.key.t == 0) && (!(l.gen == s.genAt l.key) || !((s.tensor l.key.vf l.key.t).state == 1))

/-- BROCADE_SWEEP (R273). -/
def execBrocadeSweep (n : Nat) (s : State) : Host.Outcome State Fault Refusal :=
  match s.brocade.drop n with
  | l :: _ => .next (if s.sweepable l then s.evict l else s)
  | [] => .next s

end Sys2Proof.Machine
end

