-- ==== Sys2Proof/Machine/Pools.lean ====
section
/-! DEFINITION. The pool agent (R316 to R327, R329) and the pool words of major 0x35 (R331 to R337). -/

namespace Sys2Proof.Machine

open Sys2Proof

/-! ## Pages (R322, R329) -/

/-- A page header of a pool. -/
def State.header1 (s : State) (v t g : Nat) : PageHeader :=
  match s.pool v t with
  | some p => p.header v g
  | none => (⟨0, 0, 0, 0, 0, [], [], [], []⟩ : Pool).freeHeader v g

/-- A sequence record of a pool. -/
def State.seq1 (s : State) (v t q : Nat) : SeqRec :=
  match s.pool v t with
  | some p => p.seq q
  | none => SeqRec.free

/-- The VFs of a partition. -/
def State.vfsOf (s : State) (part : Nat) : List Nat :=
  match AMap.look s.parts part with
  | some p => (List.range 64).filter (fun v => p.vfmask.getLsbD v)
  | none => []

/-- A VF's pages in use of a tier. -/
def VF.usedIn (x : VF) (tier : Nat) : Nat := AMap.lookD x.used tier 0

/-- A VF's QUOTA and BORROW of a tier at their resets (R328). -/
def VF.quotaIn (x : VF) (tier : Nat) : Nat := AMap.lookD x.quota tier 0xFFFFFFFF
def VF.borrowIn (x : VF) (tier : Nat) : Nat := AMap.lookD x.borrow tier 0

/-- The pages of a tier in a pool. -/
def Pool.tierPages (p : Pool) (tier : Nat) : Nat := if tier = 0 then p.nhbm else p.npages - p.nhbm

/-- FREE of a tier in the partition of a VF (R329). -/
def State.freePages (s : State) (v tier : Nat) : Nat :=
  match s.partOfVf v with
  | none => 0
  | some part =>
    let vs := s.vfsOf part
    let all := vs.foldl (fun n v => n + (s.vf v).pools.foldl (fun m p => m + p.2.tierPages tier) 0) 0
    all - vs.foldl (fun n v => n + (s.vf v).usedIn tier) 0

/-- LOWMARK of a tier in the partition of a VF. -/
def State.lowMark (s : State) (v tier : Nat) : Nat :=
  match s.partOfVf v with
  | none => 0
  | some part => (match AMap.look s.parts part with | some p => AMap.lookD p.lowmark tier 0 | none => 0)

/-- Whether R329 permits an allocation. -/
def State.allocOk (s : State) (v tier : Nat) : Bool :=
  let x := s.vf v
  decide (x.usedIn tier < x.quotaIn tier) ||
    (decide (x.usedIn tier < x.quotaIn tier + x.borrowIn tier) && decide (s.lowMark v tier < s.freePages v tier))

/-- KV_RECLAIM to every VF of the partition that uses more than its quota of a tier (R329). -/
def State.reclaim (s : State) (v tier : Nat) : State :=
  match s.partOfVf v with
  | none => s
  | some part =>
    (s.vfsOf part).foldl (fun s w =>
      let x := s.vf w
      if x.quotaIn tier < x.usedIn tier then
        s.send (if s.funcBit w 1 then .msixVf w 1 else .osInterrupt part w)
      else s) s

/-- Sets USED of a tier. -/
def State.setUsed (s : State) (v tier n : Nat) : State :=
  let x := s.vf v
  s.setVf v { x with used := AMap.put x.used tier n }

/-- Takes a page of a tier where the rules permit (R322). -/
def State.allocTier (s : State) (v t tier : Nat) : Option (State × Nat) :=
  match s.pool v t with
  | none => none
  | some p =>
    if !(s.allocOk v tier) then none
    else
      let free (g : Nat) : Bool := (p.header v g).share == 0 && !(p.quarantine.contains g)
      match lowest free (p.tierPages tier) (if tier = 0 then 0 else p.nhbm) with
      | none => none
      | some g =>
        let before := s.freePages v tier
        let s1 := (s.setUsed v tier ((s.vf v).usedIn tier + 1)).putHeader v t g { (p.freeHeader v g) with share := 1 }
        let low := s.lowMark v tier
        some (if low < before ∧ before - 1 ≤ low then s1.reclaim v tier else s1, g)

/-- alloc() (R322). -/
def State.allocPage (s : State) (v t : Nat) : Option (State × Nat) :=
  match s.allocTier v t 0 with
  | some r => some r
  | none => s.allocTier v t 1

/-- release(g) (R322). -/
def State.releasePage (s : State) (v t g : Nat) : State :=
  match s.pool v t with
  | none => s
  | some p =>
    let h := p.header v g
    let s1 := s.setUsed v h.tier ((s.vf v).usedIn h.tier - 1)
    if h.poison then
      match s1.pool v t with
      | some q => s1.setPool v t { q with quarantine := q.quarantine ++ [g], headers := AMap.put q.headers g { h with share := 0 } }
      | none => s1
    else s1.putHeader v t g (p.freeHeader v g)

/-! ## Chains (R321) -/

/-- next(s, g): none where the page is the tail, or its SUCC is lost. -/
def State.nextPage (s : State) (v t : Nat) (r : SeqRec) (g : Word) : Word :=
  if g = r.tail then noPage
  else
    match r.branches.find? (fun b => b.1 == g) with
    | some b => b.2
    | none => let h := s.header1 v t g.toNat
      if h.lost then noPage else h.succ

/-- The pages of a chain from a page on. -/
def State.chainFrom (s : State) (v t : Nat) (r : SeqRec) : Nat → Word → List Word
  | 0, _ => []
  | n + 1, g => if g = noPage then [] else g :: State.chainFrom s v t r n (s.nextPage v t r g)

/-- A bound on the pages of a chain: every page ever taken. -/
def State.chainBound (s : State) (v t : Nat) : Nat := match s.pool v t with | some p => p.headers.length + 1 | none => 0

/-- chain(s). -/
def State.chain (s : State) (v t q : Nat) : List Word :=
  let r := s.seq1 v t q
  s.chainFrom v t r (s.chainBound v t) r.head

/-- The element before another in a list. -/
def before (g : Word) : List Word → Option Word
  | x :: y :: l => if y = g then some x else before g (y :: l)
  | _ => none

/-- pred(s, g). -/
def State.predPage (s : State) (v t q : Nat) (g : Word) : Option Word :=
  if g = (s.seq1 v t q).head then none else before g (s.chain v t q)

/-- Removes a branch, the later ones moving down. -/
def SeqRec.dropBranch (r : SeqRec) (g : Word) : SeqRec := { r with branches := r.branches.filter (fun b => !(b.1 == g)) }

/-- Sets SUCC of a page. -/
def State.setSucc (s : State) (v t : Nat) (p n : Word) : State :=
  s.putHeader v t p.toNat { (s.header1 v t p.toNat) with succ := n }

/-- relink but for its last case: none where the sequence's branches are full. -/
def State.relink1 (s : State) (v t q : Nat) (p : Option Word) (n : Word) : Option State :=
  let r := s.seq1 v t q
  match p with
  | none => some (s.putSeq v t q { r with head := n })
  | some p =>
    if (s.header1 v t p.toNat).share = 1 then some ((s.setSucc v t p n).putSeq v t q (r.dropBranch p))
    else if r.branches.any (fun b => b.1 == p) then
      some (s.putSeq v t q { r with branches := r.branches.map (fun b => if b.1 = p then (p, n) else b) })
    else if r.branches.length < 4 then some (s.putSeq v t q { r with branches := r.branches ++ [(p, n)] })
    else none

/-- Copies one line of a page, poison with it; whether a sector came poisoned (R322, R326). -/
def State.copyPageLine (s : State) (v t g n l : Nat) : State × Bool :=
  match s.pool v t with
  | none => (s, false)
  | some p =>
    let base := (s.tensor v t).vbase
    let va (x : Nat) : Nat := base + x * p.pageBytes + 64 * l
    match s.walk v (va g) false, s.walk v (va n) true with
    | .ok a, .ok b =>
      let r := s.bring (pageKey v t g l) (va g) [a]
      let bad := r.2.poison
      let s1 := r.1.homeWrite (pageKey v t n l) (va n) [b] 0 r.2.data none
      match s1.lineOf (pageKey v t n l) with
      | some x => (s1.putLine { x with poison := x.poison ||| bad, covered := 0#64 }, !(bad == 0#4))
      | none => (s1, !(bad == 0#4))
    | _, _ => (s, false)

/-- The payload of page `n` := that of page `g`; whether any sector of it is poisoned. -/
def State.copyPayload (s : State) (v t g n : Nat) : State × Bool :=
  let lines := match s.pool v t with | some p => 128 * p.pay | none => 0
  (List.range lines).foldl (fun x i => let r := x.1.copyPageLine v t g n (i + 1)
    (r.1, x.2 || r.2)) (s, false)

/-- The copy of a page for a sequence, up to the relinking: the new page, the page before, the state. SHARE of the old page
stays where `keep` is set (R333). -/
def State.copyStart (s : State) (v t q : Nat) (g : Word) (keep : Bool) : Option (State × Option Word × Word) :=
  match s.allocPage v t with
  | none => none
  | some (s1, n) =>
    let r := s.seq1 v t q
    let nx := s.nextPage v t r g
    let p := s.predPage v t q g
    let c := s1.copyPayload v t g.toNat n
    let s2 := if c.2 then c.1.putHeader v t g.toNat { (c.1.header1 v t g.toNat) with poison := true } else c.1
    let h := s2.header1 v t g.toNat
    let hn := s2.header1 v t n
    let h1 : PageHeader :=
      { hn with first := h.first, valid := h.valid, retired := h.retired, invalid := h.invalid, tags := h.tags, poison := c.2,
                share := 1, seq := BitVec.ofNat 32 q, pred := match p with | some x => x | none => noPage, succ := nx }
    let s3 := s2.putHeader v t n h1
    let s4 := s3.putSeq v t q ((s3.seq1 v t q).dropBranch g)
    let s5 := if keep then s4 else s4.putHeader v t g.toNat { (s4.header1 v t g.toNat) with share := h.share - 1 }
    some (s5, p, BitVec.ofNat 32 n)

/-- The end of a copy: the new page stands where the old one stood. -/
def State.copyEnd (s : State) (v t q : Nat) (g n : Word) : State :=
  let r := s.seq1 v t q
  if r.tail = g then s.putSeq v t q { r with tail := n } else s

/-- copypage where the pages before are private. -/
def State.copyPage1 (s : State) (v t q : Nat) (g : Word) : Option (State × Word) :=
  match s.copyStart v t q g false with
  | none => none
  | some (s1, p, n) => (s1.relink1 v t q p n).map (fun s2 => (s2.copyEnd v t q g n, n))

/-- Copies every shared page of a list, front to back. -/
def State.copyShared (v t q : Nat) : List Word → State → Option State
  | [], s => some s
  | h :: hs, s =>
    if 1 < (s.header1 v t h.toNat).share then
      match s.copyPage1 v t q h with
      | none => none
      | some (s1, _) => State.copyShared v t q hs s1
    else State.copyShared v t q hs s

/-- The pages of a list up to and including one. -/
def upTo (p : Word) : List Word → List Word
  | [] => []
  | x :: l => if x = p then [x] else x :: upTo p l

/-- The element at a page's place: that of the same position. -/
def placeIn (p : Word) : List Word → List Word → Word
  | x :: l, y :: m => if x = p then y else placeIn p l m
  | _, _ => p

/-- relink(s, p, n), with the page that then stands in p's place; none where a copy finds no page (R322). -/
def State.relink (s : State) (v t q : Nat) (p : Option Word) (n : Word) : Option (State × Option Word) :=
  match s.relink1 v t q p n with
  | some s1 => some (s1, p)
  | none =>
    match p with
    | none => some (s, none)
    | some p =>
      let ch := s.chain v t q
      match State.copyShared v t q (upTo p ch) s with
      | none => none
      | some s1 =>
        let p1 := placeIn p ch (s1.chain v t q)
        some (s1.setSucc v t p1 n, some p1)

/-- copypage(s, g) (R322). -/
def State.copyPage (s : State) (v t q : Nat) (g : Word) (keep : Bool) : Option (State × Word) :=
  match s.copyStart v t q g keep with
  | none => none
  | some (s1, p, n) => (s1.relink v t q p n).map (fun r => (r.1.copyEnd v t q g n, n))

/-- unlink(s, g), with whether the page was released; none where a copy finds no page (R322). -/
def State.unlink (s : State) (v t q : Nat) (g : Word) : Option (State × Bool) :=
  let r := s.seq1 v t q
  let p := s.predPage v t q g
  let nx := s.nextPage v t r g
  match s.relink v t q p nx with
  | none => none
  | some (s1, p1) =>
    let r1 := (s1.seq1 v t q).dropBranch g
    let tail := if r1.tail = g then (match p1 with | some x => x | none => noPage) else r1.tail
    let head := if r1.head = g then nx else r1.head
    let s2 := s1.putSeq v t q { r1 with tail := tail, head := head }
    let h := s2.header1 v t g.toNat
    let s3 := s2.putHeader v t g.toNat { h with share := h.share - 1 }
    if h.share ≤ 1 then some (s3.releasePage v t g.toNat, true) else some (s3, false)

/-- Unlinks pages in turn: pages unlinked and released. -/
def State.unlinkAll (v t q : Nat) : List Word → State → Option (State × Nat × Nat)
  | [], s => some (s, 0, 0)
  | g :: gs, s =>
    match s.unlink v t q g with
    | none => none
    | some (s1, f) => (State.unlinkAll v t q gs s1).map (fun r => (r.1, r.2.1 + 1, r.2.2 + (if f then 1 else 0)))

/-! ## Poison (R326) -/

/-- The agent reads a page's header: an error in the header's own sector is found. -/
def State.scanHeader (s : State) (v t : Nat) (g : Word) : State :=
  match s.pool v t with
  | none => s
  | some p =>
    if g.toNat < p.npages then
      let va := (s.tensor v t).vbase + g.toNat * p.pageBytes
      match s.walk v va false with
      | .ok pa => if (List.range 4).any (fun i => s.physPoison (pa + 16 * i)) then s.markPage (pageKey v t g.toNat 0) else s
      | .fault _ => s
    else s

/-- The agent reads the headers of a chain. -/
def State.scanChain (s : State) (v t q : Nat) : State := (s.chain v t q).foldl (fun s g => s.scanHeader v t g) s

/-- The header reads of a lane operation: what they find is marked whatever becomes of the lane (R326). -/
def State.scanFor (s : State) (v t : Nat) : PoolOp → State
  | .newSeq _ => s
  | .app q _ => let g := (s.seq1 v t q).tail
    if g = noPage then s else s.scanHeader v t g
  | .walk q g =>
    let s1 := if g = noPage then s else s.scanHeader v t g
    let n := if g = noPage then (s.seq1 v t q).head else s1.nextPage v t (s.seq1 v t q) g
    if n = noPage then s1 else s1.scanHeader v t n
  | .fork q => s.scanChain v t q
  | .free q => s.scanChain v t q
  | .trunc q _ => s.scanChain v t q
  | .inv _ q _ _ => s.scanChain v t q
  | .rspan q _ => s.scanChain v t q

/-- Whether a page's POISON is set. -/
def State.pagePoison (s : State) (v t : Nat) (g : Word) : Bool := let h := s.header1 v t g.toNat
  h.poison || h.lost

/-! ## Lane operations (R331 to R337) -/

/-- How a lane operation ends: results, a failure with its REASON (R324), a copy request, or a poisoned page. -/
inductive LaneOut where
  | done (s : State) (a b c : Word)
  | fail (reason : Nat)
  | copy (g : Word)
  | poison (g : Word)

/-- LIVE of a page (R321). -/
def PageHeader.live (h : PageHeader) : BitVec 16 := BitVec.ofNat 16 (2 ^ h.valid - 1) &&& ~~~(h.invalid ||| h.retired)

/-- KVNEW.seq (R331). -/
def poolNewSeq (s : State) (v t : Nat) (p : Pool) (pos : Word) : LaneOut :=
  match lowest (fun i => !(p.seq i).live) p.nseq 0 with
  | none => .fail 3
  | some i => .done (s.putSeq v t i ⟨noPage, noPage, pos, true, []⟩) (w32 i) 0#32 0#32

/-- A page header with the slot of an append. -/
def PageHeader.append (h : PageHeader) (tag : Nat) : PageHeader :=
  let m := ~~~(1#16 <<< h.valid)
  { h with tags := setAt h.tags h.valid tag, invalid := h.invalid &&& m, retired := h.retired &&& m, valid := h.valid + 1 }

/-- The last part of KVAPP: the slot in page `g`. -/
def appendTo (s : State) (v t q : Nat) (g : Word) (tag : Nat) : LaneOut :=
  let r := s.seq1 v t q
  let h := s.header1 v t g.toNat
  .done ((s.putHeader v t g.toNat (h.append tag)).putSeq v t q { r with nextPos := r.nextPos + 1#32 }) g (w32 h.valid) r.nextPos

/-- KVAPP (R332). -/
def poolApp (s : State) (v t q tag : Nat) : LaneOut :=
  let r := s.seq1 v t q
  let g := r.tail
  let h := s.header1 v t g.toNat
  if r.nextPos = noPage then .fail 6
  else if g ≠ noPage ∧ s.pagePoison v t g then .poison g
  else if g = noPage ∨ h.valid = 16 then
    match s.allocPage v t with
    | none => .fail 1
    | some (s1, n) =>
      let gn := w32 n
      let s2 := s1.putHeader v t n { (s1.header1 v t n) with first := r.nextPos, seq := w32 q, pred := g }
      match s2.relink v t q (if g = noPage then none else some g) gn with
      | none => .fail 1
      | some (s3, _) => appendTo (s3.putSeq v t q { (s3.seq1 v t q) with tail := gn }) v t q gn tag
  else if 1 < h.share then .copy g
  else appendTo s v t q g tag

/-- KVFORK's pages: shared where the count allows, else copied for the new sequence. -/
def forkPages (v t q : Nat) : List Word → Nat → State → Option (State × Nat)
  | [], c, s => some (s, c)
  | g :: gs, c, s =>
    let h := s.header1 v t g.toNat
    if h.share < 255 then forkPages v t q gs c (s.putHeader v t g.toNat { h with share := h.share + 1 })
    else
      match s.copyPage v t q g true with
      | none => none
      | some (s1, _) => forkPages v t q gs (c + 1) s1

/-- KVFORK (R333). -/
def poolFork (s : State) (v t : Nat) (p : Pool) (q : Nat) : LaneOut :=
  match lowest (fun i => !(p.seq i).live) p.nseq 0 with
  | none => .fail 3
  | some n =>
    match (s.chain v t q).find? (s.pagePoison v t) with
    | some g => .poison g
    | none =>
      let s1 := s.putSeq v t n (s.seq1 v t q)
      match forkPages v t n (s1.chain v t n) 0 s1 with
      | none => .fail 1
      | some (s2, c) => .done s2 (w32 n) (w32 c) 0#32

/-- KVFREE (R334): the walk ends after a page whose SUCC is lost. -/
def poolFree (s : State) (v t q : Nat) : LaneOut :=
  match State.unlinkAll v t q (s.chain v t q) s with
  | none => .fail 1
  | some (s1, u, f) => .done (s1.putSeq v t q SeqRec.free) (w32 u) (w32 f) 0#32

/-- A page header cut to its first `n` slots. -/
def PageHeader.cut (h : PageHeader) (n : Nat) : PageHeader :=
  let m := BitVec.ofNat 16 (2 ^ n - 1)
  { h with valid := n, invalid := h.invalid &&& m, retired := h.retired &&& m, tags := h.tags.take n ++ List.replicate (16 - n) 0 }

/-- KVFREE.trunc (R334). -/
def poolTrunc (s : State) (v t q : Nat) (pos : Nat) : LaneOut :=
  let r := s.seq1 v t q
  if r.nextPos.toNat ≤ pos then .done s 0#32 0#32 0#32
  else
    let later := (s.chain v t q).filter (fun g => decide (pos ≤ (s.header1 v t g.toNat).first.toNat))
    match State.unlinkAll v t q later.reverse s with
    | none => .fail 1
    | some (s1, u, f) =>
      let g := (s1.seq1 v t q).tail
      let h := s1.header1 v t g.toNat
      let ends (s2 : State) : LaneOut := .done (s2.putSeq v t q { (s2.seq1 v t q) with nextPos := w32 pos }) (w32 u) (w32 f) 0#32
      if g ≠ noPage ∧ pos < h.first.toNat + h.valid then
        if 1 < h.share then .copy g else ends (s1.putHeader v t g.toNat (h.cut (pos - h.first.toNat)))
      else ends s1

/-- KVWALK (R335). -/
def poolWalk (s : State) (v t : Nat) (p : Pool) (q : Nat) (g : Word) : LaneOut :=
  let r := s.seq1 v t q
  if g ≠ noPage ∧ p.npages ≤ g.toNat then .fail 4
  else
    let n := if g = noPage then r.head else s.nextPage v t r g
    if n = noPage then .done s noPage r.nextPos 0#32
    else
      let h := s.header1 v t n.toNat
      if s.pagePoison v t n then .poison n else .done s n h.first (w32 (h.valid * 65536 + h.live.toNat))

/-- KVINV (R336). -/
def poolInv (s : State) (v t q : Nat) (set : Bool) (g : Word) (m : BitVec 16) : LaneOut :=
  if !((s.chain v t q).contains g) then .fail 4
  else if s.pagePoison v t g then .poison g
  else
    let h := s.header1 v t g.toNat
    let m1 := m &&& BitVec.ofNat 16 (2 ^ h.valid - 1)
    let new := if set then h.invalid ||| m1 else h.invalid &&& ~~~m1
    if new ≠ h.invalid ∧ 1 < h.share then .copy g
    else .done (s.putHeader v t g.toNat { h with invalid := new }) (new.setWidth 32) (w32 h.valid) g

/-- The slots of a page that carry a tag. -/
def PageHeader.tagged (h : PageHeader) (tag : Nat) : BitVec 16 :=
  (List.range h.valid).foldl (fun m k => if getAt h.tags k 0 = tag then m ||| (1#16 <<< k) else m) 0#16

/-- The number of bits set. -/
def ones (m : BitVec 16) : Nat := ((List.range 16).filter m.getLsbD).length

/-- Whether a page is partly tagged (R337). -/
def PageHeader.partly (h : PageHeader) (tag : Nat) : Bool :=
  let m := h.tagged tag
  !(m == 0#16) && decide (ones m < h.valid) && !(m &&& ~~~h.retired == 0#16)

/-- RSPAN over the pages of a chain: unlinked, released and slots retired. -/
def retirePages (v t q tag : Nat) : List Word → State → Option (State × Nat × Nat × Nat)
  | [], s => some (s, 0, 0, 0)
  | g :: gs, s =>
    let h := s.header1 v t g.toNat
    let m := h.tagged tag
    if ones m = h.valid then
      match s.unlink v t q g with
      | none => none
      | some (s1, f) =>
        (retirePages v t q tag gs s1).map (fun r => (r.1, r.2.1 + 1, r.2.2.1 + (if f then 1 else 0), r.2.2.2))
    else
      let add := m &&& ~~~h.retired
      let s1 := if add = 0#16 then s else s.putHeader v t g.toNat { h with retired := h.retired ||| add }
      (retirePages v t q tag gs s1).map (fun r => (r.1, r.2.1, r.2.2.1, r.2.2.2 + ones add))

/-- RSPAN (R337). -/
def poolRspan (s : State) (v t q tag : Nat) : LaneOut :=
  let ch := s.chain v t q
  match ch.find? (s.pagePoison v t) with
  | some g => .poison g
  | none =>
    match ch.find? (fun g => let h := s.header1 v t g.toNat
        h.partly tag && decide (1 < h.share)) with
    | some g => .copy g
    | none =>
      match retirePages v t q tag ch s with
      | none => .fail 1
      | some (s1, u, f, r) => .done s1 (w32 u) (w32 f) (w32 r)

/-- The sequence that an operation names. -/
def PoolOp.seq : PoolOp → Option Nat
  | .newSeq _ => none
  | .app s _ => some s
  | .fork s => some s
  | .free s => some s
  | .trunc s _ => some s
  | .walk s _ => some s
  | .inv _ s _ _ => some s
  | .rspan s _ => some s

/-- Whether an operation names a sequence that is not there (BADSEQ). -/
def Pool.badSeq (p : Pool) (op : PoolOp) : Bool := match op.seq with | some q => decide (p.nseq ≤ q) || !(p.seq q).live | none => false

/-- One lane operation on a pool whose headers have been read (R323). -/
def State.poolOp (s : State) (v t : Nat) (op : PoolOp) : LaneOut :=
  match s.pool v t with
  | none => .fail 2
  | some p =>
    if p.badSeq op then .fail 2
    else
      match op with
      | .newSeq pos => poolNewSeq s v t p pos
      | .app q tag => poolApp s v t q tag
      | .fork q => poolFork s v t p q
      | .free q => poolFree s v t q
      | .trunc q pos => poolTrunc s v t q pos
      | .walk q g => poolWalk s v t p q g
      | .inv set q g m => poolInv s v t q set (w32 g) m
      | .rspan q tag => poolRspan s v t q tag

/-- The state in which the agent has read what an operation needs; nothing is read for BADSEQ. -/
def State.poolRead (s : State) (v t : Nat) (op : PoolOp) : State :=
  match s.pool v t with
  | none => s
  | some p => if p.badSeq op then s else s.scanFor v t op

/-! ## The agent (R323) -/

/-- The lane that the agent takes next: the first that waits on no copy request and has no earlier lane of its own word
waiting. -/
def nextLane (stopped : Nat → Bool) (seen : List (Nat × Nat)) : List PoolLane → Option PoolLane
  | [] => none
  | l :: ls =>
    if l.copying.isNone && !(seen.contains (l.core, l.word)) && !(stopped l.core) then some l
    else nextLane stopped ((l.core, l.word) :: seen) ls

/-- Takes a lane off its pool's queue. -/
def State.unqueue (s : State) (v t : Nat) (l : PoolLane) : State :=
  match s.pool v t with
  | some p => s.setPool v t { p with queue := p.queue.erase l }
  | none => s

/-- Starts a chase of the die of a core on the four pages after a page, where fewer than 64 run (R335). -/
def State.startChase (s : State) (core v t q : Nat) (g : Word) : State :=
  let d := s.die (dieOf core)
  if d.chases.length < 64 then s.setDie (dieOf core) { d with chases := d.chases ++ [⟨v, t, s.seq1 v t q, g.toNat, 4⟩] } else s

/-- Posts a copy request for a lane's page: to the handler role of its cluster, or to the host (R325, R354). -/
def State.postCopy (s : State) (v t q : Nat) (l : PoolLane) (g : Word) : State :=
  let r : CopyReq := ⟨v, t, q, g.toNat⟩
  let s1 := match (s.count v 0x0D 1).pool v t with
    | some p => (s.count v 0x0D 1).setPool v t { p with queue := p.queue.map (fun x => if x = l then { x with copying := some g.toNat } else x) }
    | none => s
  let cl := clusterOf l.core
  let c := s1.cluster cl
  if s1.funcBit v 1 || c.handler.isNone then s1.postHaVf v (.copy r)
  else s1.setCluster cl { c with copies := c.copies ++ [r] }

/-- The agent examines one lane. -/
def State.poolLane (s : State) (draw v t : Nat) (l : PoolLane) : State :=
  if l.dry then (s.unqueue v t l).endLane draw l [noPage, 1#32] true
  else
    let s0 := s.poolRead v t l.op
    match s0.poolOp v t l.op with
    | .done s1 a b c =>
      let s2 := match l.op with
        | .walk q _ => if a = noPage then s1 else s1.startChase l.core v t q a
        | _ => s1
      (s2.unqueue v t l).endLane draw l [a, b, c] false
    | .fail r => (s0.unqueue v t l).endLane draw l [noPage, w32 r] true
    | .copy g => (match l.op.seq with | some q => s0.postCopy v t q l g | none => s0)
    | .poison g => (s0.unqueue v t l).poisonLane draw l g.toNat

/-- POOL_LANE_OPERATION (R323). -/
def execPoolLaneOperation (vf pool : Nat) (s : State) : Host.Outcome State Fault Refusal :=
  match s.pool vf pool with
  | none => .next s
  | some p =>
    match nextLane s.stopped [] p.queue with
    | some l => .next (s.poolLane s.cur.draw vf pool l)
    | none => .next s

/-- An operation examined afresh after a copy: KVINV's page is then the private copy (R336). -/
def PoolOp.onCopy (op : PoolOp) (n : Option Word) : PoolOp :=
  match op, n with
  | .inv set q g m, some n => if n = 0xFFFFFFFE#32 then .inv set q g m else .inv set q n.toNat m
  | _, _ => op

/-- A copy request is served at the agent (R333, R393): the page named by the result, none on POOL_DRY; the lane that waits
goes to the front of the queue. -/
def State.serveCopy (s : State) (r : CopyReq) : State × Option Word :=
  let q := s.seq1 r.vf r.t r.s
  let needed := q.live && (s.chain r.vf r.t r.s).contains (w32 r.g) && decide (1 < (s.header1 r.vf r.t r.g).share)
  let out := if needed then (match s.copyPage r.vf r.t r.s (w32 r.g) false with | some (s1, n) => (s1, some n) | none => (s, none))
    else (s, some 0xFFFFFFFE#32)
  let dry := out.2.isNone
  let mine (l : PoolLane) : Bool := l.copying == some r.g && l.op.seq == some r.s
  match out.1.pool r.vf r.t with
  | none => out
  | some p =>
    match pluck mine p.queue with
    | none => out
    | some (l, rest) => (out.1.setPool r.vf r.t { p with queue := { l with op := l.op.onCopy out.2, copying := none, dry := dry } :: rest }, out.2)

/-! ## Twill (R335) -/

/-- Fills the lines of a page into their home slices; an error found marks the page. -/
def State.fillPage (s : State) (v t g : Nat) : State :=
  match s.pool v t with
  | none => s
  | some p =>
    (List.range (p.pageBytes / 64)).foldl (fun s l =>
      let va := (s.tensor v t).vbase + g * p.pageBytes + 64 * l
      match s.walk v va false with
      | .fault _ => s
      | .ok pa =>
        let r := s.bring (pageKey v t g l) va [pa]
        if r.2.poison = 0#4 then r.1 else r.1.markPage (pageKey v t g l)) s

/-- TWILL_CHASE (R335): the oldest chase of a die advances one page; it stops at a page that is poisoned, or whose fill finds an
error. -/
def execTwillChase (die : Nat) (s : State) : Host.Outcome State Fault Refusal :=
  let d := s.die die
  match d.chases with
  | [] => .next s
  | c :: cs =>
    let n := s.nextPage c.vf c.t c.srec (w32 c.page)
    let stop := s.setDie die { d with chases := cs }
    if c.left = 0 ∨ n = noPage ∨ (s.pool c.vf c.t).isNone then .next stop
    else
      let s1 := s.scanHeader c.vf c.t n
      if s1.pagePoison c.vf c.t n then .next (s1.setDie die { (s1.die die) with chases := cs })
      else
        let s2 := s1.fillPage c.vf c.t n.toNat
        let rest := if s2.pagePoison c.vf c.t n then cs else { c with page := n.toNat, left := c.left - 1 } :: cs
        .next (s2.setDie die { (s2.die die) with chases := rest })

/-! ## The words (R330 to R337) -/

/-- The predicate that a form sets. -/
def pdOf (pd : BitVec 3) (pe : Bool) : Option Nat := if pe then some pd.toNat else none

/-- The form of the pool words. -/
def poolForm (sel : BitVec 4) (pd : BitVec 3) (pe : Bool) : Form :=
  { legal := pe || pd == 0#3, sel := fun x => x == sel }

/-- Whether a register names a registered pool of the VF. -/
def State.isPool (s : State) (v : Nat) (w : Word) : Bool :=
  let e := s.tensor v w.toNat
  !(w == 0#32) && decide (w.toNat < 4096) && e.state == 1 && e.format == 2

/-- Makes the rows of a result block the thread's own at issue. -/
def Core.ownBlock (u : Nat) (d : Reg) (n : Nat) (c : Core) : Res Core := (c.claimPlaces u d n).map (fun r => r.1)

/-- A pool word: every active lane's operation goes to its pool's agent, and its threads wait (R323). `n` registers from A
are read. -/
def poolWord (s : State) (f : Form) (d a : Reg) (n : Nat) (pd : BitVec 3) (pe : Bool)
    (op : List Word → Option PoolOp) : Res State :=
  let draw := s.cur.draw
  (checkForm f s).bind fun _ =>
  let c0 := s.core s.cur.core
  let v := s.vfOf s.cur.core
  let args (c : Core) (u : Nat) : List Word := c.readBlock draw u a n
  (operandCheck c0 s.active (fun u => c0.blockOk u d 3 && c0.blockOk u a n && s.isPool v (getAt (args c0 u) 0 0#32) &&
      (op (args c0 u)).isSome) s.lowLane true).bind fun _ =>
  warpWordS f s [] [] (fun s1 act =>
    let k := s1.cur.core
    let c := s1.core k
    if act.isEmpty then .ok s1
    else
      (forEach (fun u c => Core.ownBlock u d 3 c) act c).map (fun c1 =>
        let id := c1.nextPool
        let c2 := c1.updAll act (fun t => { t with hold := .pool id })
        let s2 := s1.setCore k { c2 with nextPool := id + 1, poolWords := AMap.put c2.poolWords id (act, none) }
        act.foldl (fun s u =>
          match op (args c u), s.pool v (getAt (args c u) 0 0#32).toNat with
          | some o, some p =>
            s.setPool v (getAt (args c u) 0 0#32).toNat
              { p with queue := p.queue ++ [⟨k, id, u, (c.th u).lane, o, d, pdOf pd pe, s1.cur.place, none, false⟩] }
          | _, _ => s) s2))

/-- KVNEW.seq (R331). -/
def execKvnewSeq (_lk : Link) (d a : Reg) (pd : BitVec 3) (pe : Bool) (s : State) : Host.Outcome State Fault Refusal :=
  finish s (poolWord s (poolForm 0#4 pd pe) d a 2 pd pe (fun x => some (.newSeq (getAt x 1 0#32))))

/-- KVAPP (R332). -/
def execKvapp (_lk : Link) (d a : Reg) (pd : BitVec 3) (pe : Bool) (s : State) : Host.Outcome State Fault Refusal :=
  finish s (poolWord s (poolForm 0#4 pd pe) d a 3 pd pe (fun x => if arg x 2 < 16 then some (.app (arg x 1) (arg x 2)) else none))

/-- KVFORK (R333). -/
def execKvfork (_lk : Link) (d a : Reg) (pd : BitVec 3) (pe : Bool) (s : State) : Host.Outcome State Fault Refusal :=
  finish s (poolWord s (poolForm 0#4 pd pe) d a 2 pd pe (fun x => some (.fork (arg x 1))))

/-- KVFREE (R334). -/
def execKvfree (_lk : Link) (d a : Reg) (pd : BitVec 3) (pe : Bool) (s : State) : Host.Outcome State Fault Refusal :=
  finish s (poolWord s (poolForm 0#4 pd pe) d a 2 pd pe (fun x => some (.free (arg x 1))))

/-- KVFREE.trunc (R334). -/
def execKvfreeTrunc (_lk : Link) (d a : Reg) (pd : BitVec 3) (pe : Bool) (s : State) : Host.Outcome State Fault Refusal :=
  finish s (poolWord s (poolForm 1#4 pd pe) d a 3 pd pe (fun x => some (.trunc (arg x 1) (arg x 2))))

/-- KVWALK (R335). -/
def execKvwalk (_lk : Link) (d a : Reg) (pd : BitVec 3) (pe : Bool) (s : State) : Host.Outcome State Fault Refusal :=
  finish s (poolWord s (poolForm 0#4 pd pe) d a 3 pd pe (fun x => some (.walk (arg x 1) (getAt x 2 0#32))))

/-- The operation of KVINV on its arguments: a bitmap of 16 bits. -/
def invOp (set : Bool) (x : List Word) : Option PoolOp :=
  if arg x 3 < 65536 then some (.inv set (arg x 1) (arg x 2) (BitVec.ofNat 16 (arg x 3))) else none

/-- KVINV.set (R336). -/
def execKvinvSet (_lk : Link) (d a : Reg) (pd : BitVec 3) (pe : Bool) (s : State) : Host.Outcome State Fault Refusal :=
  finish s (poolWord s (poolForm 0#4 pd pe) d a 4 pd pe (invOp true))

/-- KVINV.clr (R336). -/
def execKvinvClr (_lk : Link) (d a : Reg) (pd : BitVec 3) (pe : Bool) (s : State) : Host.Outcome State Fault Refusal :=
  finish s (poolWord s (poolForm 1#4 pd pe) d a 4 pd pe (invOp false))

/-- RSPAN (R337). -/
def execRspan (_lk : Link) (d a : Reg) (pd : BitVec 3) (pe : Bool) (s : State) : Host.Outcome State Fault Refusal :=
  finish s (poolWord s (poolForm 0#4 pd pe) d a 3 pd pe (fun x => if arg x 2 < 16 then some (.rspan (arg x 1) (arg x 2)) else none))

/-! ## KVNEW.pool, KVNEW.drop and KVFORK.cow -/

/-- The entry that KVNEW.pool fills, or the REASON of its failure (R331). -/
def State.poolEntry (s : State) (v : Nat) (w : List Word) : Except Word Nat :=
  let d := descPool w
  if !d.2.2.2 then .error 5#32
  else
    match (s.vf v).pickEntry d.2.2.1 with
    | none => .error 3#32
    | some t => if (s.tensor v t).state = 0 then .ok t else .error 5#32

/-- How many cycles KVNEW.pool takes (R331). -/
def Pool.makeTime (p : Pool) : Nat := 300 + (p.npages + p.nseq + 15) / 16

/-- KVNEW.pool of one run on its descriptor: a failure ends it at once; otherwise its entry is chosen now, and it is held until
the sweep has removed the lines of the generation that comes next. -/
def kvnewRun (s : State) (us : List Nat) (d : Reg) (pd : Option Nat) (w : List Word) : State :=
  let k := s.cur.core
  let v := s.vfOf k
  match s.poolEntry v w with
  | .error reason => s.onCore k (fun c => c.poolResults us d c.clock [noPage, reason] pd true)
  | .ok t =>
    let s1 := s.onCore k (fun c => c.updAll us (fun x => { x with busy := c.clock + (descPool w).1.makeTime }))
    if s.wrapWait v t then s1.onCore k (fun c => c.holdSlices (.make d pd w) t us) else s1.fillPool k v t us d pd w

/-- KVNEW.pool (R331). -/
def execKvnewPool (_lk : Link) (d a : Reg) (pd : BitVec 3) (pe : Bool) (s : State) : Host.Outcome State Fault Refusal :=
  let f := poolForm 1#4 pd pe
  let draw := s.cur.draw
  finish s ((checkForm f s).bind fun _ =>
    let c0 := s.core s.cur.core
    (operandCheck c0 s.active (fun u => c0.blockOk u d 3 && c0.blockOk u a 8) s.lowLane true).bind fun _ =>
    warpWordS f s [] [] (fun s1 act => match act with
      | [] => .ok s1
      | u :: _ =>
        let k := s1.cur.core
        let c := s1.core k
        (c.ownAll act d 3).map fun c1 => kvnewRun (s1.setCore k c1) act d (pdOf pd pe) (c.readBlock draw u a 8)))

/-- KVNEW.drop (R331): it waits at the home slices as TDROP does. -/
def execKvnewDrop (_lk : Link) (d a : Reg) (pd : BitVec 3) (pe : Bool) (s : State) : Host.Outcome State Fault Refusal :=
  let f := poolForm 2#4 pd pe
  let draw := s.cur.draw
  finish s ((checkForm f s).bind fun _ =>
    let c0 := s.core s.cur.core
    let v := s.vfOf s.cur.core
    (operandCheck c0 s.active (fun u => c0.blockOk u d 3 && c0.blockOk u a 1 && s.isPool v (c0.readReg draw u a)) s.lowLane true).bind fun _ =>
    warpWordS f s [] [] (fun s1 act => match act with
      | [] => .ok s1
      | u :: _ =>
        let k := s1.cur.core
        let t := ((s1.core k).readReg draw u a).toNat
        (forEach (fun u c => Core.ownBlock u d 3 c) act (s1.core k)).map (fun c =>
          let e := s1.tensor v t
          (((s1.setCore k c).setTensor v t { e with state := 2 }).markGone v t).onCore k (fun c => c.holdSlices (.pool d (pdOf pd pe)) t act))))

/-- Whether a thread is of its cluster's handler role (R354). -/
def State.handlerRole (s : State) (core u : Nat) : Bool :=
  match (s.cluster (clusterOf core)).handler, (s.core core).launch with
  | some h, some l => h.2 == l && ((s.core core).th u).role == 0
  | _, _ => false

/-- KVFORK.cow (R333). -/
def execKvforkCow (_lk : Link) (d : Reg) (pd : BitVec 3) (pe : Bool) (s : State) : Host.Outcome State Fault Refusal :=
  let f : Form := { (poolForm 1#4 pd pe) with legal := (pe || pd == 0#3) && s.cur.run.all (s.handlerRole s.cur.core) }
  finish s ((checkForm f s).bind fun _ =>
    let c0 := s.core s.cur.core
    (operandCheck c0 s.active (fun u => c0.blockOk u d 3) s.lowLane true).bind fun _ =>
    warpWordS f s [] [] (fun s1 act =>
      let k := s1.cur.core
      let cl := s1.cluster (clusterOf k)
      if act.isEmpty then .ok s1
      else
        match cl.copies with
        | [] => .waitAll
        | r :: rs =>
          let x := (s1.setCluster (clusterOf k) { cl with copies := rs }).serveCopy r
          ((x.1.core k).ownAll act d 3).map (fun c => x.1.setCore k (c.poolResults act d c.clock
            [w32 r.t, w32 r.s, match x.2 with | some n => n | none => noPage] (pdOf pd pe) false))))

end Sys2Proof.Machine
end

