-- ==== Sys2Proof/Machine/Tokens.lean ====
section
/-! DEFINITION. The die-to-die queues (R342 to R345), quotas (R338) and the grammar unit (R347 to R350). -/

namespace Sys2Proof.Machine

open Sys2Proof

/-! ## XQSEND and XQRECV (R343, R344) -/

/-- The die, the channel and the sequence number of a control value. -/
def xqDie (c : Word) : Nat := c.toNat % 4
def xqChannel (c : Word) : Nat := c.toNat / 4 % 2
def xqSeq (c : Word) : BitVec 16 := c.extractLsb' 16 16

/-- Whether a die is absent from DEVCAP (R4). -/
def State.dieAbsent (s : State) (d : Nat) : Bool := !(s.devcap.getLsbD (24 + d))

/-- Whether a die holds a quantum of the partition of a VF. -/
def State.dieOfPart (s : State) (v d : Nat) : Bool :=
  let part := s.partOfVf v
  part.isSome && (List.range 8).any (fun j => (s.quantum (8 * d + j)).part == part)

/-- A control value's checks beyond the die's presence. -/
def State.xqCtrlOk (s : State) (v : Nat) (c : Word) : Bool :=
  c.toNat / 8 % 2 ^ 13 == 0 && s.dieOfPart v (xqDie c)

/-- The form of the queue words: a die absent from DEVCAP, in the control register of the lowest active lane, is UNIT_ABSENT. -/
def State.xqForm (s : State) (sel : BitVec 4) (ctrl : Reg) : Form :=
  let c := s.core s.cur.core
  { sel := fun x => x == sel,
    absent := match s.active with
      | u :: _ => c.blockOk u ctrl 1 && s.dieAbsent (xqDie (c.readReg s.cur.draw u ctrl))
      | [] => false }

/-- Holds a run, its lowest active thread first. -/
def Core.holdRun (c : Core) (h : Hold) : List Nat → Core
  | [] => c
  | lead :: us => (us.foldl (fun c u => c.setHold u (.follow lead)) c).setHold lead h

/-- A queue word: its register checks, then its control's, then the hold of its run. -/
def xqWord (s : State) (f : Form) (ctrl blk : Reg) (write : Bool) (h : Core → Nat → Hold) : Res State :=
  let draw := s.cur.draw
  (checkForm f s).bind fun _ =>
  let c0 := s.core s.cur.core
  let v := s.vfOf s.cur.core
  (operandCheck c0 s.active (fun u => c0.blockOk u ctrl 1 && c0.blockOk u blk 16) s.lowLane true).bind fun _ =>
  warpWordS f s [] [] (fun s1 act => match act with
    | [] => .ok s1
    | u :: _ =>
      let k := s1.cur.core
      let c := s1.core k
      if !(s1.xqCtrlOk v (c.readReg draw u ctrl)) then .trap (trapAt .illegalOperand (c.th u).lane)
      else
        (if write then forEach (fun u c => Core.ownBlock u blk 16 c) act c else .ok c).map (fun c1 =>
          s1.setCore k (c1.holdRun (h c u) act)))

/-- XQSEND (R343). -/
def execXqsend (_lk : Link) (d a : Reg) (s : State) : Host.Outcome State Fault Refusal :=
  let draw := s.cur.draw
  finish s (xqWord s (s.xqForm 0#4 d) d a false (fun c u => .xqsend (c.readReg draw u d) (c.readBlock draw u a 16) s.cur.back))

/-- XQRECV (R344). -/
def execXqrecv (_lk : Link) (d a : Reg) (s : State) : Host.Outcome State Fault Refusal :=
  finish s (xqWord s (s.xqForm 0#4 a) a d true (fun c u => .xqrecv d (c.readReg s.cur.draw u a) none s.cur.place s.cur.back))

/-- XQRECV.draft (R344). -/
def execXqrecvDraft (_lk : Link) (d a : Reg) (s : State) : Host.Outcome State Fault Refusal :=
  let k := s.cur.core
  let meets (n : Nat) (w : Word) : Word := (s.sysNow k noUid n (w.setWidth 64)).setWidth 32
  let limits := (meets 0x02 (s.core k).vocab, meets 0x03 (s.core k).vocabpad)
  finish s (xqWord s (s.xqForm 1#4 a) a d true (fun c u => .xqrecv d (c.readReg s.cur.draw u a) (some limits) s.cur.place s.cur.back))

/-- The queue of a die for a source die and a channel. -/
def Die.queue (d : Die) (src ch : Nat) : List XqMsg := AMap.lookD d.xq (2 * src + ch) []

/-- Whether a queue has room for a message of a VF (R342). -/
def xqRoom (q : List XqMsg) (v : Nat) : Bool :=
  decide (q.length < 64) && decide ((q.filter (fun m => m.vf == v)).length < 16)

/-- The drafted tokens of a message up to the first that is out of range (R344, R345). -/
def draftLimit (vocab pad : Word) (ids : List Word) (n : Nat) : Nat :=
  let bound := bits vocab.toNat 19 0
  let lo := bits pad.toNat 19 0
  let len := bits pad.toNat 31 20
  let bad (w : Word) : Bool := decide (bound ≤ w.toNat) || (decide (lo ≤ w.toNat) && decide (w.toNat < lo + len))
  match firstIdx bad (ids.take n) 0 with
  | some k => k
  | none => n

/-- A message as XQRECV.draft writes it: LIMIT in word 1. -/
def draftWords (vocab pad : Word) (ws : List Word) : List Word :=
  let w1 := (getAt ws 1 0#32).toNat
  let n := min (w1 % 16) 8
  setAt ws 1 (BitVec.ofNat 32 (w1 - bits w1 11 8 * 256 + draftLimit vocab pad (ws.drop 2) n * 256))

/-- A held run goes on. -/
def Core.wakeRun (c : Core) (lead : Nat) : Core := (c.heldWith lead).foldl (fun (c : Core) u => c.setHold u .run) c

/-- XQSEND's message is enqueued, where its release and the queue's room allow. -/
def State.enqueue (s : State) (core lead : Nat) (ctrl : Word) (msg : List Word) : State :=
  let c := s.core core
  let v := s.vfOf core
  let i := 2 * dieOf core + xqChannel ctrl
  let d := s.die (xqDie ctrl)
  let q := AMap.lookD d.xq i []
  if (c.heldWith lead).all c.released && xqRoom q v then
    ((if xqDie ctrl = dieOf core then s else s.count v 0x0A 1).setDie (xqDie ctrl) { d with xq := AMap.put d.xq i (q ++ [⟨v, xqSeq ctrl, msg⟩]) }).setCore core (c.wakeRun lead)
  else s

/-- XQRECV takes the oldest message of its VF, or raises XQ_SEQUENCE. -/
def State.take (s : State) (draw core lead : Nat) (dst : Reg) (ctrl : Word) (draft : Option (Word × Word)) (w : WordAt) : State :=
  let c := s.core core
  let v := s.vfOf core
  let i := 2 * xqDie ctrl + xqChannel ctrl
  let d := s.die (dieOf core)
  match pluck (fun m => m.vf == v) (AMap.lookD d.xq i []) with
  | none => s
  | some (m, rest) =>
    let us := sortBy (fun u => (c.th u).lane) (c.heldWith lead)
    if m.seqno ≠ xqSeq ctrl then
      s.raiseAt draw core us w ⟨.xqSequence, (c.th lead).lane, m.seqno ++ xqSeq ctrl, none⟩
    else
      let ws := match draft with | some l => draftWords l.1 l.2 m.words | none => m.words
      let c1 := us.foldl (fun (c : Core) u => c.writeDoneAll u dst c.clock ws) c
      (s.setDie (dieOf core) { d with xq := AMap.put d.xq i rest }).setCore core (c1.wakeRun lead).acquire

/-- MESSAGE_ENQUEUED (R343, R344): an XQSEND that waits completes, or an XQRECV that waits takes a message. -/
def execMessageEnqueued (core uid : Nat) (s : State) : Host.Outcome State Fault Refusal :=
  if s.tearing core || s.stopped core then .next s
  else
  match (s.core core).holdOf uid with
  | .xqsend ctrl msg _ => .next (s.enqueue core uid ctrl msg)
  | .xqrecv dst ctrl draft w _ => .next (s.take s.cur.draw core uid dst ctrl draft w)
  | _ => .next s

/-! ## KVQUOTA (R328, R338) -/

/-- Whether every thread of the run, or the front-end thread, runs at PL1 (R353). -/
def State.atPl1 (s : State) : Bool :=
  let c := s.core s.cur.core
  if s.cur.fe then (match c.fe with | some f => f.pl | none => false) else s.cur.run.all (fun u => (c.th u).pl)

/-- A quota register's value. -/
def State.quotaReg (s : State) (v tier reg : Nat) : Nat :=
  let x := s.vf v
  match reg with
  | 0 => x.quotaIn tier
  | 1 => x.borrowIn tier
  | 2 => x.usedIn tier
  | _ => s.lowMark v tier

/-- Writes a quota register: USED is read-only, LOWMARK is the partition's. `own` is the executing thread's VF. -/
def State.setQuota (s : State) (own v tier reg n : Nat) : State :=
  let x := s.vf v
  match reg with
  | 0 => s.setVf v { x with quota := AMap.put x.quota tier n }
  | 1 => s.setVf v { x with borrow := AMap.put x.borrow tier n }
  | 2 => s
  | _ =>
    match s.partOfVf own with
    | some part => (match AMap.look s.parts part with
      | some p => s.setPart part { p with lowmark := AMap.put p.lowmark tier n }
      | none => s)
    | none => s

/-- KVQUOTA: the selector of the lowest active lane. It completes 40 cycles after its issue, and a write takes effect then. -/
def quotaWord (s : State) (d a : Reg) (wr : Bool) : Res State :=
  let draw := s.cur.draw
  let f : Form := { legal := s.atPl1, sel := fun x => x == (if wr then 1#4 else 0#4) }
  (checkForm f s).bind fun _ =>
  let c0 := s.core s.cur.core
  (operandCheck c0 s.active (fun u => c0.blockOk u d 1 && c0.blockOk u a 1) s.lowLane true).bind fun _ =>
  warpWordS f s [] [] (fun s1 act => match act with
    | [] => .ok s1
    | u :: _ =>
      let k := s1.cur.core
      let c := s1.core k
      let own := s1.vfOf k
      let x := (c.readReg draw u a).toNat
      let v := x % 64
      let tier := x / 64 % 2
      let reg := x / 256 % 4
      let outside := !(s1.partOfVf v == s1.partOfVf own) && !(wr && reg == 3)
      if x / 128 % 2 ≠ 0 ∨ 1024 ≤ x ∨ outside then .trap (trapAt .illegalOperand (c.th u).lane)
      else if wr then
        .ok (s1.setCore k (c.holdRun (.later (c.clock + 40) (.quota own v tier reg (c.readReg draw u d).toNat)) act))
      else
        (c.timed act 40 (fun done => c.slowResults act d done (fun _ => w32 (s1.quotaReg v tier reg)))).map (fun c1 => s1.setCore k c1))

/-- KVQUOTA.rd (R338). -/
def execKvquotaRd (_lk : Link) (d a : Reg) (s : State) : Host.Outcome State Fault Refusal := finish s (quotaWord s d a false)

/-- KVQUOTA.wr (R338). -/
def execKvquotaWr (_lk : Link) (d a : Reg) (s : State) : Host.Outcome State Fault Refusal := finish s (quotaWord s d a true)

/-! ## Reading a grammar table (R347) -/

/-- A read through the VF's page tables and the home slices: bytes, a translation fault, or a poisoned sector. -/
inductive FlatRead where
  | ok (s : State) (bs : List Byte)
  | fault (s : State) (va : Nat)
  | poison (s : State)

/-- Goes on from the bytes read. -/
def FlatRead.bind (r : FlatRead) (f : State → List Byte → FlatRead) : FlatRead :=
  match r with
  | .ok s bs => f s bs
  | r => r

/-- Reads bytes under the VF's flat keys. -/
def State.readFlat (s : State) (v va : Nat) : Nat → FlatRead
  | 0 => .ok s []
  | n + 1 =>
    let line := va / 64 * 64
    match s.walk v line false with
    | .fault _ => .fault s va
    | .ok pa =>
      let x := s.homeRead (flatKey v line) line [pa] (va % 64) 1
      if x.2.2 then .poison x.1
      else (State.readFlat x.1 v (va + 1) n).bind (fun s1 bs => .ok s1 (x.2.1 ++ bs))

/-! ## The grammar unit (R347 to R349) -/

/-- A slot as a table's header gives it; none where the header is invalid. -/
def slotOfHeader (v va : Nat) (bs : List Byte) : Option GrammarSlot :=
  let x (i : Nat) : Nat := leNat ((bs.drop (4 * i)).take 4)
  let g : GrammarSlot := ⟨v, va, x 0, x 1, x 2, x 3, x 4, x 5⟩
  let fits (lo hi n : Nat) : Bool := decide (lo ≤ n) && decide (n ≤ hi)
  if fits 1 65536 g.nstates && fits 1 16384 g.nsym && fits 1 65536 g.nclass && fits 1 (2 ^ 20) g.ntok &&
      g.classmap % 64 == 0 && g.trans % 64 == 0 && (List.range 10).all (fun i => x (6 + i) == 0) &&
      decide (g.classmap + 2 * g.ntok < 2 ^ 32) && decide (g.trans + 4 * (g.nstates * g.nsym * g.nclass) < 2 ^ 32) then some g
  else none

/-- A state block's fields. -/
def blkState (b : List Word) : Nat := arg b 0 % 65536
def blkDepth (b : List Word) : Nat := arg b 0 / 65536 % 16
def blkSlot (b : List Word) : Nat := arg b 0 / 2 ^ 28

/-- Stack entry `i` of a block. -/
def blkEntry (b : List Word) (i : Nat) : Nat := arg b (1 + i / 2) / 2 ^ (16 * (i % 2)) % 2 ^ 14

/-- The symbol on top of a block's stack; 0 marks the empty stack. -/
def blkTop (b : List Word) : Nat := if blkDepth b = 0 then 0 else blkEntry b (blkDepth b - 1)

/-- A block with a stack entry set. -/
def blkSet (b : List Word) (i v : Nat) : List Word :=
  let w := arg b (1 + i / 2)
  let sh := 2 ^ (16 * (i % 2))
  setAt b (1 + i / 2) (w32 (w - w / sh % 2 ^ 14 * sh + v * sh))

/-- A block with its state and depth set. -/
def blkGo (b : List Word) (state depth : Nat) : List Word := setAt b 0 (w32 (blkSlot b * 2 ^ 28 + depth * 65536 + state))

/-- The slot that a block names, bound to the VF; none where the block is not a legal one (R347). -/
def Die.blkOk (d : Die) (v : Nat) (b : List Word) : Option GrammarSlot :=
  match AMap.look d.grammar (blkSlot b) with
  | none => none
  | some g =>
    let stack := (List.range 4).all (fun i => let w := arg b (1 + i)
      w / 2 ^ 14 % 4 == 0 && w / 2 ^ 30 == 0)
    if g.vf = v ∧ arg b 0 / 2 ^ 20 % 256 = 0 ∧ stack ∧ blkState b < g.nstates ∧ blkDepth b ≤ 8 then some g else none

/-- An action word of a table: NEXT, OP, PUSHSYM. -/
structure Action where
  next : Nat
  op : Nat
  sym : Nat
  deriving DecidableEq, Repr

/-- The action of a token in a state with a stack top (R347): none where a read faults or the token is beyond NTOK. -/
def State.action (s : State) (g : GrammarSlot) (q y tok : Nat) (f : State → Action → FlatRead) : FlatRead :=
  (s.readFlat g.vf (g.va + g.classmap + 2 * tok) 2).bind fun s1 cs =>
    (s1.readFlat g.vf (g.va + g.trans + 4 * ((q * g.nsym + y) * g.nclass + leNat cs)) 4).bind fun s2 bs =>
      let x := leNat bs
      f s2 ⟨x % 65536, x / 65536 % 4, x / 2 ^ 18⟩

/-- allowed(q, y, tok) for an action (R348). -/
def Action.allowed (a : Action) (g : GrammarSlot) (depth : Nat) : Bool :=
  !(a.op == 3) && decide (a.next < g.nstates) && !(a.op == 2 && depth == 0) && !(a.op == 1 && a.sym == 0)

/-- A block after an allowed action; none where it would push at depth 8. -/
def Action.apply (a : Action) (b : List Word) : Option (List Word) :=
  let d := blkDepth b
  match a.op with
  | 1 => if d = 8 then none else some (blkGo (blkSet b d a.sym) a.next (d + 1))
  | 2 => some (blkGo b a.next (d - 1))
  | _ => some (blkGo b a.next d)

/-- What a grammar word comes to: results by thread with the predicate of each, a wait on a translation, or a trap. -/
inductive GOut where
  | done (s : State) (res : List (Nat × List Word × Option Bool))
  | fault (s : State) (va : Nat)
  | trap (s : State) (c : Cause) (lane : Option Nat)

/-- One lane of GSTEP. -/
inductive StepLane where
  | ok (s : State) (block : List Word) (reject : Bool)
  | full (s : State)
  | fault (s : State) (va : Nat)
  | poison (s : State)

/-- GSTEP in one lane (R348). -/
def State.stepLane (s : State) (g : GrammarSlot) (tok : Nat) (b : List Word) : StepLane :=
  if g.ntok ≤ tok then .ok s b true
  else
    match s.action g (blkState b) (blkTop b) tok (fun s2 a => .ok s2 [BitVec.ofNat 8 (a.next % 256), BitVec.ofNat 8 (a.next / 256),
        BitVec.ofNat 8 a.op, BitVec.ofNat 8 (a.sym % 256), BitVec.ofNat 8 (a.sym / 256)]) with
    | .fault s1 va => .fault s1 va
    | .poison s1 => .poison s1
    | .ok s1 bs =>
      let a : Action := ⟨leNat (bs.take 2), leNat ((bs.drop 2).take 1), leNat (bs.drop 3)⟩
      if !(a.allowed g (blkDepth b)) then .ok s1 b true
      else
        match a.apply b with
        | none => .full s1
        | some b1 => .ok s1 b1 false

/-- GSTEP over its lanes. -/
def State.stepLanes (core : Nat) : List (Nat × Word × List Word) → State → GOut
  | [], s => .done s []
  | (u, tok, b) :: ls, s =>
    match (s.die (dieOf core)).blkOk (s.vfOf core) b with
    | none => .trap s .illegalOperand (some ((s.core core).th u).lane)
    | some g =>
      match s.stepLane g tok.toNat b with
      | .full s1 => .trap s1 .grammarStack (some ((s.core core).th u).lane)
      | .fault s1 va => .fault s1 va
      | .poison s1 => .trap s1 .bounds none
      | .ok s1 b1 rej =>
        match State.stepLanes core ls s1 with
        | .done s2 rs => .done s2 ((u, b1, some rej) :: rs)
        | r => r

/-- The allowed tokens from a number on, as a list of 0 and 1 bytes: no depth is consulted, and stack top 0 is the empty stack
(R349, log 108). -/
def State.allowedFrom (g : GrammarSlot) (b : List Word) (tok : Nat) : Nat → State → FlatRead
  | 0, s => .ok s []
  | n + 1, s =>
    (s.action g (blkState b) (blkTop b) tok (fun s1 a =>
      .ok s1 [if a.allowed g (blkTop b) then 1#8 else 0#8])).bind (fun s1 x =>
        (State.allowedFrom g b (tok + 1) n s1).bind (fun s2 xs => .ok s2 (x ++ xs)))

/-- The bits of a chunk from its tokens. -/
def chunkBits (ok : List Byte) : BitVec 512 :=
  (List.range ok.length).foldl (fun m i => if getAt ok i 0#8 = 1#8 then m ||| (1#512 <<< i) else m) 0#512

/-- A cache with a key's value moved or put to its front; it keeps `n` entries, the least recently used one replaced (R350). -/
def toFront {α : Type} (n : Nat) (k : MaskKey) (v : α) (l : List (MaskKey × α)) : List (MaskKey × α) :=
  ((k, v) :: l.filter (fun x => !(x.1 == k))).take n

/-- What a cache holds for a key. -/
def cached {α : Type} (k : MaskKey) (l : List (MaskKey × α)) : Option α := (l.find? (fun x => x.1 == k)).map (fun x => x.2)

/-- The allowed tokens of a chunk, from the cache or from the table, as 64 bytes. -/
def State.maskChunk (s : State) (core : Nat) (g : GrammarSlot) (b : List Word) (chunk : Nat) : FlatRead :=
  let i := dieOf core
  let k : MaskKey := ⟨g.vf, blkSlot b, blkState b, blkTop b, chunk⟩
  let keep (s : State) (m : BitVec 512) : FlatRead :=
    .ok (s.setDie i { (s.die i) with chunks := toFront 4096 k m (s.die i).chunks }) (leBytes m.toNat 64)
  match cached k (s.die i).chunks with
  | some m => keep s m
  | none => (State.allowedFrom g b (512 * chunk) (min 512 (g.ntok - 512 * chunk)) s).bind (fun s1 ok => keep s1 (chunkBits ok))

/-- The number of allowed tokens and the lowest, from the cache or from the table, as 8 bytes. -/
def State.maskSum (s : State) (core : Nat) (g : GrammarSlot) (b : List Word) : FlatRead :=
  let i := dieOf core
  let k : MaskKey := ⟨g.vf, blkSlot b, blkState b, blkTop b, 0⟩
  let keep (s : State) (x : Word × Word) : FlatRead :=
    .ok (s.setDie i { (s.die i) with sums := toFront 1024 k x (s.die i).sums }) (leBytes x.1.toNat 4 ++ leBytes x.2.toNat 4)
  match cached k (s.die i).sums with
  | some x => keep s x
  | none => (State.allowedFrom g b 0 g.ntok s).bind (fun s1 ok =>
      keep s1 (w32 (ok.filter (fun x => x == 1#8)).length, match firstIdx (fun x => x == 1#8) ok 0 with | some n => w32 n | none => noPage))

/-- GMASK's results in a lane: the mask of its 32 tokens, the count, the lowest (R349). -/
def maskWords (chunk sum : List Byte) (lane : Nat) : List Word :=
  [w32 (leNat ((chunk.drop (4 * (lane % 16))).take 4)), w32 (leNat (sum.take 4)), w32 (leNat (sum.drop 4))]

/-- A die's caches without the masks of a slot of a VF (R347). -/
def Die.forgetMasks (d : Die) (v slot : Nat) : Die :=
  { d with chunks := d.chunks.filter (fun x => !(x.1.vf == v && x.1.slot == slot)),
           sums := d.sums.filter (fun x => !(x.1.vf == v && x.1.slot == slot)) }

/-- GSTEP.bind (R347). -/
def State.bindSlot (s : State) (core slot va : Nat) : FlatRead :=
  let v := s.vfOf core
  let d := s.die (dieOf core)
  let answer (s1 : State) (n : Nat) : FlatRead := .ok s1 [BitVec.ofNat 8 n]
  match AMap.look d.grammar slot with
  | some g => if g.vf ≠ v then answer s 2 else bind1 s v d answer
  | none => bind1 s v d answer
where
  bind1 (s : State) (v : Nat) (d : Die) (answer : State → Nat → FlatRead) : FlatRead :=
    if va = 0 then answer (s.setDie (dieOf core) { (d.forgetMasks v slot) with grammar := AMap.del d.grammar slot }) 0
    else
      (s.readFlat v va 64).bind fun s1 bs =>
        match slotOfHeader v va bs with
        | none => answer s1 1
        | some g =>
          let d1 := s1.die (dieOf core)
          answer (s1.setDie (dieOf core) { (d1.forgetMasks v slot) with grammar := AMap.put d1.grammar slot g }) 0

/-- A grammar word on the operands it read. -/
def State.grammar (s : State) (core : Nat) (us : List Nat) : GrammarWord → GOut
  | .bind _ _ slot va =>
    match s.bindSlot core slot va with
    | .ok s1 bs => .done s1 (us.map (fun u => (u, [w32 (leNat bs)], none)))
    | .fault s1 va => .fault s1 va
    | .poison s1 => .trap s1 .bounds none
  | .step _ _ lanes =>
    (match lanes.find? (fun x => ((s.die (dieOf core)).blkOk (s.vfOf core) x.2.2).isNone) with
    | some x => .trap s .illegalOperand (some ((s.core core).th x.1).lane)
    | none => State.stepLanes core lanes s)
  | .mask _ _ b chunk =>
    match (s.die (dieOf core)).blkOk (s.vfOf core) b with
    | none => .trap s .illegalOperand (us.head?.map (fun u => ((s.core core).th u).lane))
    | some g =>
      match s.maskChunk core g b chunk.toNat with
      | .fault s1 va => .fault s1 va
      | .poison s1 => .trap s1 .bounds none
      | .ok s1 m =>
        match s1.maskSum core g b with
        | .fault s2 va => .fault s2 va
        | .poison s2 => .trap s2 .bounds none
        | .ok s2 x =>
          .done s2 (us.map (fun u =>
            let ws := maskWords m x ((s.core core).th u).lane
            (u, ws, some (getAt ws 1 0#32 == 1#32))))

/-- The destination and the predicate of a grammar word. -/
def GrammarWord.dst : GrammarWord → Reg × Option Nat
  | .bind d p _ _ => (d, p)
  | .step d p _ => (d, p)
  | .mask d p _ _ => (d, p)

/-- Writes a grammar word's results. -/
def Core.grammarResults (c : Core) (w : GrammarWord) (res : List (Nat × List Word × Option Bool)) : Core :=
  res.foldl (fun (c : Core) r =>
    match r.2.2 with
    | some b => c.poolResult r.1 w.dst.1 c.clock r.2.1 w.dst.2 b
    | none => c.writeDoneAll r.1 w.dst.1 c.clock r.2.1) c

/-- The number under which a grammar word waits that found no entry free: it tries again when one falls free. -/
def noEntry : Nat := 256

/-- A grammar word that waited tries again: results, another wait, or its trap. -/
def State.retryGrammar (s : State) (draw core lead : Nat) (w : GrammarWord) (place : WordAt) : State :=
  let c := s.core core
  let us := sortBy (fun u => (c.th u).lane) (c.heldWith lead)
  match s.grammar core us w with
  | .done s1 res => s1.onCore core (fun c => (c.grammarResults w res).wakeRun lead)
  | .fault s1 va =>
    (match s1.openX (clusterOf core) (s1.vfOf core) va false false with
    | some (s2, e) => s2.onCore core (fun c => c.setHold lead (.grammar w e place))
    | none => s1.onCore core (fun c => c.setHold lead (.grammar w noEntry place)))
  | .trap s1 cause lane =>
    s1.raiseAt draw core us place (trapAt cause (match lane with | some l => l | none => (c.th lead).lane))

/-- The threads that wait on an entry with a grammar word. -/
def State.grammarWaiters (s : State) (cl e : Nat) : List (Nat × Nat × GrammarWord × WordAt) :=
  (List.range 4).flatMap (fun i => (s.core (4 * cl + i)).threads.filterMap (fun p => match p.2.hold with
    | .grammar w n place => if n = e then some (4 * cl + i, p.1, w, place) else none
    | _ => none))

/-- A resolve, with the grammar words that waited (R179, R347). -/
def State.resolveAll (s : State) (draw cl e : Nat) : State :=
  let ws := s.grammarWaiters cl e ++ s.grammarWaiters cl noEntry
  ws.foldl (fun s x => s.retryGrammar draw x.1 x.2.1 x.2.2.1 x.2.2.2) (s.resolveX cl e)

/-- An abort's effect on the grammar words that waited: BOUNDS for each run (R347). -/
def State.abortGrammar (s : State) (draw cl e : Nat) : State :=
  (s.grammarWaiters cl e).foldl (fun s x =>
    let c := s.core x.1
    s.raiseAt draw x.1 (sortBy (fun u => (c.th u).lane) (c.heldWith x.2.1)) x.2.2.2 (trapAt .bounds (c.th x.2.1).lane)) s

/-- A grammar word at issue: with its table read, or held on a translation. -/
def State.issueGrammar (s : State) (act : List Nat) (w : GrammarWord) : Res State :=
  let core := s.cur.core
  match s.grammar core act w with
  | .done s1 res => .ok (s1.onCore core (fun c => c.grammarResults w res))
  | .fault s1 va =>
    (match s1.openX (clusterOf core) (s1.vfOf core) va false false with
    | some (s2, e) => .ok (s2.onCore core (fun c => c.holdRun (.grammar w e s.cur.place) act))
    | none => .waitAll)
  | .trap _ cause lane => .trap (trapAt cause (match lane with | some l => l | none => s.lowLane))

/-- The form of the grammar words: absent with the unit, or where FUNCMODE gives masks to the host (R347, R394). -/
def State.grammarForm (s : State) (sel : BitVec 4) (pd : BitVec 3) (pe : Bool) : Form :=
  let core := s.cur.core
  { (poolForm sel pd pe) with absent := !(s.devcap.getLsbD (8 + dieOf core)) || s.funcBit (s.vfOf core) 3 }

/-- A grammar word: register blocks of `nd` results and `na` operands. -/
def grammarWord (s : State) (f : Form) (d a : Reg) (nd na : Nat) (w : Core → List Nat → Res GrammarWord) : Res State :=
  (checkForm f s).bind fun _ =>
  let c0 := s.core s.cur.core
  (operandCheck c0 s.active (fun u => c0.blockOk u d nd && c0.blockOk u a na) s.lowLane true).bind fun _ =>
  warpWordS f s [] [] (fun s1 act =>
    let k := s1.cur.core
    if act.isEmpty then .ok s1
    else
      (w (s1.core k) act).bind fun x =>
      (forEach (fun u c => Core.ownBlock u d nd c) act (s1.core k)).bind fun c => (s1.setCore k c).issueGrammar act x)

/-- GSTEP (R348). -/
def execGstep (_lk : Link) (d a : Reg) (pd : BitVec 3) (pe : Bool) (s : State) : Host.Outcome State Fault Refusal :=
  let draw := s.cur.draw
  finish s (grammarWord s (s.grammarForm 0#4 pd pe) d a 5 1 (fun c act =>
    .ok (.step d (pdOf pd pe) (act.map (fun u => (u, c.readReg draw u a, c.readBlock draw u d 5))))))

/-- GSTEP.bind (R347). -/
def execGstepBind (_lk : Link) (d a : Reg) (pd : BitVec 3) (pe : Bool) (s : State) : Host.Outcome State Fault Refusal :=
  let draw := s.cur.draw
  finish s (grammarWord s (s.grammarForm 1#4 pd pe) d a 1 3 (fun c act =>
    let x := c.readBlock draw (act.headD 0) a 3
    if 16 ≤ arg x 0 then .trap (trapAt .illegalOperand (c.th (act.headD 0)).lane)
    else .ok (.bind d (pdOf pd pe) (arg x 0) (arg x 1 + arg x 2 % 2 ^ 20 * 2 ^ 32))))

/-- GMASK (R349). -/
def execGmask (_lk : Link) (d a : Reg) (pd : BitVec 3) (pe : Bool) (s : State) : Host.Outcome State Fault Refusal :=
  let draw := s.cur.draw
  finish s (grammarWord s (s.grammarForm 0#4 pd pe) d a 3 6 (fun c act =>
    let x := c.readBlock draw (act.headD 0) a 6
    .ok (.mask d (pdOf pd pe) (x.take 5) (getAt x 5 0#32))))

end Sys2Proof.Machine
end

