-- ==== Sys2Proof/Machine/Graph.lean ====
section
/-! DEFINITION. Task graphs (R89 to R100): images and their checks, loading, triggers, patch lists, and the end of a node and
of a run. -/

namespace Sys2Proof.Machine

open Sys2Proof

/-- The `n` bytes at an offset, as a number. -/
def fld (bs : List Byte) (o n : Nat) : Nat := leNat ((bs.drop o).take n)

/-! ## Launch headers (R89, R90, R93) -/

/-- A role word: warps, rows, entry; none where it breaks R89. -/
def roleOf (codeLen x : Nat) : Option (Nat × Nat × Nat) :=
  let warps := bits x 47 40
  let rows := bits x 35 32
  let entry := bits x 31 0
  if bits x 63 48 = 0 ∧ bits x 39 36 = 0 ∧ 1 ≤ warps ∧ 1 ≤ rows ∧ rows ≤ 13 ∧ entry < codeLen then some (warps, rows, entry) else none

/-- The warps of a core in age order, as role and row allotment (R61, R92). -/
def warpList : Nat → List (Nat × Nat × Nat) → List (Nat × Nat)
  | _, [] => []
  | k, r :: rs => List.replicate r.1 (k, r.2.1) ++ warpList (k + 1) rs

/-- The elements of a list whose place is `g` modulo `n`, from place `i` on. -/
def everyNth {α : Type} (n g : Nat) : Nat → List α → List α
  | _, [] => []
  | i, x :: xs => if i % n = g then x :: everyNth n g (i + 1) xs else everyNth n g (i + 1) xs

/-- Whether the warps of a core fit its slices (R93). -/
def warpsFit (width : Nat) (roles : List (Nat × Nat × Nat)) : Bool :=
  let n := 64 / width
  (List.range n).all (fun g =>
    let ws := everyNth n g 0 (warpList 0 roles)
    decide (ws.length ≤ 32) && decide (ws.foldl (fun m w => m + 4 * w.2) 0 ≤ 1024))

/-- Cores of an instance (R89). -/
def Header.cores (h : Header) : Nat := 2 ^ h.shape

/-- A launch header as its 128 bytes give it; none where it is invalid (R90). -/
def parseHeader (bs : List Byte) : Option Header :=
  let ctrl := fld bs 0x1C 4
  let nr := bits ctrl 5 4 + 1
  let codeLen := fld bs 0x08 4
  let words := (List.range 4).map (fun k => fld bs (0x28 + 8 * k) 8)
  let roles := (words.take nr).filterMap (roleOf codeLen)
  let h : Header :=
    { codeBase := fld bs 0 8, codeLen := codeLen, feEntry := fld bs 0x0C 4, feBase := fld bs 0x10 8, feLen := fld bs 0x18 4,
      ftrap := BitVec.ofNat 3 (bits ctrl 27 25), scratchKiB := bits ctrl 24 16, deadline := bits ctrl 15 8,
      level := bits ctrl 7 6, nroles := nr, shape := bits ctrl 3 2, width := 16 * 2 ^ bits ctrl 1 0,
      instances := fld bs 0x20 4, roles := roles }
  let entryOk : Bool := if h.feLen = 0 then h.feEntry == 0 else decide (h.feEntry < h.feLen)
  if h.codeBase % 64 == 0 && decide (h.codeBase < 2 ^ 52) && decide (1 ≤ codeLen) && decide (codeLen ≤ 2 ^ 24) && entryOk &&
      h.feBase % 64 == 0 && decide (h.feBase < 2 ^ 52) && decide (h.feLen ≤ 2 ^ 24) && bits ctrl 31 28 == 0 &&
      decide (h.scratchKiB ≤ 256) && decide (1 ≤ h.deadline) && decide (h.shape < 3) && decide (bits ctrl 1 0 < 3) &&
      decide (1 ≤ h.instances) && decide (h.instances ≤ 524288 / h.cores) && fld bs 0x24 4 == 0 && fld bs 0x48 56 == 0 &&
      roles.length == nr && (words.drop nr).all (fun w => w == 0) && warpsFit h.width roles then some h
  else none

/-! ## Graph images (R94, R95) -/

/-- A node record as read, before its checks. -/
structure NodeRecord where
  hdr : Option Header
  npred : Nat
  nsucc : Nat
  succ : List Nat
  params : List DWord
  deriving DecidableEq, Repr

/-- A node record's 512 bytes. -/
def parseNode (bs : List Byte) : NodeRecord where
  hdr := parseHeader (bs.take 128)
  npred := fld bs 0x80 2
  nsucc := fld bs 0x82 2
  succ := (List.range 48).map (fun k => fld bs (0x84 + 2 * k) 2)
  params := (List.range 32).map (fun k => BitVec.ofNat 64 (fld bs (0x100 + 8 * k) 8))

/-- The successors that a record names. -/
def NodeRecord.named (r : NodeRecord) : List Nat := r.succ.take r.nsucc

/-- The nodes that can be reached from a list of nodes in `n` steps. -/
def reach (succ : Nat → List Nat) : Nat → List Nat → List Nat
  | 0, seen => seen
  | n + 1, seen => reach succ n (dedup (seen ++ seen.flatMap succ))

/-- Whether a node of an image fails (R95); one whose NSUCC is beyond the 48 entries of SUCC fails too (log 111). -/
def nodeFails (rs : List NodeRecord) (i : Nat) : Bool :=
  match rs.drop i with
  | [] => true
  | r :: _ =>
    let succ (j : Nat) : List Nat := match rs.drop j with
      | x :: _ => x.named
      | [] => []
    r.hdr.isNone || decide (48 < r.nsucc) || (r.succ.drop r.nsucc).any (fun x => !(x == 0)) ||
      r.named.any (fun x => decide (rs.length ≤ x)) || !((rs.flatMap NodeRecord.named).filter (fun x => x == i)).length == r.npred ||
      (reach succ rs.length (succ i)).contains i

/-- A node of a valid image. -/
def NodeRecord.node (r : NodeRecord) : Option Node := r.hdr.map (fun h => ⟨h, r.npred, r.named, r.params⟩)

/-- What reading an image comes to: its nodes, or the value of NODE (R95). -/
def imageNodes (bs : List Byte) (n : Nat) : List Node ⊕ Nat :=
  let rs := (List.range n).map (fun i => parseNode ((bs.drop (512 * i)).take 512))
  match lowest (nodeFails rs) n 0 with
  | some i => .inr i
  | none => .inl (rs.filterMap NodeRecord.node)

/-- Reads and checks an image through the VF's page tables and the home slices; a fault or a poisoned sector is 0xFFFF, an
invalid image header 0xFFFE. -/
def State.readImage (s : State) (v va : Nat) : State × (List Node ⊕ Nat) :=
  match s.readFlat v va 64 with
  | .fault s1 _ => (s1, .inr 0xFFFF)
  | .poison s1 => (s1, .inr 0xFFFF)
  | .ok s1 hd =>
    let n := fld hd 0 4
    if n = 0 ∨ 4096 < n ∨ fld hd 4 60 ≠ 0 then (s1, .inr 0xFFFE)
    else
      match s1.readFlat v (va + 64) (512 * n) with
      | .fault s2 _ => (s2, .inr 0xFFFF)
      | .poison s2 => (s2, .inr 0xFFFF)
      | .ok s2 bs => (s2, imageNodes bs n)

/-! ## Graph slots (R95 to R100) -/

/-- A graph slot of a VF. -/
def State.gslot (s : State) (v n : Nat) : GraphSlot := AMap.lookD (s.vf v).slots n GraphSlot.reset

/-- Replaces a graph slot. -/
def State.setGslot (s : State) (v n : Nat) (x : GraphSlot) : State :=
  let f := s.vf v
  s.setVf v { f with slots := AMap.put f.slots n x }

/-- GRAPHSTAT of a slot (R100). -/
def GraphSlot.stat (x : GraphSlot) : DWord :=
  BitVec.ofNat 64 (x.errNode * 2 ^ 48 + x.err * 2 ^ 44 + x.state * 2 ^ 42 + x.triggers.length * 2 ^ 39 +
    (if x.loading.isSome then 2 ^ 38 else 0) + x.doneCount.toNat)

/-- Whether a load or unload of a slot is refused (R95). -/
def GraphSlot.busy (x : GraphSlot) : Bool := x.loading.isSome || x.state == 2 || !x.triggers.isEmpty

/-- A write of the host's to a register of a BAR: it has no effect while the BARs are closed (R405). -/
def State.atBar (s : State) (t : State) : State := if s.boot = .running then t else s

/-- A load of a slot (R95): bits [51:6] of the value are the image's address. -/
def State.graphLoad (s : State) (vf slot : Nat) (va : DWord) : State :=
  let x := s.gslot vf slot
  s.setGslot vf slot (if x.busy then { x with err := 5 } else { x with loading := some (bits va.toNat 51 6 * 64) })

/-- An unload of a slot (R95). -/
def State.graphUnload (s : State) (vf slot : Nat) : State :=
  let x := s.gslot vf slot
  s.setGslot vf slot (if x.busy then { x with err := 5 } else { x with state := 0, nodes := [] })

/-- GRAPHLOAD_LOAD (R95). -/
def execGraphloadLoad (vf slot : Nat) (va : BitVec 64) (s : State) : Host.Outcome State Fault Refusal :=
  .next (s.atBar (s.graphLoad vf slot va))

/-- GRAPHLOAD_UNLOAD (R95). -/
def execGraphloadUnload (vf slot : Nat) (s : State) : Host.Outcome State Fault Refusal :=
  .next (s.atBar (s.graphUnload vf slot))

/-- GRAPH_LOAD_COMPLETE (R95). -/
def execGraphLoadComplete (vf slot : Nat) (s : State) : Host.Outcome State Fault Refusal :=
  match (s.gslot vf slot).loading with
  | none => .next s
  | some va =>
    let r := s.readImage vf va
    let x := r.1.gslot vf slot
    .next (r.1.setGslot vf slot (match r.2 with
      | .inl ns => { x with loading := none, state := 1, nodes := ns }
      | .inr n => { x with loading := none, state := 0, nodes := [], err := 1, errNode := n }))

/-- A trigger of a slot (R96): one to an empty, stopped or loading slot is discarded. -/
def State.trigger (s : State) (v slot patch : Nat) : State :=
  let x := s.gslot v slot
  if x.loading.isSome ∨ x.state = 0 ∨ x.state = 3 then s
  else if 4 ≤ x.triggers.length then s.setGslot v slot { x with err := 4 }
  else s.setGslot v slot { x with triggers := x.triggers ++ [patch] }

/-- PATCHVA and SLOT of a TRIGGER value (R96). -/
def trigPatch (v : BitVec 64) : Nat := bits v.toNat 51 6 * 64
def trigSlot (v : BitVec 64) : Nat := bits v.toNat 5 2

/-- TRIGGER_WRITE (R96): a write of the host's. -/
def execTriggerWrite (vf slot : Nat) (patch : BitVec 64) (s : State) : Host.Outcome State Fault Refusal :=
  .next (s.atBar (s.trigger vf slot (trigPatch patch)))

/-- A write to GRAPHSTAT (R100): a nonzero ERR clears ERR and NODE, and a stopped slot is loaded again. -/
def State.graphStat (s : State) (vf slot : Nat) (v : DWord) : State :=
  let x := s.gslot vf slot
  if bits v.toNat 47 44 = 0 then s
  else s.setGslot vf slot { x with err := 0, errNode := 0, state := if x.state = 3 then 1 else x.state }

/-- GRAPHSTAT_WRITE (R100). -/
def execGraphstatWrite (vf slot : Nat) (v : BitVec 64) (s : State) : Host.Outcome State Fault Refusal :=
  .next (s.atBar (s.graphStat vf slot v))

/-- The passes counted for a run's instances end with it (R102). -/
def State.forgetPasses (s : State) (v slot : Nat) : State :=
  { s with sched := { s.sched with passed := s.sched.passed.filter (fun p => !(p.1 == v && p.2.1 == slot)) } }

/-- Stops a slot with an error: its queued triggers go and the completion interrupt is raised (R97, R99). -/
def State.stopSlot (s : State) (v slot err node : Nat) : State :=
  ((s.forgetPasses v slot).setGslot v slot
    { (s.gslot v slot) with state := 3, err := err, errNode := node, triggers := [], run := none, failed := none }).send (.msixVf v 0)

/-! ## Runs (R97, R99) -/

/-- How a node of a run stands. -/
def GraphSlot.nodeRun (x : GraphSlot) (n : Nat) : NodeRun :=
  match x.run with
  | some r => AMap.lookD r n ⟨none, 0, false, none⟩
  | none => ⟨none, 0, false, none⟩

/-- Changes a node of the run. -/
def GraphSlot.setNode (x : GraphSlot) (n : Nat) (r : NodeRun) : GraphSlot := { x with run := x.run.map (fun m => AMap.put m n r) }

/-- Makes nodes ready, in order (R101); nodes that become ready together come in ascending number (log 115). -/
def State.readyNodes (v slot : Nat) : List Nat → State → State
  | [], s => s
  | n :: ns, s =>
    let x := s.gslot v slot
    let s1 := s.setGslot v slot (x.setNode n { (x.nodeRun n) with ready := some s.sched.nextReady })
    State.readyNodes v slot ns { s1 with sched := { s1.sched with nextReady := s1.sched.nextReady + 1 } }

/-- A patch list's entries: node, word and value, or the value of NODE (R97). Entries are read one by one, and the first that
is invalid or unreadable decides (log 112). -/
def State.readPatches (v nn : Nat) : Nat → Nat → Nat → State → State × (List (Nat × Nat × DWord) ⊕ Nat)
  | 0, _, _, s => (s, .inr 0x1000)
  | n + 1, k, va, s =>
    match s.readFlat v va 16 with
    | .fault s1 _ => (s1, .inr 0xFFFF)
    | .poison s1 => (s1, .inr 0xFFFF)
    | .ok s1 bs =>
      let lo := fld bs 0 8
      if bits lo 63 32 ≠ 0 ∨ bits lo 30 21 ≠ 0 ∨ nn ≤ bits lo 15 0 then (s1, .inr k)
      else
        let e := (bits lo 15 0, bits lo 20 16, BitVec.ofNat 64 (fld bs 8 8))
        if tbit lo 31 then (s1, .inl [e])
        else
          let r := State.readPatches v nn n (k + 1) (va + 16) s1
          (r.1, match r.2 with | .inl es => .inl (e :: es) | .inr m => .inr m)

/-- Applies patches in list order. -/
def patchNodes (ns : List Node) : List (Nat × Nat × DWord) → List Node
  | [] => ns
  | e :: es =>
    match ns.drop e.1 with
    | x :: _ => patchNodes (setAt ns e.1 { x with params := setAt x.params e.2.1 e.2.2 }) es
    | [] => patchNodes ns es

/-- Starts the run of a slot with its patches: nodes with no predecessor are ready. -/
def State.startRun (s : State) (v slot : Nat) (ps : List (Nat × Nat × DWord)) : State :=
  let x := s.gslot v slot
  let ns := patchNodes x.nodes ps
  let first := (List.range ns.length).filter (fun i => match ns.drop i with | n :: _ => n.npred == 0 | [] => false)
  State.readyNodes v slot first
    (s.setGslot v slot { x with nodes := ns, state := 2, triggers := x.triggers.drop 1, run := some [], failed := none })

/-- Whether a slot's next run can start. -/
def GraphSlot.canRun (x : GraphSlot) : Bool := x.state == 1 && x.run.isNone && !x.triggers.isEmpty && x.loading.isNone

/-- RUN_START (R97). -/
def execRunStart (vf slot : Nat) (s : State) : Host.Outcome State Fault Refusal :=
  let x := s.gslot vf slot
  if !x.canRun then .next s
  else
    let va := x.triggers.headD 0
    if va = 0 then .next (s.startRun vf slot [])
    else
      let r := State.readPatches vf x.nodes.length 4096 0 va s
      match r.2 with
      | .inl ps => .next (r.1.startRun vf slot ps)
      | .inr n => .next (r.1.stopSlot vf slot 2 n)

/-- The run of a slot ends where a node has failed and no launch of the run remains (R99). -/
def State.settleRun (s : State) (v slot : Nat) : State :=
  match (s.gslot v slot).failed with
  | none => s
  | some n => if s.launches.any (fun l => l.2.vf == v && l.2.slot == slot) then s else s.stopSlot v slot 3 n

/-- A node completes: its successors may become ready, and after the last node the run completes (R99). -/
def State.nodeDone (s : State) (v slot node : Nat) : State :=
  let x := s.gslot v slot
  match x.run, x.failed with
  | some _, none =>
    let x1 := x.setNode node { (x.nodeRun node) with done := true }
    let all := List.range x1.nodes.length
    let named (i : Nat) : List Nat := match x1.nodes.drop i with | n :: _ => n.succ | [] => []
    let next := (dedup (named node)).filter (fun j =>
      (x1.nodeRun j).ready.isNone && all.all (fun i => !((named i).contains j) || (x1.nodeRun i).done))
    let s1 := State.readyNodes v slot (sortBy (fun j => j) next) (s.setGslot v slot x1)
    if all.all (fun i => (x1.nodeRun i).done) then
      let y := s1.gslot v slot
      ((s1.forgetPasses v slot).setGslot v slot { y with run := none, state := 1, doneCount := y.doneCount + 1#32 }).send (.msixVf v 0)
    else s1
  | _, _ => s.settleRun v slot

/-- A node fails: no further launch of its run starts (R99). Where several launches of a run fail, NODE names the first (R100,
log 114). -/
def State.nodeFailed (s : State) (v slot node : Nat) : State :=
  let x := s.gslot v slot
  match x.run with
  | none => s
  | some _ => (s.setGslot v slot { x with failed := match x.failed with | some n => some n | none => some node }).settleRun v slot

end Sys2Proof.Machine
end

