-- ==== Sys2Proof/Machine/Schedule.lean ====
section
/-! DEFINITION. The graph scheduler (R101, R102), the start of an instance (R91 to R93), the end of a launch (R99, R102) and
its teardown (R362). -/

namespace Sys2Proof.Machine

open Sys2Proof

/-! ## The start of a core (R91 to R93) -/

/-- G of a launch thread (R139). -/
def launchGen (tid : Word) : DWord := tid.setWidth 64 * 0x9E3779B97F4A7C15#64

/-- Rows that the warps before warp `j` take in each slice of its group (R93). -/
def rowsBefore (width j : Nat) (ws : List (Nat × Nat)) : Nat :=
  (everyNth (64 / width) (j % (64 / width)) 0 (ws.take j)).foldl (fun m w => m + 4 * w.2) 0

/-- The thread of a lane of warp `j` at launch (R91, R92); nothing holds its first group back. -/
def launchThread (h : Header) (pl : Bool) (now q j role rows base lane : Nat) : Thread :=
  let tid : Word := BitVec.ofNat 32 (4096 * q + (j * h.width + lane))
  let slice := j % (64 / h.width) * (h.width / 4) + lane / 4
  let entry := match h.roles.drop role with | r :: _ => r.2.2 | [] => 0
  { Thread.blank with
    tid := tid, warp := j, lane := lane, role := role, last := now - 3, gen := launchGen tid, dl := h.deadline, pl := pl,
    map := (List.range rows).map (fun i => 1024 * slice + base + lane % 4 * rows + i), pc := BitVec.ofNat 32 (12 * entry) }

/-- The threads of a core at launch, by number. -/
def launchThreads (h : Header) (pl : Bool) (now q : Nat) (ws : List (Nat × Nat)) : AMap Thread :=
  (List.range ws.length).flatMap (fun j =>
    match ws.drop j with
    | w :: _ => (List.range h.width).map (fun l => (uidOf j l, launchThread h pl now q j w.1 w.2 (rowsBefore h.width j ws) l))
    | [] => [])

/-- The warps of a core at launch. -/
def launchWarps (h : Header) (ws : List (Nat × Nat)) : List Warp :=
  (List.range ws.length).flatMap (fun j =>
    match ws.drop j with
    | w :: _ => [⟨j, w.1, j % (64 / h.width) * (h.width / 4), BitVec.ofNat 64 (2 ^ h.width - 1), false⟩]
    | [] => [])

/-- The front-end thread of a core at launch (R91). -/
def launchFront (h : Header) (pl : Bool) (params : List DWord) (now inst index q : Nat) : Option FrontEnd :=
  if h.feLen = 0 then none
  else
    some
      { tid := BitVec.ofNat 32 (4096 * q + 4095),
        k := (List.range 32).map (fun i => getAt params i 0#64) ++
          [BitVec.ofNat 64 inst, BitVec.ofNat 64 index] ++ List.replicate 30 0#64,
        pred := 0#8, flags := List.replicate 12 0, setA := 15#4, setB := 15#4, wait := 0#12,
        pc := BitVec.ofNat 32 (12 * h.feEntry), early := [], vt := 0, last := now - 3, ended := false, pl := pl, hold := .run }

/-- What a core keeps from one launch to the next: GEN values, the L1 and the translation cache, and the model's numbers. -/
def Core.kept (c : Core) : Core :=
  { Core.reset with
    damask := c.damask, l1 := c.l1, tlb := c.tlb, nextReq := c.nextReq, nextPend := c.nextPend, nextM := c.nextM,
    nextPool := c.nextPool, epoch := c.epoch, clock := c.clock, copies := c.copies }

/-- A core starts its part of an instance (R28, R91): what memory the launch observes is as if acquired (R98). -/
def Core.startLaunch (c : Core) (now k : Nat) (h : Header) (pl : Bool) (params : List DWord) : Core :=
  let ws := warpList 0 h.roles
  let q := c.inst * h.cores + c.index
  let ts := launchThreads h pl now q ws
  let group (r : Nat) : Nat × Group := (r, ⟨(ts.filter (fun p => p.2.role == r)).map (fun p => (p.1, none)), 0#32, []⟩)
  let c1 : Core :=
    { c.kept.acquire with
      launch := c.launch, inst := c.inst, index := c.index, started := true, bind := BitVec.ofNat 9 k,
      warps := launchWarps h ws, nextWarp := ws.length, threads := ts,
      rows := ts.flatMap (fun p => p.2.map.map (fun r => (r, { Row.reset with count := 1 }))),
      clock := now, fe := launchFront h pl params now c.inst c.index q }
  { c1 with groups := (List.range h.nroles).map group, token := some 0, ftrap := h.ftrap }

/-! ## Code (R33, R360) -/

/-- The bytes of a code segment as a launch captures them at its start; a byte that cannot be read is free (log 40). -/
def State.captureBytes (draw v va : Nat) : Nat → State → State × List Byte
  | 0, s => (s, [])
  | n + 1, s =>
    let b := match s.readFlat v va 1 with
      | .ok s1 bs => (s1, bs)
      | .fault s1 _ => (s1, [(Config.freeWord draw va 40).setWidth 8])
      | .poison s1 => (s1, [(Config.freeWord draw va 40).setWidth 8])
    let r := State.captureBytes draw v (va + 1) n b.1
    (r.1, b.2 ++ r.2)

/-- The words of a code segment. -/
def State.capture (s : State) (draw v va packets : Nat) : State × List Word :=
  let r := State.captureBytes draw v va (12 * packets) s
  (r.1, leWords r.2 (3 * packets))

/-- The state as a launch found it when it started: what its handler segments are read from (R33). -/
def State.asOf (s : State) (l : Launch) : State := { s with mem := l.mem, poison := l.poison, brocade := l.brocade }

/-- The handler segment that TRAPBASE names, for a launch that does not hold it yet: its bytes as they stood when the launch
started, whenever TRAPBASE came to name them (R33, R360). -/
def State.captureHandler (s : State) (draw v : Nat) (l : Launch) : Launch :=
  let b := (s.vf v).trapbase
  if trapEn b = false ∨ l.handlers.any (fun h => h.1 == b) = true then l
  else { l with handlers := l.handlers ++ [(b, ((s.asOf l).capture draw v (trapVa b) (trapLen b)).2)] }

/-! ## Candidates (R101) -/

/-- An instance that could be dispatched. -/
structure Cand where
  vf : Nat
  slot : Nat
  node : Nat
  inst : Nat
  hdr : Header
  ready : Nat
  deriving DecidableEq, Repr

/-- Whether a cut in its first step holds a VF back (R370). -/
def State.cutting (s : State) (v : Nat) : Bool :=
  s.parts.any (fun p => p.2.vfmask.getLsbD v && p.2.ckState == 1 && !(p.2.sysvf == v))

/-- The lowest undispatched instance of each ready node of a VF, the oldest node first. A VF whose context is being saved or
is saved, or that a cut waits for, dispatches nothing (log 41); a launch that a trap has ended dispatches on until its
TEARDOWN_COMPLETE, which fails its node (R99, log 113). -/
def State.readyOf (s : State) (v : Nat) : List Cand :=
  let x := s.vf v
  if 2 ≤ x.ctx ∨ s.cutting v = true then []
  else
    sortBy (fun (c : Cand) => c.ready) (x.slots.flatMap (fun p =>
      match p.2.run, p.2.failed with
      | some r, none => r.filterMap (fun q =>
          match q.2.ready, p.2.nodes.drop q.1 with
          | some o, n :: _ => if q.2.dispatched < n.hdr.instances then some ⟨v, p.1, q.1, q.2.dispatched, n.hdr, o⟩ else none
          | _, _ => none)
      | _, _ => []))

/-- Every instance that could be dispatched. -/
def State.readyAll (s : State) : List Cand :=
  (List.range 64).flatMap (fun v => if (s.partOfVf v).isSome then s.readyOf v else [])

/-- Credit of a VF at a level in the present round. -/
def State.credit (s : State) (level v : Nat) : Nat := AMap.lookD s.sched.credit (64 * level + v) (s.vf v).weight

/-- A round ends when no VF with ready work at the level has credit left. -/
def State.roundEnds (s : State) (level : Nat) (cs : List Cand) : Bool := cs.all (fun c => s.credit level c.vf == 0)

/-- The VFs of a level in the order in which they are visited. -/
def State.visit (s : State) (level : Nat) : List Nat :=
  match AMap.look s.sched.last level with
  | none => List.range 64
  | some l => (List.range 64).filter (fun v => decide (l < v)) ++ (List.range 64).filter (fun v => decide (v ≤ l))

/-- The candidates in the order of R101. -/
def State.candidates (s : State) : List Cand :=
  let all := s.readyAll
  (List.range 4).flatMap (fun lv =>
    let cs := all.filter (fun c => c.hdr.level == lv)
    let fresh := s.roundEnds lv cs
    (s.visit lv).flatMap (fun v => if fresh || !(s.credit lv v == 0) then cs.filter (fun c => c.vf == v) else []))

/-- How often a candidate has been passed over in a row (R102). -/
def State.passes (s : State) (c : Cand) : Nat :=
  match s.sched.passed.find? (fun p => p.1 == c.vf && p.2.1 == c.slot && p.2.2.1 == c.node && p.2.2.2.1 == c.inst) with
  | some p => p.2.2.2.2
  | none => 0

/-- Candidates that no blocked instance holds back (R102). It blocks whether or not its VF has credit left. -/
def State.unblocked (s : State) (cs : List Cand) : List Cand :=
  let blocks := s.readyAll.filter (fun c => decide (1024 ≤ s.passes c))
  cs.filter (fun c => !(blocks.any (fun b =>
    (b.vf == c.vf && !(b == c)) || (s.partOfVf b.vf == s.partOfVf c.vf && decide (b.hdr.level < c.hdr.level)))))

/-! ## Placement (R102, R390) -/

/-- The quantum of a core (R11). -/
def quantumOf (core : Nat) : Nat := core / 16

/-- Whether a core can take an instance of a partition. -/
def State.coreFree (s : State) (part k : Nat) : Bool :=
  let q := s.quantum (quantumOf k)
  (s.core k).launch.isNone && q.state == 1 && q.part == some part

/-- The lowest free placement of an instance in a partition, by its first core. -/
def State.placement (s : State) (part cores : Nat) : Option Nat :=
  (lowest (fun i => (List.range cores).all (fun j => s.coreFree part (cores * i + j))) (512 / cores) 0).map (fun i => cores * i)

/-- The placement of a candidate. -/
def State.placeCand (s : State) (c : Cand) : Option Nat :=
  match s.partOfVf c.vf with
  | some p => s.placement p c.hdr.cores
  | none => none

/-- The first candidate that finds a placement. -/
def State.choose (s : State) : List Cand → Option (Cand × Nat)
  | [] => none
  | c :: cs => match s.placeCand c with
    | some k => some (c, k)
    | none => State.choose s cs

/-! ## Dispatch -/

/-- Begins a new round at every level where no VF with ready work has credit left (R101). -/
def State.turnRounds (s : State) : State :=
  let all := s.readyAll
  let done (lv : Nat) : Bool := s.roundEnds lv (all.filter (fun c => c.hdr.level == lv))
  { s with sched := { s.sched with credit := s.sched.credit.filter (fun p => !(done (p.1 / 64))) } }

/-- The scheduler's counts after a dispatch: credit spent, the VF visited, the leader of the partition passed over. A pass of
another instance of the partition ends a row of passes, unless the instance has already blocked (R102, log 110). -/
def State.spend (s : State) (order : List Cand) (c : Cand) : State :=
  let lv := c.hdr.level
  let credit := s.turnRounds.sched.credit
  let left := AMap.lookD credit (64 * lv + c.vf) (s.vf c.vf).weight - 1
  let lead := order.find? (fun x => s.partOfVf x.vf == s.partOfVf c.vf)
  let same (x : Cand) (p : Nat × Nat × Nat × Nat × Nat) : Bool :=
    p.1 == x.vf && p.2.1 == x.slot && p.2.2.1 == x.node && p.2.2.2.1 == x.inst
  let base := s.sched.passed.filter (fun p => !(same c p))
  let passed := match lead with
    | none => base
    | some x =>
      if x = c then base
      else
        base.filter (fun p => !(same x p) && (!(s.partOfVf p.1 == s.partOfVf c.vf) || decide (1024 ≤ p.2.2.2.2))) ++
          [(x.vf, x.slot, x.node, x.inst, s.passes x + 1)]
  { s with sched := { s.sched with credit := AMap.put credit (64 * lv + c.vf) left, last := AMap.put s.sched.last lv c.vf, placedAt := s.now, passed := passed } }

/-- The launch of a node, made at its first instance with the code of that moment (R33). -/
def State.openLaunch (s : State) (draw : Nat) (c : Cand) : State × Nat :=
  let x := s.gslot c.vf c.slot
  match (x.nodeRun c.node).launch with
  | some l => (s, l)
  | none =>
    let l := s.nextLaunch
    let code := s.capture draw c.vf c.hdr.codeBase c.hdr.codeLen
    let fe := code.1.capture draw c.vf c.hdr.feBase c.hdr.feLen
    let l0 : Launch :=
      { vf := c.vf, slot := c.slot, node := c.node, hdr := c.hdr, code := code.2, fecode := fe.2, handlers := [], mem := fe.1.mem,
        poison := fe.1.poison, brocade := fe.1.brocade, spawnNext := 0, placed := [], completed := 0, tearing := false }
    let s1 := { (fe.1.setLaunch l (fe.1.captureHandler draw c.vf l0)) with nextLaunch := l + 1 }
    let y := s1.gslot c.vf c.slot
    (s1.setGslot c.vf c.slot (y.setNode c.node { (y.nodeRun c.node) with launch := some l }), l)

/-- Places an instance on cores; they start one by one. -/
def State.place (s : State) (draw : Nat) (c : Cand) (core : Nat) : State :=
  let o := s.openLaunch draw c
  let l := o.2
  let x := o.1.gslot c.vf c.slot
  let r := x.nodeRun c.node
  let s1 := o.1.setGslot c.vf c.slot (x.setNode c.node { r with dispatched := r.dispatched + 1 })
  let s2 := match s1.launch l with
    | some y => s1.setLaunch l { y with placed := y.placed ++ [(c.inst, core)] }
    | none => s1
  let s3 := (List.range c.hdr.cores).foldl (fun s i =>
    s.onCore (core + i) (fun k => { k.kept with launch := some l, inst := c.inst, index := i })) s2
  let v := s3.vf c.vf
  s3.setVf c.vf { v with ctx := if v.ctx = 0 then 1 else v.ctx }

/-- Cores that hold an instance and have not started. -/
def State.unstarted (s : State) : List Nat := AMap.keys (s.cores.filter (fun p => p.2.launch.isSome && !p.2.started))

/-- One core starts (R28). -/
def State.startCore (s : State) (k : Nat) : State :=
  let c := s.core k
  match c.launch with
  | none => s
  | some l =>
    match s.launch l with
    | none => s
    | some x =>
      let params := match (s.gslot x.vf x.slot).nodes.drop x.node with | n :: _ => n.params | [] => []
      let cl := clusterOf k
      let d := s.cluster cl
      let mine (n : Nat) : Bool := n / 64 == k % 4
      (s.setCluster cl { d with jslots := d.jslots.filter (fun p => !(mine p.1)) }).setCore k (c.startLaunch s.now k x.hdr (s.isSys x.vf) params)

/-- The instance that is placed next, and its first core: at most one in a cycle (R101). -/
def State.nextPlaced (s : State) : Option (Cand × Nat) :=
  if s.sched.placedAt = s.now then none else s.choose (s.unblocked s.candidates)

/-- SCHEDULER_DISPATCH (R101, R102): an instance is placed, or a core of one placed before starts. The cores of one instance
start in no promised order (R28). -/
def execSchedulerDispatch (s : State) : Host.Outcome State Fault Refusal :=
  let draw := s.cur.draw
  let order := s.unblocked s.candidates
  match s.nextPlaced with
  | some (c, k) =>
    if s.unstarted.isEmpty || Config.freeBool draw 0 41 then
      let s1 := (s.spend order c).place draw c k
      .next (match pickFree draw s1.unstarted with | some j => s1.startCore j | none => s1)
    else .next (match pickFree draw s.unstarted with | some j => s.startCore j | none => s)
  | none => .next (match pickFree draw s.unstarted with | some j => s.startCore j | none => s)

/-! ## The end of an instance (R102) -/

/-- The cores of a placed instance. -/
def instCores (h : Header) (core : Nat) : List Nat := (List.range h.cores).map (fun i => core + i)

/-- Whether a request still has work that an instance must wait for. -/
def Req.pending (r : Req) : Bool := match r.kind with | .prefetch _ => false | _ => !(r.canGrant)

/-- Whether an instance waits for an engine word: not for an NWAIT, whose slot may wait for ever (R240). -/
def EngineWord.holds (w : EngineWord) : Bool := match w.op with | .nwait _ => false | _ => true

/-- Whether nothing of a core's launch remains: threads, tracker, slots, matrix work, claims, translations and pool lanes. -/
def State.coreQuiet (s : State) (k : Nat) : Bool :=
  let c := s.core k
  let d := s.cluster (clusterOf k)
  c.started && c.threads.isEmpty && c.feEnded && c.trackerLive.isEmpty && !(c.reqs.any Req.pending) && c.mwords.isEmpty &&
    c.msts.isEmpty && !(d.jslots.any (fun p => p.1 / 64 == k % 4 && p.2.state == 3)) && !(d.jwords.any (fun w => w.core == k && w.holds)) &&
    !(d.claims.any (fun p => !(p.2.state == 0) && p.2.core == k)) &&
    [d.pass, d.ending].all (fun x => match x with | some p => !(p.core == k) | none => true) && c.poolWords.isEmpty

/-- A core's part of a launch ends: its entries are freed, which advances their GEN, its slots and claims are free (R231, R246,
R313). -/
def State.freeCore (s : State) (k : Nat) : State :=
  let cl := clusterOf k
  let d := s.cluster cl
  let c := s.core k
  let used := (c.damask.filter (fun e => !(e.2.state == 0))).map (fun e => e.1)
  let c1 := used.foldl Core.dropEntry c
  (s.setCluster cl
    { d with jslots := d.jslots.filter (fun p => !(p.1 / 64 == k % 4)), jwords := d.jwords.filter (fun w => !(w.core == k)),
             claims := d.claims.filter (fun p => !(p.2.core == k && !(p.2.state == 0))) }).setCore k c1.kept

/-- The context of a VF is none once no core holds a launch of it and none is saved. -/
def State.settleCtx (s : State) (v : Nat) : State :=
  let used := s.cores.any (fun p => match p.2.launch with
    | some l => (match s.launch l with | some x => x.vf == v | none => false)
    | none => false)
  if used ∨ AMap.has s.saves v = true then s
  else
    let x := s.vf v
    s.setVf v { x with ctx := 0, rung := 0 }

/-- A cluster without a handler launch sends what waits for its handler role to the host (R354). -/
def State.rerouteCluster (s : State) (cl : Nat) : State :=
  let d := s.cluster cl
  if d.handler.isSome then s
  else
    let s1 := s.setCluster cl { d with xpend := [], copies := [] }
    let s2 := d.xpend.foldl (fun s e => match AMap.look d.xtab e with
      | some x => s.postHaVf x.vf (.xlate cl e x.gen)
      | none => s) s1
    d.copies.foldl (fun s r => s.postHaVf r.vf (.copy r)) s2

/-- The claims of a launch on clusters end with it (R354). -/
def State.dropHandlers (s : State) (l : Nat) : State :=
  let cls := AMap.keys (s.clusters.filter (fun p => match p.2.handler with | some h => h.2 == l | none => false))
  cls.foldl (fun s cl => (s.setCluster cl { (s.cluster cl) with handler := none }).rerouteCluster cl) s

/-- Whether a saved context holds a core of a launch. -/
def State.savedOf (s : State) (l : Nat) : Bool := s.saves.any (fun p => p.2.cores.any (fun c => c.core.launch == some l))

/-- Whether a launch dispatches no further instance. -/
def State.lastPlaced (s : State) (l : Nat) (x : Launch) : Bool :=
  let y := s.gslot x.vf x.slot
  let r := y.nodeRun x.node
  y.run.isNone || !(r.launch == some l) || y.failed.isSome || decide (x.hdr.instances ≤ r.dispatched)

/-- Removes a launch. -/
def State.removeLaunch (s : State) (l : Nat) : State := ({ s with launches := AMap.del s.launches l }).dropHandlers l

/-- LAUNCH_COMPLETE (R99, R102): finished instances give up their cores, and after the last the node completes. -/
def execLaunchComplete (launch : Nat) (s : State) : Host.Outcome State Fault Refusal :=
  match s.launch launch with
  | none => .next s
  | some x =>
    if x.tearing then .next s
    else
      let quiet (p : Nat × Nat) : Bool := (instCores x.hdr p.2).all s.coreQuiet
      let s1 := ((x.placed.filter quiet).flatMap (fun p => instCores x.hdr p.2)).foldl State.freeCore s
      let x1 := { x with placed := x.placed.filter (fun p => !(quiet p)), completed := x.completed + (x.placed.filter quiet).length }
      let s2 := s1.setLaunch launch x1
      if x1.placed.isEmpty && s2.lastPlaced launch x1 && !(s2.savedOf launch) then
        .next (((s2.removeLaunch launch).nodeDone x.vf x.slot x.node).settleCtx x.vf)
      else .next (s2.settleCtx x.vf)

/-- Whether LAUNCH_COMPLETE has something to do. -/
def State.canComplete (s : State) (l : Nat) (x : Launch) : Bool :=
  !x.tearing && (x.placed.any (fun p => (instCores x.hdr p.2).all s.coreQuiet) ||
    (x.placed.isEmpty && s.lastPlaced l x && !(s.savedOf l)))

/-! ## Teardown (R362) -/

/-- The lanes of a request that take effect at a teardown: each wholly or not at all. -/
def Req.tornLanes (draw : Nat) (r : Req) : List LaneReq := r.lanes.filter (fun l => Config.freeBool draw (l.uid + 2 ^ 26 * r.id) 362)

/-- What is left of a translated store or atomic takes effect, lane by lane. -/
def State.tearReq (s : State) (draw k : Nat) (r : Req) : State :=
  let r1 := { r with lanes := r.tornLanes draw }
  if r.stage ≠ .ready ∨ r1.lanes.isEmpty ∨ s.held r then s
  else
    match r.kind with
    | .store => s.registerStore k r1
    | .atomic op _ _ _ => s.performAtomic k r1 op
    | _ => s

/-- The pool lanes of a core leave their pools. -/
def State.dropPoolLanes (s : State) (k : Nat) : State :=
  { s with vfs := AMap.mapVals s.vfs (fun v =>
      { v with pools := AMap.mapVals v.pools (fun p => { p with queue := p.queue.filter (fun l => !(l.core == k)) }) }) }

/-- Whether a tensor word of a core stands between its home slices: a teardown lets it end. -/
def Core.midSlices (c : Core) : Bool :=
  let mid (h : Hold) : Bool := match h with
    | .slices (.inv _) _ begun _ => begun
    | .slices .. => true
    | _ => false
  c.threads.any (fun p => mid p.2.hold) || (match c.fe with | some f => mid f.hold | none => false)

/-- Tears down one core: outstanding stores and atomics take effect per lane or not at all, no barrier is credited, everything
it holds is freed. -/
def State.tearCore (draw : Nat) (s : State) (k : Nat) : State :=
  let s1 := (s.core k).reqs.foldl (fun s r => s.tearReq draw k r) s
  let cl := clusterOf k
  let d := s1.cluster cl
  let other (x : Option Pass) : Option Pass := x.filter (fun p => !(p.core == k))
  let s2 := s1.setCluster cl { d with pass := other d.pass, ending := other d.ending }
  (s2.dropPoolLanes k).freeCore k

/-- The cores a launch holds. -/
def Launch.held (x : Launch) : List Nat := x.placed.flatMap (fun p => instCores x.hdr p.2)

/-- Tears a launch down on every core. -/
def State.tearLaunch (s : State) (draw l : Nat) : State :=
  match s.launch l with
  | none => s
  | some x => ((x.held.foldl (State.tearCore draw) s).removeLaunch l).settleCtx x.vf

/-- Whether a teardown can complete. -/
def State.canTear (s : State) (x : Launch) : Bool := x.tearing && !(x.held.any (fun k => (s.core k).midSlices))

/-- TEARDOWN_COMPLETE (R362): the launch is gone and its node has failed (R99). -/
def execTeardownComplete (launch : Nat) (s : State) : Host.Outcome State Fault Refusal :=
  match s.launch launch with
  | none => .next s
  | some x => if s.canTear x then .next ((s.tearLaunch s.cur.draw launch).nodeFailed x.vf x.slot x.node) else .next s

end Sys2Proof.Machine
end

