-- ==== Sys2Proof/Machine/Registers.lean ====
section
/-! DEFINITION. The registers: the system registers (R355), the maps by which a write takes effect (R103, R136, R177, R183,
R345, R354, R360, R364, R369, R375, R398), SYSRD and SYSWR (R380). -/

namespace Sys2Proof.Machine

open Sys2Proof

/-! ## What a register reads as -/

/-- The partition of a VF, with its record. -/
def State.partRec (s : State) (v : Nat) : Option (Nat × Part) :=
  match s.partOfVf v with
  | some p => (AMap.look s.parts p).map (fun x => (p, x))
  | none => none

/-- CKPTCTL (R369). -/
def Part.ckptctl (p : Part) : Word := w32 (p.ckState * 2 ^ 28 + p.ckErr * 2 ^ 24 + p.ckRate * 2 ^ 12)

/-- FAULTQ (R183). -/
def Core.faultqReg (c : Core) : Word := w32 (min 65535 c.lost * 65536 + c.faultq.length * 256 + c.ftrap.toNat * 4)

/-- CLHANDLER (R354, R355). -/
def Cluster.handlerReg (c : Cluster) : Word :=
  match c.handler with
  | some h => 0x80000000#32 ||| w32 (h.1 % 4)
  | none => 0#32

/-- TRAPBASE as it reads: LEN64 = 0 reads as EN = 0 (R360). -/
def trapbaseReg (b : DWord) : DWord := if trapLen b = 0 then b &&& ~~~1#64 else b

/-- Word `i` of a trap record. -/
def TrapRec.word (r : TrapRec) (i : Nat) : Word := if i = 0 then r.r0 else if i = 1 then r.r1 else if i = 2 then r.r2 else r.r3

/-- HASTAT (R398). -/
def Part.hastat (p : Part) : Word := w32 ((if p.haFull then 2 ^ 31 else 0) + min 255 p.haPending.length * 256 + p.haErr)

/-- A system register that is not a thread's, read on a core (R355). -/
def State.sysRead (s : State) (k n : Nat) : DWord :=
  let c := s.core k
  let v := s.vfOf k
  let x := s.vf v
  let part (f : Part → DWord) : DWord := match s.partRec v with | some p => f p.2 | none => 0#64
  if n = 0x01 then c.faultqReg.setWidth 64
  else if n = 0x02 then c.vocab.setWidth 64
  else if n = 0x03 then c.vocabpad.setWidth 64
  else if n = 0x04 then s.devcap.setWidth 64
  else if n = 0x05 then (match s.partRec v with | some p => BitVec.ofNat 64 (p.1 % 8) | none => 0#64)
  else if n = 0x06 then BitVec.ofNat 64 (v % 64)
  else if n = 0x0C then part (fun p => p.funcmode.setWidth 64)
  else if n = 0x0D then x.pretimers.setWidth 64
  else if n = 0x0E then part (fun p => p.ckptctl.setWidth 64)
  else if n = 0x0F then (s.cluster (clusterOf k)).handlerReg.setWidth 64
  else if 0x10 ≤ n ∧ n ≤ 0x13 then (x.lasttrap.word (n - 0x10)).setWidth 64
  else if 0x18 ≤ n ∧ n ≤ 0x1F then (AMap.lookD x.perfsel (n - 0x18) 0#32).setWidth 64
  else if n = 0x20 then trapbaseReg x.trapbase
  else if n = 0x22 then part (fun p => p.ckBuf)
  else if n = 0x23 then part (fun p => p.ckRsv)
  else 0#64

/-- Whether a number is a register of one thread. -/
def sysThread (n : Nat) : Bool := n == 0x00 || n == 0x07 || (decide (0x08 ≤ n) && decide (n ≤ 0x0B))

/-- TSTAT (R355). -/
def tstat (pl intrap : Bool) : Word := w32 ((if pl then 1 else 0) + (if intrap then 2 else 0))

/-- A thread's own registers: FSTAT, TSTAT and the trap record. -/
def Thread.sysRead (t : Thread) (draw u n : Nat) : Word :=
  if n = 0x00 then t.fstatAt draw u &&& 0xFF#32 else if n = 0x07 then tstat t.pl t.intrap else t.trapRec.word (n - 0x08)

/-- The front-end thread's own: it has no float words, so its FSTAT stays 0, and takes no vectored trap. -/
def FrontEnd.sysRead (f : FrontEnd) (n : Nat) : Word := if n = 0x07 then tstat f.pl false else 0#32

/-! ## Writes by a register's map -/

/-- PTROOT (R177). -/
def ptrootMap (v : DWord) : DWord := v &&& 0x000FFFFFFFFFE001#64

/-- TRAPBASE (R360). -/
def trapbaseMap (v : DWord) : DWord := v &&& ~~~0x001000000000003E#64

/-- PRETIMERS (R364): KILL is raised above GRACE where it is not greater. -/
def pretimersMap (v : Word) : Word :=
  let kill := bits v.toNat 31 22
  let grace := bits v.toNat 21 10
  w32 ((if 100 * kill ≤ grace then grace / 100 + 1 else kill) * 2 ^ 22 + grace * 2 ^ 10 + bits v.toNat 9 0)

/-- VFWEIGHT (R103). -/
def weightMap (v : Nat) : Nat := if v % 256 = 0 then 1 else v % 256

/-- CKPTCTL.RATE (R369). -/
def rateMap (v : Nat) : Nat := if bits v 23 12 = 0 then 1 else bits v 23 12

/-- CKPTBUF and CKPTRSV (R369). -/
def ckptbufMap (v : DWord) : DWord := v &&& ~~~0xFFF#64
def ckptrsvMap (v : DWord) : DWord := v &&& ~~~0x1FFFFF#64

/-- PERFSEL (R375). -/
def perfselMap (v : Word) : Word := v &&& 0x800000FF#32

/-- Whether an EVENT is defined (R375). -/
def perfEventOk (v : Word) : Bool := decide (v.toNat % 256 ≤ 0x0F)

/-- Changes a partition. -/
def State.onPart (s : State) (p : Nat) (f : Part → Part) : State :=
  match AMap.look s.parts p with
  | some x => s.setPart p (f x)
  | none => s

/-- Changes the partition of a VF. -/
def State.onPartOf (s : State) (v : Nat) (f : Part → Part) : State :=
  match s.partOfVf v with
  | some p => s.onPart p f
  | none => s

/-- FAULTQ of a core (R183). -/
def Core.writeFaultq (c : Core) (v : Word) : Core := { c with lost := v.toNat / 65536, ftrap := v.extractLsb' 2 3 }

/-- TRAPBASE of a VF: its running launches hold the segment that it then names (R360). -/
def State.writeTrapbase (s : State) (draw v : Nat) (b : DWord) : State :=
  let s1 := s.setVf v { (s.vf v) with trapbase := trapbaseMap b }
  { s1 with launches := AMap.mapVals s1.launches (fun l => if l.vf = v then s1.captureHandler draw v l else l) }

/-- PERFSEL of a VF: the counter is cleared (R375). -/
def State.writePerfsel (s : State) (v n : Nat) (w : Word) : State :=
  let x := s.vf v
  s.setVf v { x with perfsel := AMap.put x.perfsel n (perfselMap w), perfcnt := AMap.put x.perfcnt n 0#64,
                     perfnew := AMap.del x.perfnew n }

/-- PRETIMERS of a VF. -/
def State.writePretimers (s : State) (v : Nat) (w : Word) : State := s.setVf v { (s.vf v) with pretimers := pretimersMap w }

/-- CLHANDLER, written on a core by a PL1 thread (R354). -/
def State.writeClhandler (s : State) (k : Nat) (v : Word) : State :=
  let cl := clusterOf k
  let c := s.cluster cl
  match (s.core k).launch with
  | none => s
  | some l =>
    if v.getLsbD 31 then
      let free : Bool := match c.handler with | none => true | some h => h.2 == l
      if free && s.isSys (s.vfOf k) then s.setCluster cl { c with handler := some (k, l) } else s
    else
      match c.handler with
      | some h => if h.2 = l then (s.setCluster cl { c with handler := none }).rerouteCluster cl else s
      | none => s

/-- A SYSWR to TRIGGER (R395): queued at once, or posted to the host. -/
def State.sysTrigger (s : State) (v : Nat) (w : DWord) : State :=
  if s.funcBit v 4 then s.postHaVf v (.relaunch v (trigSlot w) (trigPatch w)) else s.trigger v (trigSlot w) (trigPatch w)

/-- A SYSWR to a register that is not a thread's, on a core. -/
def State.sysWrite (s : State) (draw k n : Nat) (w : DWord) : State :=
  let v := s.vfOf k
  let x := w.setWidth 32
  if n = 0x01 then s.onCore k (fun c => c.writeFaultq x)
  else if n = 0x02 then s.onCore k (fun c => { c with vocab := x &&& 0xFFFFF#32 })
  else if n = 0x03 then s.onCore k (fun c => { c with vocabpad := x })
  else if n = 0x0D then s.writePretimers v x
  else if n = 0x0E then s.onPartOf v (fun p => { p with ckRate := rateMap x.toNat })
  else if n = 0x0F then s.writeClhandler k x
  else if 0x18 ≤ n ∧ n ≤ 0x1F then s.writePerfsel v (n - 0x18) x
  else if n = 0x20 then s.writeTrapbase draw v w
  else if n = 0x21 then s.sysTrigger v w
  else if n = 0x22 then s.onPartOf v (fun p => { p with ckBuf := ckptbufMap w })
  else if n = 0x23 then s.onPartOf v (fun p => { p with ckRsv := ckptrsvMap w })
  else s

/-- The FSTAT bits that a write clears where it holds 1 (R136). -/
def fstatW1c : Word := 0xDF#32

/-! ## What other words meet of a SYSWR (R380) -/

/-- The number under which the count of counter `n` before a PERFSEL write is kept. MODEL. -/
def oldCount (n : Nat) : Nat := 0x118 + n

/-- The fields of a register that a SYSWR writes beside fields that change by themselves. -/
def sysFields (n : Nat) : DWord := if n = 0x01 then 0xFFFF001C#64 else if n = 0x0E then 0x00FFF000#64 else ~~~0#64

/-- A register as SYSRD of a thread reads it: a write of another thread's less than 4 cycles ago may or may not show. -/
def State.sysSeen (s : State) (k uid n : Nat) : DWord :=
  let now := s.sysRead k n
  let m := sysFields n
  let seen := (now &&& ~~~m) ||| (s.sysNow k uid n now &&& m)
  if n = 0x20 then trapbaseReg seen else seen

/-- Remembers what a register, and the count of a counter, stood at before a SYSWR; what is 4 cycles old is forgotten. -/
def State.remember (s : State) (k uid n : Nat) : State :=
  let v := s.vfOf k
  let was (reg : Nat) (old : DWord) : SysOld := ⟨reg, k, v, uid, old, s.now⟩
  let count := if 0x18 ≤ n ∧ n ≤ 0x1F then [was (oldCount (n - 0x18)) (AMap.lookD (s.vf v).perfcnt (n - 0x18) 0#64)] else []
  { s with sysOld := was n (if n = 0x20 then (s.vf v).trapbase else s.sysRead k n) :: count ++
      s.sysOld.filter (fun e => decide (s.now < e.cycle + 4)) }

/-! ## SYSRD and SYSWR (R355, R380) -/

/-- Whether a number is a system register. -/
def sysListed (n : Nat) : Bool := decide (n ≤ 0x13) || (decide (0x18 ≤ n) && decide (n ≤ 0x23))

/-- Registers that only front-end code reaches. -/
def sys64 (n : Nat) : Bool := decide (0x20 ≤ n)

/-- Registers reserved to PL1: to read, and to write. -/
def sysReadPl1 (n : Nat) : Bool :=
  (decide (0x08 ≤ n) && decide (n ≤ 0x0B)) || n == 0x0E || (decide (0x10 ≤ n) && decide (n ≤ 0x13)) || n == 0x20 || n == 0x22 || n == 0x23
def sysWritePl1 (n : Nat) : Bool := n == 0x01 || n == 0x0D || n == 0x0E || n == 0x0F || n == 0x20 || n == 0x22 || n == 0x23

/-- SYSRD (R380). -/
def execSysrd (_lk : Link) (d b : Reg) (s : State) : Host.Outcome State Fault Refusal :=
  let n := b.toNat
  let draw := s.cur.draw
  let f : Form := { stream := .both, legal := sysListed n && (s.cur.fe || !sys64 n) && (!sysReadPl1 n || s.atPl1) }
  finish s (bothWordS f s [] [d]
    (fun s1 act =>
      let k := s1.cur.core
      let c := s1.core k
      (c.plainResults act d (fun u => if sysThread n then (c.th u).sysRead draw u n else (s1.sysSeen k u n).setWidth 32)).map
        (fun c1 => s1.setCore k c1))
    (fun s1 x => .ok (s1.setFe (x.write d (if sysThread n then (x.sysRead n).setWidth 64 else s1.sysSeen s1.cur.core feUid n) 4))))

/-- SYSWR (R380). -/
def execSyswr (_lk : Link) (a b : Reg) (s : State) : Host.Outcome State Fault Refusal :=
  let n := b.toNat
  let draw := s.cur.draw
  let f : Form :=
    { stream := .both, helper := false, legal := sysListed n && (s.cur.fe || !sys64 n) && (!sysWritePl1 n || s.atPl1) }
  let sel : Bool := decide (0x18 ≤ n) && decide (n ≤ 0x1F)
  finish s (bothWordS f s [a] []
    (fun s1 act => match act with
      | [] => .ok s1
      | u :: _ =>
        let k := s1.cur.core
        let c := s1.core k
        let w := c.readReg draw u a
        if n = 0x00 then .ok (s1.setCore k (act.foldl (fun c1 v => c1.updTh v (fun t => t.clearFstat draw v (c.readReg draw v a &&& fstatW1c))) c))
        else if sel && !(perfEventOk w) then .trap (trapAt .illegalOperand (c.th u).lane)
        else .ok ((s1.remember k u n).sysWrite draw k n (w.setWidth 64)))
    (fun s1 x =>
      let w := x.read draw a
      if sel && !(perfEventOk (w.setWidth 32)) then .trap (trapAt .illegalOperand 0)
      else .ok ((s1.remember s1.cur.core feUid n).sysWrite draw s1.cur.core n w)))

/-! ## Writes from outside (R397, R398) -/

/-- CLHANDLER_WRITE (R354): only a PL1 thread's write reaches the register. -/
def execClhandlerWrite (core uid : Nat) (fe : Bool) (v : BitVec 32) (s : State) : Host.Outcome State Fault Refusal :=
  let c := s.core core
  let pl : Bool := if fe then (match c.fe with | some f => f.pl | none => false) else (c.th uid).pl
  .next (if pl then s.writeClhandler core v else s)

/-- PERFSEL_WRITE (R375): an undefined EVENT is refused. -/
def execPerfselWrite (vf n : Nat) (v : BitVec 32) (s : State) : Host.Outcome State Fault Refusal :=
  .next (if perfEventOk v && decide (n < 8) then s.writePerfsel vf n v else s)

end Sys2Proof.Machine
end

