-- ==== Sys2Proof/Machine/Context.lean ====
section
/-! DEFINITION. The pre-emption ladder on the context of a VF (R29, R364, R365), the forced halt (R311), the kill, and the save
and resume of a context (R366 to R368). -/

namespace Sys2Proof.Machine

open Sys2Proof

/-! ## The rungs -/

/-- The cores that hold a launch of a VF, ascending. -/
def State.coresOf (s : State) (v : Nat) : List Nat :=
  sortBy id (AMap.keys (s.cores.filter (fun p => match p.2.launch with
    | some l => (match s.launch l with | some x => x.vf == v | none => false)
    | none => false)))

/-- The launches of a VF. -/
def State.launchesOf (s : State) (v : Nat) : List Nat := AMap.keys (s.launches.filter (fun p => p.2.vf == v))

/-- GRACE, SLICE and KILL of PRETIMERS (R364). -/
def graceOf (w : Word) : Nat := bits w.toNat 21 10
def sliceOfTimers (w : Word) : Nat := bits w.toNat 9 0

/-- A thread that sleeps goes on after its SLEEP, the rest of its count discarded (R74). -/
def Thread.stopSleep (t : Thread) : Thread :=
  match t.hold with
  | .sleep _ => { t with hold := .run }
  | _ => t

/-- Where a thread that waits in a word which has begun goes back to: that word, which then has not issued (R74, log 88). -/
def Hold.backTo (h : Hold) : Option Word :=
  match h with
  | .gbar _ _ _ back => back
  | .xqsend _ _ back => back
  | .xqrecv _ _ _ _ back => back
  | _ => none

/-- A thread that waits in GBAR, XQSEND or XQRECV, or for one of its run that does, goes back to the word; its unit of YC goes with
it (R74). -/
def Core.backUp (c : Core) (t : Thread) : Thread :=
  let h := match t.hold with | .follow l => c.holdOf l | h => h
  match h.backTo with
  | some pc => { t with hold := .run, pc := pc, yc := t.yc - 1 }
  | none => t

/-- The forced halt on one core: parked threads leave with 0, sleeping ones wake, threads at a waiting word go back to it, every
helper ends as by HKILL and every team closes (R74, R302, R311). -/
def Core.forceHalt (c : Core) : Core :=
  let c1 := (AMap.keys c.threads).foldl (fun (c : Core) u => c.unpark u 0#32) c
  let helpers := AMap.keys (c1.threads.filter (fun p => p.2.helper.isSome))
  let c2 := helpers.foldl (fun (c : Core) u => c.endHelper u .killed) c1
  let c3 := { c2 with threads := AMap.mapVals c2.threads (fun t => (c2.backUp t).stopSleep) }
  (AMap.keys c3.threads).foldl Core.closeTeam c3

/-- The forced halt (R29, R311): nothing of the context issues any more. -/
def State.forceHalt (s : State) (v : Nat) : State :=
  let x := s.vf v
  (s.coresOf v).foldl (fun s k => s.onCore k Core.forceHalt) (s.setVf v { x with ctx := 2, rung := 2 })

/-- The soft request; with GRACE 0 the forced halt comes at once (R364, R365). -/
def State.softRequest (s : State) (v : Nat) : State :=
  let x := s.vf v
  if x.ctx ≠ 1 then s
  else if graceOf x.pretimers = 0 then s.forceHalt v
  else s.setVf v { x with ctx := 2, rung := 1 }

/-- LASTTRAP after a kill (R363): cause 17 and VALID, INFO and TID 0; the fields that no lane or word decides are free
(log 42). -/
def killRecord (draw : Nat) : TrapRec :=
  let w := (Config.freeWord draw 0 363).toNat
  ⟨packRec0 17 (w % 64) (w / 64 % 4) 0 (w / 256 % 4) false false false false true, Config.freeWord draw 1 363, 0#32, 0#32⟩

/-! ## The SAVE region (R367) -/

/-- Base and size in bytes of the SAVE region (R386). -/
def Part.saveBase (p : Part) : Nat := bits p.save.toNat 51 21 * 2 ^ 21
def Part.saveSize (p : Part) : Nat := bits p.save.toNat 63 52 * 2 ^ 21

/-- Clears VALID of a VF's directory entry and frees the space of its save. -/
def State.dropSave (s : State) (v : Nat) : State :=
  let s1 := { s with saves := AMap.del s.saves v }
  match s.partRec v with
  | some (_, p) => s1.physPut (p.saveBase + 64 * v + 20) [0#8]
  | none => s1

/-- A context that is killed while the cut waits for it fails the cut (R370). -/
def State.failCut (s : State) (v : Nat) : State :=
  match s.partRec v with
  | some (i, p) => if p.ckState = 1 ∧ p.sysvf ≠ v then s.failCkpt i 3 else s
  | none => s

/-- The kill (R365): every launch of the context is torn down, its save is dropped. -/
def State.killCtx (s : State) (draw v : Nat) : State :=
  let s1 := if AMap.has s.saves v then s.dropSave v else s
  let x := s1.vf v
  let s2 := s1.setVf v { x with ctx := 2, rung := 3 }
  ((s2.launchesOf v).foldl (fun s l => s.endLaunch l (killRecord draw)) s2).failCut v

/-! ## What a save needs and holds (R366) -/

/-- Whether a request can go into a save: it stands in the operand log or waits for it, or is a prefetch (R180). -/
def Req.savable (r : Req) : Bool :=
  match r.kind, r.stage with
  | .prefetch _, _ => true
  | _, .faulted _ => true
  | _, .stuck => true
  | _, _ => false

/-- Whether a thread has halted at a yield point, or stands where the forced halt leaves it (R74, R82). -/
def Thread.savable (forced : Bool) (t : Thread) : Bool :=
  match t.hold with
  | .halted => true
  | .run => forced
  | .gbar .. => forced
  | .pool _ => forced
  | .follow _ => forced
  | .xqsend .. => forced
  | .xqrecv .. => forced
  | _ => false

/-- Whether a core of a context can be saved. -/
def State.coreSavable (s : State) (forced : Bool) (k : Nat) : Bool :=
  let c := s.core k
  let d := s.cluster (clusterOf k)
  c.started && c.threads.all (fun p => p.2.savable forced) &&
    (match c.fe with | some f => f.ended || f.hold == .run | none => true) &&
    c.trackerLive.isEmpty && c.reqs.all Req.savable && c.msts.isEmpty &&
    [d.pass, d.ending].all (fun x => match x with | some p => !(p.core == k) | none => true)

/-- Whether the context of a VF can be saved. -/
def State.canSave (s : State) (v : Nat) : Bool :=
  let x := s.vf v
  x.ctx == 2 && decide (x.rung < 3) && !((s.coresOf v).isEmpty) &&
    (s.coresOf v).all (s.coreSavable (x.rung == 2)) && !((s.launchesOf v).any (fun l => match s.launch l with
      | some y => y.tearing
      | none => false))

/-- A thread as saved: y0 to y3 unwritten, short results landed (R291, R297). -/
def Thread.saved (t : Thread) : Thread := { t with y0 := [], y1 := [], y2 := [], y3 := [], early := [], stall := false }

/-- A request as saved: it replays on resume (R180). -/
def Req.saved (r : Req) : Req := { r with stage := .walk }

/-- One core of a save, with its Jacquard slots and words, claims and tiles (R230, R255, R366). -/
def State.savedCore (s : State) (k : Nat) : SavedCore :=
  let c := s.core k
  let d := s.cluster (clusterOf k)
  let claims := d.claims.filter (fun p => !(p.2.state == 0) && p.2.core == k)
  let live (r : Req) : Bool := match r.kind with | .prefetch _ => false | _ => true
  let fe := c.fe.map (fun (f : FrontEnd) => { f with early := [] })
  let slots := (d.jslots.filter (fun p => p.1 / 64 == k % 4)).map (fun p => (p.1, ({ p.2 with stalled := none } : JSlot)))
  let rows := AMap.mapVals c.rows (fun (r : Row) => { r with fly := [] })
  ⟨k, { c with reqs := (c.reqs.filter live).map Req.saved, threads := AMap.mapVals c.threads Thread.saved, fe := fe, rows := rows,
               bufOld := [], l1 := [], tlb := [] },
    slots, claims, d.accs.filter (fun p => AMap.has claims (p.1 % 8)), d.jwords.filter (fun w => w.core == k)⟩

/-- Rounds up to a multiple of 4 KiB. -/
def pad4k (n : Nat) : Nat := (n + 4095) / 4096 * 4096

/-- The bytes of a core's save (R366): its stated sections, and `var` for those it states no size for (log 43). Zeros pad it
(R367). -/
def savedSize (scratchKiB var : Nat) (x : SavedCore) : Nat :=
  let held := x.core.damask.filter (fun e => !(e.2.state == 0))
  256 + 1024 + 80 * x.core.threads.length + 32 * x.core.rows.length + 80 * held.length + 4096 + 8192 +
    1024 * scratchKiB + 64 * 48 + 16384 * x.claims.length + 136 * 1024 + var

/-- The offset of a new save: the lowest multiple of 2 MiB at or above 2 MiB at which it fits between the saves held (R367). -/
def State.savePlace (s : State) (p : Part) (len : Nat) : Option Nat :=
  let held := s.saves.filter (fun x => p.vfmask.getLsbD x.1)
  let at_ (i : Nat) : Nat := 2 ^ 21 * (i + 1)
  let fits (i : Nat) : Bool :=
    decide (at_ i + len ≤ p.saveSize) &&
      held.all (fun x => decide (at_ i + len ≤ x.2.offset) || decide (x.2.offset + x.2.length ≤ at_ i))
  (lowest fits 4096 0).map at_

/-- A directory entry (R367). -/
def dirEntry (offset length ncore : Nat) (valid : Bool) : List Byte :=
  leBytes offset 8 ++ leBytes length 8 ++ leBytes ncore 4 ++ leBytes (if valid then 1 else 0) 1 ++ List.replicate 43 0#8

/-- The unapplied pool lanes of a VF, and the VF's messages by die and queue (R323, R342). -/
def State.lanesOf (s : State) (v : Nat) : List (Nat × PoolLane) :=
  (s.vf v).pools.flatMap (fun p => p.2.queue.map (fun l => (p.1, { l with copying := none })))
def State.msgsOf (s : State) (v : Nat) : List (Nat × Nat × XqMsg) :=
  s.dies.flatMap (fun d => d.2.xq.flatMap (fun q => (q.2.filter (fun m => m.vf == v)).map (fun m => (d.1, q.1, m))))

/-- The pool lanes and messages of a VF go into its save. -/
def State.takeOut (s : State) (v : Nat) : State :=
  let x := s.vf v
  let pools := AMap.mapVals x.pools (fun (p : Pool) => { p with queue := [] })
  let dies := AMap.mapVals s.dies (fun (d : Die) => { d with xq := AMap.mapVals d.xq (fun q => q.filter (fun m => !(m.vf == v))) })
  { s.setVf v { x with pools := pools } with dies := dies }

/-- Translation entries of a VF in a cluster that nothing waits on any more close (R180). -/
def State.closeIdle (s : State) (v cl : Nat) : State :=
  ((s.cluster cl).xtab.filter (fun p => p.2.vf == v)).foldl (fun s p => if s.attached cl p.1 = 0 then s.closeX cl p.1 else s) s

/-- The bytes of a save from an offset in it: core saves of these lengths, whose layout within is free, each with its padding
(R367, log 43). -/
def savedBytes (draw : Nat) : Nat → List Nat → List Byte
  | _, [] => []
  | at_, n :: ns =>
    (List.range n).map (fun i => (Config.freeWord draw (at_ + i) 366).setWidth 8) ++ List.replicate (pad4k n - n) 0#8 ++
      savedBytes draw (at_ + pad4k n) ns

/-- The bytes of a save with padding. -/
def savedLen (lens : List Nat) : Nat := lens.foldl (fun a n => a + pad4k n) 0

/-- The context leaves its cores, and its save, of core saves of these lengths, takes the place given (R285, R366, R367). -/
def State.saveAt (s : State) (draw v : Nat) (p : Part) (cores : List Nat) (cs : List SavedCore) (off : Nat) (lens : List Nat) : State :=
  let x := s.vf v
  let len := savedLen lens
  let sv : Saved := ⟨off, len, lens, cs, s.msgsOf v, s.lanesOf v, x.perfcnt⟩
  let s1 := cores.foldl State.freeCore (s.takeOut v)
  let s2 := (dedup (cores.map clusterOf)).foldl (fun s cl => s.closeIdle v cl) s1
  let s3 := { s2 with launches := AMap.mapVals s2.launches (fun l => if l.vf = v then { l with placed := [] } else l),
                      saves := AMap.put s2.saves v sv }
  let s4 := s3.physPut (p.saveBase + off) (savedBytes draw 0 lens)
  let s5 := (s4.physPut (p.saveBase + 64 * v) (dirEntry off len cs.length false)).physPut (p.saveBase + 64 * v + 20) [1#8]
  let y := s5.vf v
  s5.setVf v { y with ctx := 3 }

/-- CONTEXT_SAVE (R365 to R367): a halted and drained context is written to the SAVE region; one that fits nowhere is torn down
(R387). -/
def execContextSave (vf : Nat) (s : State) : Host.Outcome State Fault Refusal :=
  let draw := s.cur.draw
  if !(s.canSave vf) then .next s
  else
    match s.partRec vf with
    | none => .next s
    | some (_, p) =>
      let cores := s.coresOf vf
      let cs := cores.map s.savedCore
      let scratch (x : SavedCore) : Nat := match s.header x.coreIdx with | some h => h.scratchKiB | none => 0
      let many := 1 + (s.msgsOf vf).length + (s.lanesOf vf).length
      let var (x : SavedCore) : Nat := (Config.freeWord draw x.coreIdx 43).toNat % (32769 + 64 * many)
      let lens := cs.map (fun x => savedSize (scratch x) (var x) x)
      match s.savePlace p (savedLen lens) with
      | none => .next (s.killCtx draw vf)
      | some off => .next (s.saveAt draw vf p cores cs off lens)

/-! ## Resume (R368) -/

/-- The cores of a save that form one placed instance. -/
def Saved.instOf (x : Saved) (c : SavedCore) : List SavedCore :=
  x.cores.filter (fun y => y.core.launch == c.core.launch && y.core.inst == c.core.inst)

/-- Whether the instance of a saved core can take cores from `first` upward: all free, its matrix indices FREE there (R255). -/
def State.instFits (s : State) (part first : Nat) (cs : List SavedCore) : Bool :=
  cs.all (fun c =>
    let k := first + c.core.index
    s.coreFree part k && c.claims.all (fun p => ((s.cluster (clusterOf k)).claim p.1).state == 0))

/-- A thread as it goes on; nothing holds its next group back. -/
def Thread.resumed (now : Nat) (t : Thread) : Thread :=
  { t with hold := if t.hold = .halted then .run else t.hold, last := now - 3, busy := 0, copyAt := 0 }

/-- A slot number of a cluster as the core it belongs to moves from place `old` to place `new` of its cluster. -/
def shiftSlot (old new n : Nat) : Nat := n + 64 * (new % 4) - 64 * (old % 4)

/-- An engine word as its core moves. -/
def EngineWord.moved (old new : Nat) (w : EngineWord) : EngineWord :=
  { w with core := new, slot := shiftSlot old new w.slot,
           back := !w.atRest,
           op := match w.op with | .nedge t r => .nedge (shiftSlot old new t) r | op => op }

/-- The greatest of a list and a start. -/
def maxOf (n : Nat) (xs : List Nat) : Nat := xs.foldl Nat.max n

/-- Restores one saved core onto the core that receives it: the table with its GEN values and binding tag, rows by slice, claims
to the same indices with their tiles, MMAs posted anew; its running launches wait for a channel (R239, R255, R285, R286, R368). -/
def State.restoreCore (s : State) (first : Nat) (x : SavedCore) : State :=
  let k := first + x.core.index
  let old := s.core k
  let cl := clusterOf k
  let d := s.cluster cl
  let move (n : Nat) : Nat := shiftSlot x.coreIdx k n
  let running := (AMap.keys (x.jslots.filter (fun p => p.2.state == 3))).map move
  let c : Core :=
    { x.core with
      threads := AMap.mapVals x.core.threads (Thread.resumed s.now), l1 := old.l1, tlb := old.tlb, clock := s.now,
      fe := x.core.fe.map (fun (f : FrontEnd) => { f with last := s.now - 3 }),
      nextReq := Nat.max x.core.nextReq old.nextReq, nextPend := Nat.max x.core.nextPend old.nextPend,
      nextM := Nat.max x.core.nextM old.nextM, nextPool := Nat.max x.core.nextPool old.nextPool,
      resumeReq := Nat.max x.core.nextReq old.nextReq, resumePool := Nat.max x.core.nextPool old.nextPool,
      resumeM := Nat.max x.core.nextM old.nextM, resumeJ := running }
  let slots := x.jslots.map (fun p =>
    (move p.1, ({ p.2 with succ := p.2.succ.map move, waitCh := p.2.state == 3 && !(p.2.kind == 0) } : JSlot)))
  let d1 : Cluster :=
    { d with
      jslots := d.jslots ++ slots, jwords := d.jwords ++ x.jwords.map (EngineWord.moved x.coreIdx k),
      nextLaunch := maxOf d.nextLaunch (slots.filterMap (fun p => p.2.queued.map (fun n => n + 1))),
      claims := x.claims.foldl (fun m p => AMap.put m p.1 { p.2 with core := k }) d.claims,
      accs := x.accs.foldl (fun m p => AMap.put m p.1 p.2) (d.accs.filter (fun p => !(AMap.has x.claims (p.1 % 8)))),
      nextAge := maxOf d.nextAge (x.core.mwords.map (fun w => w.age + 1)) }
  (x.core.mwords.filter (fun w => w.isMma && w.age == 0)).foldl (fun s w => s.postMma k w) ((s.setCluster cl d1).setCore k c.acquire)

/-- Places the instances of a save one after another; none where one finds no place. The result holds old and new core
numbers. -/
def State.placeSaved (part : Nat) (sv : Saved) : List SavedCore → State → List (Nat × Nat) → Option (State × List (Nat × Nat))
  | [], s, m => some (s, m)
  | c :: cs, s, m =>
    if AMap.has m c.coreIdx then State.placeSaved part sv cs s m
    else
      let g := sv.instOf c
      match c.core.launch with
      | none => none
      | some l =>
        match s.launch l with
        | none => none
        | some x =>
          let n := x.hdr.cores
          match lowest (fun i => s.instFits part (n * i) g) (512 / n) 0 with
          | none => none
          | some i =>
            let s1 := g.foldl (fun s y => s.restoreCore (n * i) y) s
            let s2 := s1.setLaunch l { x with placed := x.placed ++ [(c.core.inst, n * i)] }
            State.placeSaved part sv cs s2 (m ++ g.map (fun y => (y.coreIdx, n * i + y.core.index)))

/-- The pool lanes of a save return to their agents. -/
def State.putLanes (s : State) (v : Nat) (m : List (Nat × Nat)) (ls : List (Nat × PoolLane)) : State :=
  ls.foldl (fun s p => match s.pool v p.1 with
    | some q => s.setPool v p.1 { q with queue := q.queue ++ [{ p.2 with core := AMap.lookD m p.2.core p.2.core }] }
    | none => s) s

/-- The messages of a save return to their queues. -/
def State.putMsgs (s : State) (ms : List (Nat × Nat × XqMsg)) : State :=
  ms.foldl (fun s p =>
    let d := s.die p.1
    s.setDie p.1 { d with xq := AMap.put d.xq p.2.1 (AMap.lookD d.xq p.2.1 [] ++ [p.2.2]) }) s

/-- The state with a saved context resumed; none where it finds no cores. -/
def State.resume (s : State) (v : Nat) : Option State :=
  if (s.vf v).ctx ≠ 3 ∨ s.cutting v = true then none
  else
    match AMap.look s.saves v, s.partRec v with
    | some sv, some (i, _) =>
      match State.placeSaved i sv sv.cores s [] with
      | none => none
      | some (s1, m) =>
        let s2 := ((s1.putLanes v m sv.lanes).putMsgs sv.msgs).dropSave v
        let x := s2.vf v
        some (s2.setVf v { x with ctx := 1, rung := 0, perfcnt := sv.perf, perfnew := [] })
    | _, _ => none

/-- CONTEXT_RESUME (R365, R368). -/
def execContextResume (vf : Nat) (s : State) : Host.Outcome State Fault Refusal :=
  match s.resume vf with
  | some s1 => .next s1
  | none => .next s

/-! ## The timers (R364, R365) -/

/-- Whether another VF of the partition has a ready launch that finds no free placement. -/
def State.crowded (s : State) (v : Nat) : Bool :=
  (List.range 64).any (fun w => !(w == v) && (s.partOfVf w).isSome && s.partOfVf w == s.partOfVf v &&
    (s.readyOf w).any (fun c => (s.placeCand c).isNone))

/-- SLICE_EXPIRY: the soft request is made, or the slice starts again. -/
def execSliceExpiry (vf : Nat) (s : State) : Host.Outcome State Fault Refusal :=
  let x := s.vf vf
  if x.ctx = 1 ∧ sliceOfTimers x.pretimers ≠ 0 ∧ s.crowded vf = true then .next (s.softRequest vf) else .next s

/-- GRACE_EXPIRY: the forced halt takes the threads that remain. -/
def execGraceExpiry (vf : Nat) (s : State) : Host.Outcome State Fault Refusal :=
  let x := s.vf vf
  if x.ctx = 2 ∧ x.rung = 1 then .next (s.forceHalt vf) else .next s

/-- KILL_EXPIRY: the context is torn down; KILL lies above GRACE, so the forced halt has come, or the save has begun (R364). -/
def execKillExpiry (vf : Nat) (s : State) : Host.Outcome State Fault Refusal :=
  let x := s.vf vf
  if x.ctx = 2 ∧ (x.rung = 2 ∨ (x.rung = 1 ∧ s.canSave vf = true)) then .next (s.killCtx s.cur.draw vf) else .next s

end Sys2Proof.Machine
end

