-- ==== Sys2Proof/Machine/MemoryEvents.lean ====
section
/-! DEFINITION. The events of requests in flight and of page migration (R176, R184, R190, R205, R208). An event whose
condition does not hold changes nothing. -/

namespace Sys2Proof.Machine

open Sys2Proof

/-- Applies an effect to a request where its condition holds. -/
def onReq (s : State) (core id : Nat) (ok : Req → Bool) (f : Req → State) : Host.Outcome State Fault Refusal :=
  match (s.core core).req id with
  | some r => if ok r then .next (f r) else .next s
  | none => .next s

/-- TRANSLATION_WALK (R176, R178). -/
def execTranslationWalk (core req : Nat) (s : State) : Host.Outcome State Fault Refusal :=
  onReq s core req Req.canWalk (fun r => s.walkReq core r)

/-- LOAD_DATA_ARRIVAL (R184). -/
def execLoadDataArrival (core req : Nat) (s : State) : Host.Outcome State Fault Refusal :=
  onReq s core req (s.core core).canArrive (fun r => s.arriveLoad core r)

/-- STORE_REGISTRATION (R184). -/
def execStoreRegistration (core req : Nat) (s : State) : Host.Outcome State Fault Refusal :=
  onReq s core req (s.canRegister core) (fun r => s.registerStore core r)

/-- STORE_GRANT (R184). -/
def execStoreGrant (core req : Nat) (s : State) : Host.Outcome State Fault Refusal :=
  onReq s core req Req.canGrant (fun r => s.grantStore core r)

/-- ATOMIC_PERFORMANCE (R205). -/
def execAtomicPerformance (core req : Nat) (s : State) : Host.Outcome State Fault Refusal :=
  onReq s core req (s.canPerform core) (fun r => match r.kind with
    | .atomic op .. => s.performAtomic core r op
    | _ => s)

/-- ATOMIC_RESULT_ARRIVAL (R208). -/
def execAtomicResultArrival (core req : Nat) (s : State) : Host.Outcome State Fault Refusal :=
  onReq s core req Req.canReturn (fun r => match r.kind with
    | .atomic _ _ ret acq => s.returnAtomic core r ret acq
    | _ => s)

/-! ## Migration (R190) -/

/-- Moves one physical line: what Brocade holds of it moves too, and requests in flight follow it. -/
def State.moveLine (s : State) (old new : Nat) : State :=
  let s1 := (s.brocade.filter (fun l => l.pa == some old)).foldl State.writeBack s
  let move (a : Nat) : Nat := if a = old then new else a
  let sectors (s : State) (i : Nat) : State :=
    { s with poison := match AMap.look s.poison (old / 16 + i) with
        | some c => AMap.put s.poison (new / 16 + i) c
        | none => AMap.del s.poison (new / 16 + i) }
  let s2 := (List.range 4).foldl sectors { s1 with mem := s1.mem.putBytes new (s1.mem.bytes old 64) }
  let line (l : BLine) : BLine := if l.pa = some old then { l with pa := some new, dirty := 0#4 } else l
  let req (r : Req) : Req := { r with pas := r.pas.map move }
  { s2 with brocade := s2.brocade.map line,
            cores := AMap.mapVals s2.cores (fun c => { c with reqs := c.reqs.map req }) }

/-- The end of a migration: the leaf names the new frame and tier, and the page's old translations go (R190). -/
def State.endMigration (s : State) (m : Migration) : State :=
  let e := leNat (s.physBytes m.leafAt 8)
  let e1 := e - bits e 51 8 * 256 - bits e 60 59 * 2 ^ 59 + m.new + m.tier * 2 ^ 59
  (s.physPut m.leafAt (leBytes e1 8)).invalidatePage m.vf (m.page * 65536)

/-- Whether a frame is a checkpoint piece that has yet to be drained (R371). -/
def State.undrained (s : State) (pa : Nat) : Bool :=
  s.parts.any (fun p => p.2.pieces.any (fun x => x.pa == pa / 65536 * 65536 && !x.drained))

/-- Whether a migration's next line can be copied: its page is drained, and what it writes is not frozen (R371). -/
def State.canMigrate (s : State) (m : Migration) : Bool :=
  !(s.undrained m.old) && !(s.frozen (m.new + 64 * m.p)) && !(s.frozen m.leafAt)

/-- MIGRATION_LINE_COPY (R190). -/
def execMigrationLineCopy (die entry : Nat) (s : State) : Host.Outcome State Fault Refusal :=
  match (s.die die).mig.drop entry with
  | [] => .next s
  | m :: _ =>
    if !(s.canMigrate m) then .next s
    else
      let s1 := s.moveLine (m.old + 64 * m.p) (m.new + 64 * m.p)
      let d := s1.die die
      if m.p + 1 < 1024 then .next (s1.setDie die { d with mig := setAt d.mig entry { m with p := m.p + 1 } })
      else .next ((s1.setDie die { d with mig := d.mig.take entry ++ d.mig.drop (entry + 1) }).endMigration m)

end Sys2Proof.Machine
end

