-- ==== Sys2Proof/Machine/Checkpoint.lean ====
section
/-! DEFINITION. Checkpoints of a partition: the cut (R370), frozen pieces (R371), the drain (R372, R396), the restore (R374). -/

/-- The register part of an image as bytes (R372): one block for each VF, of a layout and size that the spec does not give
(log 45). -/
opaque Sys2Proof.Config.registerPart : Sys2Proof.Machine.AMap Sys2Proof.Machine.Saved →
  Sys2Proof.Machine.AMap Sys2Proof.Machine.VF → List Sys2Proof.Byte

/-- Byte `i` of an image's header, which states these: partition, DEVCAP, VF count, piece count and digest (R372, log 45). -/
opaque Sys2Proof.Config.imageHeader : Nat → Sys2Proof.Word → Nat → Nat → List Sys2Proof.Byte → Nat → Sys2Proof.Byte

/-- Byte `i` of a piece's entry in an image's table, which states its physical address, VF and tier (R372, log 45). -/
opaque Sys2Proof.Config.pieceEntry : Nat → Nat → Nat → Nat → Sys2Proof.Byte

/-- What the bytes of a buffer say as an image that this device did not drain, by the same layout (R374, log 46). -/
opaque Sys2Proof.Config.readImage : List Sys2Proof.Byte → Option Sys2Proof.Machine.CkImage

namespace Sys2Proof.Machine

open Sys2Proof

/-! ## The cut (R370) -/

/-- The VFs that a checkpoint of a partition covers: all but the system VF. -/
def State.covered (s : State) (part : Nat) : List Nat :=
  match AMap.look s.parts part with
  | some p => (s.vfsOf part).filter (fun v => !(v == p.sysvf))
  | none => []

/-- Whether CKPT.cut and CKPT.restore start in a STATE (R383). -/
def ckIdle (n : Nat) : Bool := n == 0 || n == 3 || n == 4

/-- Step 1: STATE becomes 1 and the soft request goes to every running context. -/
def State.startCut (s : State) (part : Nat) : State :=
  match AMap.look s.parts part with
  | none => s
  | some p =>
    if !(ckIdle p.ckState) then s
    else
      let s1 := s.setPart part { p with ckState := 1, ckErr := 0, pieces := [], ckDrained := 0, ckImage := none }
      (s1.covered part).foldl (fun s v => s.softRequest v) s1

/-- CKPT.abort (R383). -/
def State.abortCkpt (s : State) (part : Nat) : State :=
  match AMap.look s.parts part with
  | some p => if p.ckState = 1 ∨ p.ckState = 2 then s.failCkpt part 3 else s
  | none => s

/-! ## The sweep (R370, R371) -/

/-- The entries that a table of a level holds: 1,024, 1,024, 2,048 or 32 (R177). -/
def levelEntries (level : Nat) : Nat := if level < 2 then 1024 else if level = 2 then 2048 else 32

/-- Every leaf below a table. -/
def State.leaves (s : State) (v : Nat) : Nat → Nat → Nat → List Leaf
  | 0, _, _ => []
  | n + 1, level, tbl =>
    (List.range (levelEntries level)).flatMap (fun i => match s.readEntry v level tbl i with
      | .bad => []
      | .leaf l => [l]
      | .table t => State.leaves s v n (level + 1) t)

/-- The 64 KiB pieces that a VF's page tables map. -/
def State.mapped (s : State) (v : Nat) : List Piece :=
  let r := (s.vf v).ptroot.toNat
  let root := bits r 51 13 * 8192
  if tbit r 0 && s.vfOwns v root then
    (s.leaves v 4 0 root).flatMap (fun l => (List.range (l.size / 65536)).map (fun i => ⟨l.pa + 65536 * i, v, l.tier, false, none⟩))
  else []

/-- Pieces by physical address, each once. -/
def onePer : List Piece → List Nat → List Piece
  | [], _ => []
  | p :: ps, seen => if seen.contains p.pa then onePer ps seen else p :: onePer ps (p.pa :: seen)

/-- The bytes of a piece as the drain takes them: its reserve copy where one exists (R372). -/
def State.pieceBytes (s : State) (p : Part) (x : Piece) : List Byte :=
  match x.reserve with
  | some n => s.physBytes (p.reservePa n) 65536
  | none => s.physBytes x.pa 65536

/-- Whether step 2 of the cut can come: every covered context is saved or none, and no page of theirs is moving (log 44). -/
def State.canSweep (s : State) (part : Nat) : Bool :=
  match AMap.look s.parts part with
  | some p =>
    let vs := s.covered part
    p.ckState == 1 && vs.all (fun v => (s.vf v).ctx == 0 || (s.vf v).ctx == 3) &&
      !(s.dies.any (fun d => d.2.mig.any (fun m => vs.contains m.vf)))
  | none => false

/-- Free bytes: what the spec gives no layout for (log 45). -/
def freeBytes (draw k n : Nat) : List Byte := (List.range n).map (fun i => (Config.freeWord draw i k).setWidth 8)

/-- The buffer of CKPTBUF: its host address and size in bytes (R369). -/
def Part.bufBase (p : Part) : Nat := bits p.ckBuf.toNat 51 12 * 4096
def Part.bufSize (p : Part) : Nat := bits p.ckBuf.toNat 63 52 * 2 ^ 32

/-- CHECKPOINT_SWEEP (R370 to R372): the register part is formed, every mapped piece is frozen, and the drain can start; an
image larger than the buffer fails the cut with ERR 2. -/
def execCheckpointSweep (part : Nat) (s : State) : Host.Outcome State Fault Refusal :=
  match AMap.look s.parts part with
  | none => .next s
  | some p =>
    if !(s.canSweep part) then .next s
    else
      let vs := s.covered part
      let ps := onePer (vs.flatMap s.mapped) []
      let own {α : Type} (m : AMap α) : AMap α := m.filter (fun q => vs.contains q.1)
      let regs := Config.registerPart (own s.saves) (own s.vfs)
      if p.bufSize < 4096 + regs.length + 16 * ps.length + 65536 * ps.length then .next (s.failCkpt part 2)
      else
        let tail := regs ++ ps.flatMap (fun x => (List.range 16).map (Config.pieceEntry x.pa x.vf x.tier))
        let digest := Config.sha3 (tail ++ ps.flatMap (s.pieceBytes p))
        let front := (List.range 4096).map (Config.imageHeader part s.devcap vs.length ps.length digest) ++ tail
        let n := s.images.length
        let image : CkImage :=
          ⟨part, s.devcap, own s.saves, own s.vfs, s.launches.filter (fun q => vs.contains q.2.vf), ps, front, digest⟩
        .next ({ s with images := AMap.put s.images n image }.setPart part
          { p with ckState := 2, pieces := ps, ckDrained := 0, ckImage := some n })

/-- The requests of a core that wait for a frozen piece to be copied. -/
def State.heldOn (s : State) (pa : Nat) : Bool :=
  s.cores.any (fun c => c.2.reqs.any (fun r => r.stage == .ready && r.writes && s.held r && r.pas.any (fun x => x / 65536 * 65536 == pa)))

/-- PIECE_RESERVE_COPY (R371): a frozen piece that a write waits on is copied into the reserve. -/
def execPieceReserveCopy (part piece : Nat) (s : State) : Host.Outcome State Fault Refusal :=
  match AMap.look s.parts part with
  | some p => (match p.pieces.drop piece with
    | x :: _ => if s.heldOn x.pa then .next (s.reservePiece part piece) else .next s
    | [] => .next s)
  | none => .next s

/-! ## The drain (R372, R396) -/

/-- The checkpoint is complete: STATE 3 and the partition's completion interrupt (R372, R397). -/
def State.finishCkpt (s : State) (part : Nat) : State :=
  match AMap.look s.parts part with
  | none => s
  | some p =>
    if p.ckState = 2 ∧ p.pieces.all (fun x => x.drained) = true then (s.setPart part { p with ckState := 3 }).send (.msixVf p.sysvf 3) else s

/-- Marks a piece drained, which unfreezes it. -/
def State.pieceDrained (s : State) (part i : Nat) : State :=
  match AMap.look s.parts part with
  | none => s
  | some p =>
    match p.pieces.drop i with
    | x :: _ => s.setPart part { p with pieces := setAt p.pieces i { x with drained := true } }
    | [] => s

/-- The image of a partition's running checkpoint. -/
def State.image (s : State) (p : Part) : Option CkImage :=
  match p.ckImage with
  | some n => AMap.look s.images n
  | none => none

/-- CHECKPOINT_DRAIN (R372): first the header, register part and piece table reach the buffer, then a piece at a time; in
host-assisted mode each piece is posted to the host in place of being streamed (R396). -/
def execCheckpointDrain (part : Nat) (s : State) : Host.Outcome State Fault Refusal :=
  match AMap.look s.parts part with
  | none => .next s
  | some p =>
    match s.image p with
    | none => .next s
    | some m =>
      if p.ckState ≠ 2 then .next s
      else
        let next := { p with ckDrained := p.ckDrained + 1 }
        if p.ckDrained = 0 then
          .next (({ s with hostMem := s.hostMem.putBytes p.bufBase m.front }.setPart part next).finishCkpt part)
        else
          let i := p.ckDrained - 1
          match p.pieces.drop i with
          | [] => .next s
          | x :: _ =>
            if p.funcmode.getLsbD 2 then .next ((s.setPart part next).postHa part (.pieces i 1))
            else
              let s1 := { s with hostMem := s.hostMem.putBytes (p.bufBase + m.front.length + 65536 * i) (s.pieceBytes p x) }
              .next (((s1.setPart part next).pieceDrained part i).finishCkpt part)

/-- Whether the drain has a piece to stream or to post. -/
def Part.canDrain (p : Part) : Bool := p.ckState == 2 && decide (p.ckDrained ≤ p.pieces.length)

/-! ## The restore (R374) -/

/-- Tears the context of a VF down without failing its nodes. -/
def State.tearContext (s : State) (draw v : Nat) : State :=
  let s1 := (s.launchesOf v).foldl (fun s l => s.tearLaunch draw l) s
  let s2 := if AMap.has s1.saves v then s1.dropSave v else s1
  s2.settleCtx v

/-- The bytes of an image in the buffer. -/
def State.imageBytes (s : State) (p : Part) (m : CkImage) : List Byte :=
  s.hostMem.bytes p.bufBase (m.front.length + 65536 * m.pieces.length)

/-- The image that the buffer may hold: one that this device drained, its bytes before the pieces unchanged, or what the bytes
say of one that it did not (log 46). A buffer too small for a header holds none. -/
def State.imageAt (s : State) (p : Part) : Option CkImage :=
  if p.bufSize < 4096 then none
  else
    match s.images.reverse.find? (fun q => (s.imageBytes p q.2).take q.2.front.length == q.2.front) with
    | some q => some q.2
    | none => Config.readImage (s.hostMem.bytes p.bufBase p.bufSize)

/-- The image of the buffer and the bytes of its pieces, where its partition, its device and its digest are right (R374). -/
def State.imageIn (s : State) (part : Nat) (p : Part) : Option (CkImage × List Byte) :=
  match s.imageAt p with
  | none => none
  | some m =>
    let bytes := s.imageBytes p m
    if m.part == part && m.devcap == s.devcap && Config.sha3 (bytes.drop 4096) == m.digest then some (m, bytes.drop m.front.length)
    else none

/-- Writes the pieces back through their home slices. -/
def State.writePieces : List Piece → List Byte → State → State
  | [], _, s => s
  | x :: xs, bs, s => State.writePieces xs (bs.drop 65536) (s.physPut x.pa (bs.take 65536))

/-- The tensor table of a VF after a restore: the image's entries under generations advanced from those of the device (R273,
R374). -/
def restoredTensors (img cur : AMap Tensor) : AMap Tensor :=
  let keys := dedup (AMap.keys img ++ AMap.keys cur)
  keys.map (fun t =>
    let c := AMap.lookD cur t Tensor.reset
    (t, { (AMap.lookD img t Tensor.reset) with gen := (c.gen + 1) % 4096, late := c.late }))

/-- Installs a VF's part of the register part: tensors, pools, quotas, PRETIMERS and TRAPBASE (R370, R374). -/
def State.installVf (s : State) (v : Nat) (m : VF) : State :=
  let x := s.vf v
  s.setVf v { x with
    tensors := restoredTensors m.tensors x.tensors, pools := m.pools, quota := m.quota, borrow := m.borrow, used := m.used,
    pretimers := m.pretimers, trapbase := m.trapbase }

/-- Installs a VF's save where it fits (R367, R387). -/
def State.installSave (s : State) (draw part v : Nat) (sv : Saved) : State :=
  match AMap.look s.parts part with
  | none => s
  | some p =>
    match s.savePlace p sv.length with
    | none => s
    | some off =>
      let s1 := { s with saves := AMap.put s.saves v { sv with offset := off } }
      let s2 := s1.physPut (p.saveBase + off) (savedBytes draw 0 sv.lens)
      let s3 := s2.physPut (p.saveBase + 64 * v) (dirEntry off sv.length sv.cores.length true)
      let x := s3.vf v
      s3.setVf v { x with ctx := 3, rung := 0 }

/-- Installs an image. -/
def State.installImage (s : State) (draw part : Nat) (m : CkImage) (bytes : List Byte) : State :=
  let s1 := State.writePieces m.pieces bytes s
  let vs := s1.covered part
  let blank : VF := VF.reset
  let s2 := vs.foldl (fun s v => s.installVf v (AMap.lookD m.vfs v blank)) s1
  let s3 := { s2 with launches := m.launches.foldl (fun ls p => AMap.put ls p.1 { p.2 with placed := [] }) s2.launches }
  (m.saves.filter (fun p => vs.contains p.1)).foldl (fun s p => s.installSave draw part p.1 p.2) s3

/-- CKPT.restore (R374): the covered contexts are torn down, the image is checked and put back. -/
def State.restoreCkpt (s : State) (draw part : Nat) : State :=
  match AMap.look s.parts part with
  | none => s
  | some p =>
    if !(ckIdle p.ckState) then s
    else
      let s1 := (s.covered part).foldl (fun s v => s.tearContext draw v)
        (s.setPart part { p with ckState := 5, ckErr := 0, pieces := [], ckImage := none })
      match s1.imageIn part p with
      | none => s1.onPart part (fun q => { q with ckState := 4, ckErr := 4 })
      | some (m, bytes) => (s1.installImage draw part m bytes).onPart part (fun q => { q with ckState := 3 })

end Sys2Proof.Machine
end

