-- ==== Sys2Proof/Machine/CrossLane.lean ====
section
/-! DEFINITION. The cross-lane words of majors 0x1D and 0x1E (R157 to R169). -/

namespace Sys2Proof.Machine

open Sys2Proof

/-! ## Shape -/

/-- A cross-lane word once it issues: the core as it issues, warp width, and the member mask. -/
structure Lanes where
  core : Core
  warp : Nat
  width : Nat
  mask : Nat
  run : List Nat
  act : List Nat

/-- The lanes of active members, ascending. -/
def Lanes.members (x : Lanes) : List Nat :=
  let ls := x.act.map (fun u => (x.core.th u).lane)
  (List.range x.width).filter (fun i => inMask x.mask i && ls.contains i)

/-- A cross-lane word: the mask of C3 (R157), the rule of R65, then results, predicates and FSTAT per active lane (R159).
`val` answers a value, a predicate value and FSTAT bits per thread. -/
def crossWord (f : Form) (s : State) (d : Reg) (srcs : List Reg) (pd : Option Nat) (pre : Lanes → Res Unit)
    (val : Lanes → Nat → Word × Bool × Nat) : Res State :=
  let n := s.cur.draw
  let width := s.width s.cur.core
  warpWord { f with c3 := true, helper := false } s srcs [d] (fun c act =>
    (c.memberMask s.cur width act s.ext.c3).bind fun m =>
    let gate : Res Unit := if m.2 then (if s.cur.head then .ok () else .waitAll) else collect65 c s.cur width act m.1 false
    let x : Lanes := ⟨c, s.cur.warp, width, m.1, s.cur.run, act⟩
    (if gate == .waitAll then gate else (pre x).bind fun _ => gate).bind fun _ =>
    (c.results n .y s.cur.run act d (fun u => (val x u).1)).map (fun c1 =>
      let c2 := match pd with
        | some p => act.foldl (fun (c : Core) u => c.updTh u (fun t => t.setPred p (val x u).2.1 6)) c1
        | none => c1
      c2.orAll act 6 (fun u => (val x u).2.2)))

/-- The predicate destination that SEL names, and whether SEL is defined (R160). -/
def predDst (e : BitVec 4) : Option Nat := if e.getLsbD 3 then some (e.toNat % 8) else none

/-- SEL of PERM, BCAST and ELECT. -/
def predSel (e : BitVec 4) : Bool := e.getLsbD 3

/-! ## PERM and BCAST (R162, R169) -/

/-- The value a source lane holds, as its own run reads it or another (R36, R169): none where it has no live thread, is parked, or lies beyond the width.
While both the old value and the new may be read, all readers of one word read the same of them (log 104). -/
def Lanes.read (x : Lanes) (draw : Nat) (a : Reg) (lane : Nat) : Option Word :=
  if x.width ≤ lane then none
  else (x.core.member x.warp lane).map (fun u => if x.run.contains u then x.core.readReg draw u a else x.core.peekReg draw u a)

/-- A source lane whose register may not be read decides ILLEGAL_OPERAND for its reader. -/
def Lanes.readable (x : Lanes) (a : Reg) (lane : Nat) : Bool :=
  if x.width ≤ lane then true
  else match x.core.member x.warp lane with | some u => if x.run.contains u then x.core.srcOk u a else x.core.peekOk u a | none => true

/-- PERM and BCAST: each active thread's source lane, from the B of the thread that names it; A is read in the source lane
alone. -/
def moveWord (s : State) (d a b : Reg) (srcs : List Reg) (namer : Lanes → Nat → Nat) : Res State :=
  let src (x : Lanes) (u : Nat) : Nat := (x.core.readReg s.cur.draw (namer x u) b).toNat
  crossWord { sel := predSel } s d srcs (predDst s.ext.sel)
    (fun x => match x.act.find? (fun u => !(x.core.srcOk (namer x u) b) || !(x.readable a (src x u))) with
      | some u => .trap (trapAt .illegalOperand (x.core.th u).lane)
      | none => .ok ())
    (fun x u => match x.read s.cur.draw a (src x u) with
      | some v => (v, false, 0)
      | none => (0#32, true, 0))

/-- PERM (R162). -/
def execPerm (_lk : Link) (d a b : Reg) (s : State) : Host.Outcome State Fault Refusal :=
  finish s (moveWord s d a b [b] (fun _ u => u))

/-- BCAST (R162). -/
def execBcast (_lk : Link) (d a b : Reg) (s : State) : Host.Outcome State Fault Refusal :=
  finish s (moveWord s d a b [] (fun x _ => x.act.headD 0))

/-! ## SCAN and REDL (R161, R163, R164) -/

/-- The combining operations of R161: the result and the FSTAT bits of one step. -/
def combine (op : Nat) (mode : Mode) (x y : Word) : Word × Nat :=
  let f (r : Nat × Nat) : Word × Nat := (BitVec.ofNat 32 r.1, r.2)
  if op = 0 then (x + y, 0)
  else if op = 1 then (if y.slt x then y else x, 0)
  else if op = 2 then (if x.slt y then y else x, 0)
  else if op = 3 then (if y.ult x then y else x, 0)
  else if op = 4 then (if x.ult y then y else x, 0)
  else if op = 5 then (x &&& y, 0)
  else if op = 6 then (x ||| y, 0)
  else if op = 7 then (x ^^^ y, 0)
  else if op = 8 then f (fp32.arith mode false (addNum mode (fp32.value x.toNat) (fp32.value y.toNat)))
  else if op = 9 then f (fp32.pick false x.toNat y.toNat)
  else f (fp32.pick true x.toNat y.toNat)

/-- The identities of R161. -/
def identity (op : Nat) : Word :=
  if op = 1 then 0x7FFFFFFF#32
  else if op = 2 then 0x80000000#32
  else if op = 3 then 0xFFFFFFFF#32
  else if op = 5 then 0xFFFFFFFF#32
  else if op = 8 then 0x80000000#32
  else if op = 9 then 0x7F800000#32
  else if op = 10 then 0xFF800000#32
  else 0#32

/-- An operand of SCAN or REDL: a constant of a float operation is that float (R45). -/
def Core.readComb (c : Core) (draw u op : Nat) (a : Reg) : Word :=
  if 8 ≤ op then BitVec.ofNat 32 (c.readF draw u fp32 a) else c.readReg draw u a

/-- The running values of SCAN over member lanes: per lane the value written and the bits so far. -/
def scanFrom (op : Nat) (mode : Mode) (excl : Bool) (val : Nat → Word) : List Nat → Word → Nat → AMap (Word × Nat)
  | [], _, _ => []
  | j :: js, r, b =>
    let q := combine op mode r (val j)
    let b1 := orBits b q.2
    (j, if excl then (r, b) else (q.1, b1)) :: scanFrom op mode excl val js q.1 b1

/-- One level of REDL's tree: neighbours combine in order. -/
def treeLevel (op : Nat) (mode : Mode) : List Word → List Word × Nat
  | x :: y :: t =>
    let q := combine op mode x y
    let r := treeLevel op mode t
    (q.1 :: r.1, orBits q.2 r.2)
  | t => (t, 0)

/-- REDL's tree over a power of two of leaves (R164). -/
def tree (op : Nat) (mode : Mode) : Nat → List Word → Word × Nat
  | 0, xs => (xs.headD 0#32, 0)
  | n + 1, xs =>
    let l := treeLevel op mode xs
    let r := tree op mode n l.1
    (r.1, orBits l.2 r.2)

/-- The form of SCAN and REDL: the B immediate and RM (R161). -/
def combForm (b : Reg) (scan : Bool) : Form :=
  let op := b.toNat % 16
  { legal := decide (op ≤ 10) && (scan || !(b.getLsbD 4)) && decide (b.toNat < 32), rm := op == 8 }

/-- SCAN (R163). -/
def execScan (_lk : Link) (d a b : Reg) (s : State) : Host.Outcome State Fault Refusal :=
  let op := b.toNat % 16
  finish s (crossWord (combForm b true) s d [a] none (fun _ => .ok ()) (fun x u =>
    let val (lane : Nat) : Word := x.core.readComb s.cur.draw (uidOf x.warp lane) op a
    let r := AMap.lookD (scanFrom op s.mode (b.getLsbD 4) val x.members (identity op) 0) (x.core.th u).lane (0#32, 0)
    (r.1, false, r.2)))

/-- REDL (R164). -/
def execRedl (_lk : Link) (d a b : Reg) (s : State) : Host.Outcome State Fault Refusal :=
  let op := b.toNat % 16
  finish s (crossWord (combForm b false) s d [a] none (fun _ => .ok ()) (fun x _ =>
    let ms := x.members
    let leaves := (List.range x.width).map (fun i => if ms.contains i then x.core.readComb s.cur.draw (uidOf x.warp i) op a else identity op)
    let r := tree op s.mode (Nat.log2 x.width) leaves
    (r.1, false, r.2)))

/-! ## VOTE, MATCH, ELECT, LANEMASK -/

/-- A 32-lane half of a lane set, as a word. -/
def halfMask (h : Nat) (p : Nat → Bool) : Word :=
  BitVec.ofNat 32 ((List.range 32).foldl (fun m i => if p (32 * h + i) then m + 2 ^ i else m) 0)

/-- VOTE (R165). -/
def execVote (_lk : Link) (d a b : Reg) (s : State) : Host.Outcome State Fault Refusal :=
  let k := b.toNat
  finish s (crossWord { legal := decide (k ≤ 4) } s d [a] none (fun _ => .ok ()) (fun x _ =>
    let ms := x.members
    let yes (i : Nat) : Bool := ms.contains i && !(x.core.readReg s.cur.draw (uidOf x.warp i) a == 0#32)
    let v : Word :=
      if k = 0 then (if ms.any yes then 1#32 else 0#32)
      else if k = 1 then (if ms.all yes then 1#32 else 0#32)
      else if k = 2 then halfMask 0 yes
      else if k = 3 then halfMask 1 yes
      else BitVec.ofNat 32 (ms.filter yes).length
    (v, false, 0)))

/-- MATCH (R166). -/
def execMatchLanes (_lk : Link) (d a : Reg) (s : State) : Host.Outcome State Fault Refusal :=
  finish s (crossWord { sel := fun e => decide (e.toNat ≤ 1) } s d [a] none (fun _ => .ok ()) (fun x u =>
    let val (i : Nat) : Word := x.core.readReg s.cur.draw (uidOf x.warp i) a
    let mine := x.core.readReg s.cur.draw u a
    (halfMask s.ext.sel.toNat (fun i => x.members.contains i && val i == mine), false, 0)))

/-- ELECT (R167). -/
def execElect (_lk : Link) (d : Reg) (s : State) : Host.Outcome State Fault Refusal :=
  finish s (crossWord { sel := predSel } s d [] (predDst s.ext.sel) (fun _ => .ok ()) (fun x u =>
    let won := x.members.head? == some (x.core.th u).lane
    (if won then 1#32 else 0#32, won, 0)))

/-- LANEMASK (R168). -/
def execLanemask (_lk : Link) (d a : Reg) (s : State) : Host.Outcome State Fault Refusal :=
  finish s (crossWord { sel := fun e => decide (e.toNat ≤ 4) } s d [a] none (fun _ => .ok ()) (fun x u =>
    let k := s.ext.sel.toNat
    let h := (x.core.readReg s.cur.draw u a).toNat % 2
    let l := (x.core.th u).lane
    let p (i : Nat) : Bool :=
      decide (i < x.width) &&
        (if k = 0 then s.cur.run.contains (uidOf x.warp i)
         else if k = 1 then x.core.liveLane x.warp i
         else if k = 2 then x.members.contains i && decide (i < l)
         else if k = 3 then x.members.contains i && decide (l < i)
         else !(x.core.liveLane x.warp i))
    (halfMask h p, false, 0)))

end Sys2Proof.Machine
end

