-- ==== Sys2Proof/Machine/PageService.lean ====
section
/-! DEFINITION. The page-fault service and migration words: FREC.xlate (R201) and MIGCTL (R202). -/

namespace Sys2Proof.Machine

open Sys2Proof

/-- FREC.xlate (R201): each active lane pops the oldest translation request of the cluster. -/
def execFrecXlate (_lk : Link) (d : Reg) (s : State) : Host.Outcome State Fault Refusal :=
  let f : Form := { helper := false, legal := s.cur.run.all (s.handlerRole s.cur.core), sel := fun x => x == 1#4 }
  finish s ((checkForm f s).bind fun _ =>
    let c0 := s.core s.cur.core
    (operandCheck c0 s.active (fun u => c0.blockOk u d 8) s.lowLane true).bind fun _ =>
    warpWordS f s [] [] (fun s1 act =>
      let k := s1.cur.core
      let pop (u : Nat) (s : State) : Res State :=
        let cl := s.cluster (clusterOf k)
        match cl.xpend with
        | [] => .wait false
        | e :: es =>
          let words := s.xlateWords (clusterOf k) e ++ [0#32, 0#32, 0#32]
          ((s.core k).writeBlock u d 4 words).map (fun c =>
            (s.setCluster (clusterOf k) { cl with xpend := es }).setCore k c)
      forEach pop act s1))

/-! ## MIGCTL (R202) -/

/-- Which pages a migration may take as its new frame: one of the partition's own, aligned, in the tier named (R177, R202).
-/
def State.frameOk (s : State) (v pa tier : Nat) : Bool :=
  pa % 65536 == 0 && decide (tier < 2) && tierOf pa == tier && s.vfOwns v pa

/-- The die whose memory controller holds a frame (R12, R388). -/
def dieOfFrame (pa : Nat) : Nat := if pa < 2 ^ 48 then pa / 2 ^ 36 / 3 else (pa - 2 ^ 48) / 2 ^ 42

/-- The migration of a page, in whichever die's table it stands. -/
def State.migrationOf (s : State) (v page : Nat) : Option Migration :=
  (s.dies.flatMap (fun d => d.2.mig)).find? (fun m => m.vf == v && m.page == page)

/-- MIGCTL.start on a page and a frame. -/
def State.migStart (s : State) (v page pa tier : Nat) : State × Word :=
  if (s.migrationOf v page).isSome then (s, 1#32)
  else
    match s.leafOf v (page * 65536) with
    | none => (s, 2#32)
    | some l =>
      if l.size ≠ 65536 ∨ s.frameOk v pa tier = false then (s, 2#32)
      else
        let die := dieOfFrame l.pa
        let d := s.die die
        if 32 ≤ d.mig.length then (s, 3#32)
        else (s.setDie die { d with mig := d.mig ++ [⟨v, page, l.pa, pa, tier, 0, l.entry⟩] }, 0#32)

/-- MIGCTL.query. -/
def State.migQuery (s : State) (v page : Nat) : Word :=
  match s.migrationOf v page with
  | some m => 0x80000000#32 ||| w32 m.p
  | none => 0#32

/-- Whether an entry of a cluster's table is open under a generation. -/
def State.entryLive (s : State) (cl e : Nat) (g : BitVec 8) : Bool :=
  match AMap.look (s.cluster cl).xtab e with
  | some x => x.gen == g
  | none => false

/-- A matrix store's element that stalls on an entry is dropped: no byte of it is written (R179, R267). -/
def MstWrite.abort (e : Nat) (m : MstWrite) : MstWrite :=
  if m.stalled = some e then { m with stalled := none, elems := m.elems.drop 1 } else m

/-- An abort of an entry: every line attached completes with XLATE in each of its lanes, and every element and grammar word
that waits on it fails (R179, R181, R233, R347). -/
def State.abortAll (s : State) (draw cl e : Nat) : State :=
  let lines := s.attachedReqs cl e
  let s1 := lines.foldl (fun s p =>
    ((s.onCore p.1 (fun c => (c.failLanes p.2 (some 4) p.2.lanes).delReq p.2.id)).reqsChanged p.1).countRecords s p.1) s
  let s2 := s1.abortGrammar draw cl e
  let c := s2.cluster cl
  let slots := AMap.mapVals c.jslots (fun j => if j.stalled = some e then j.abortElem else j)
  let s3 := s2.setCluster cl { c with jslots := slots }
  let cores := (List.range 4).map (fun i => 4 * cl + i)
  let s4 := cores.foldl (fun s k =>
    if AMap.has s.cores k then s.onCore k (fun c => { c with msts := c.msts.map (MstWrite.abort e) }) else s) s3
  let s5 := s4.closeX cl e
  (s5.grammarWaiters cl noEntry).foldl (fun s x => s.retryGrammar draw x.1 x.2.1 x.2.2.1 x.2.2.2) s5

/-- MIGCTL.resolve or MIGCTL.abort on an entry. -/
def State.serveEntry (s : State) (draw cl e : Nat) (g : BitVec 8) (resolve : Bool) : State × Word :=
  if s.entryLive cl e g then ((if resolve then s.resolveAll draw cl e else s.abortAll draw cl e), 0#32) else (s, 1#32)

/-- A form of MIGCTL: the operands A, B and x of the lowest active lane, the result to every active lane. `rel` is a form
that begins with a release of the thread: with several active lanes, the release of the lowest one's thread (log 119). -/
def migWord (s : State) (sel : BitVec 4) (d a b : Reg) (rel : Bool) (body : State → Nat → Nat → Nat → State × Word) :
    Res State :=
  let draw := s.cur.draw
  let f : Form :=
    { helper := false, c3 := true, legal := s.atPl1 || s.cur.run.all (s.handlerRole s.cur.core), sel := fun x => x == sel }
  let c3 := s.ext.c3
  warpWordS f s ([a, b] ++ (if c3 = 0#7 then [] else [c3])) [d] (fun s1 act => match act with
    | [] => .ok s1
    | u :: _ =>
      let k := s1.cur.core
      let c := s1.core k
      if rel && !(c.released u) then .waitAll
      else
        let x := if c3 = 0#7 then 0 else (c.readReg draw u c3).toNat
        let r := body s1 (c.readReg draw u a).toNat (c.readReg draw u b).toNat x
        ((r.1.core k).plainResults act d (fun _ => r.2)).map (fun c1 => r.1.setCore k c1))

/-- The page that A and x name. -/
def migPage (a x : Nat) : Nat := a + x % 16 * 2 ^ 32

/-- MIGCTL.start (R190, R202). -/
def execMigctlStart (_lk : Link) (d a b : Reg) (s : State) : Host.Outcome State Fault Refusal :=
  finish s (migWord s 0#4 d a b false (fun s1 va pa x =>
    s1.migStart (s1.vfOf s1.cur.core) (migPage va x) ((pa + x / 16 % 16 * 2 ^ 32) * 65536) (x / 256 % 4)))

/-- MIGCTL.query (R202). -/
def execMigctlQuery (_lk : Link) (d a b : Reg) (s : State) : Host.Outcome State Fault Refusal :=
  finish s (migWord s 1#4 d a b false (fun s1 va _ x => (s1, s1.migQuery (s1.vfOf s1.cur.core) (migPage va x))))

/-- MIGCTL.resolve (R179, R202). -/
def execMigctlResolve (_lk : Link) (d a b : Reg) (s : State) : Host.Outcome State Fault Refusal :=
  finish s (migWord s 2#4 d a b true (fun s1 e _ _ =>
    s1.serveEntry s1.cur.draw (clusterOf s1.cur.core) (e % 256) (BitVec.ofNat 8 (e / 256)) true))

/-- MIGCTL.abort (R179, R202). -/
def execMigctlAbort (_lk : Link) (d a b : Reg) (s : State) : Host.Outcome State Fault Refusal :=
  finish s (migWord s 3#4 d a b false (fun s1 e _ _ =>
    s1.serveEntry s1.cur.draw (clusterOf s1.cur.core) (e % 256) (BitVec.ofNat 8 (e / 256)) false))

/-- MIGCTL.invpg (R202). -/
def execMigctlInvpg (_lk : Link) (d a b : Reg) (s : State) : Host.Outcome State Fault Refusal :=
  finish s (migWord s 4#4 d a b false (fun s1 va _ x =>
    (s1.invalidatePage (s1.vfOf s1.cur.core) (migPage va x * 65536), 0#32)))

end Sys2Proof.Machine
end

