-- ==== Sys2Proof/Machine/Snapshots.lean ====
section
/-! DEFINITION. The snapshot and recruitment words of major 0x34 (R284 to R313). -/

namespace Sys2Proof.Machine

open Sys2Proof

/-! ## Handles (R284, R286) -/

/-- Whether a DROP of an earlier cycle names an entry that is still to be freed (R293). -/
def Core.dropped (c : Core) (e : Nat) : Bool := c.drops.any (fun d => d.1 == e && decide (d.2 < c.clock))

/-- The cause that a handle raises in a thread, if any (R286, R358). -/
def Core.handleCause (c : Core) (u : Nat) (h : Word) : Option Cause :=
  let e := c.entry (h.toNat % 4096)
  if h.extractLsb' 12 9 ≠ c.bind then some .foreignHandle
  else if h = 0#32 ∨ h.extractLsb' 21 3 ≠ 0#3 ∨ e.state ≠ 1 ∨ e.gen ≠ h.extractLsb' 24 8 ∨ c.dropped (h.toNat % 4096) = true then
    some .staleHandle
  else if e.trapEntry ∧ !(c.th u).pl then some .staleHandle
  else none

/-- The entry a handle names. -/
def entryOf (h : Word) : Nat := h.toNat % 4096

/-- The first active thread whose handle fails decides (R286). -/
def Core.handlesOk (c : Core) (act : List Nat) (h : Nat → Word) : Res Unit :=
  match act.find? (fun u => (c.handleCause u (h u)).isSome) with
  | none => .ok ()
  | some u =>
    match c.handleCause u (h u) with
    | some k => .trap ⟨k, (c.th u).lane, h u, none⟩
    | none => .ok ()

/-- A word of these forms: what it writes must be a main or operand register of the thread (R295). -/
def snapWord (f : Form) (s : State) (srcs : List Reg) (ok : Core → Nat → Bool) (body : State → List Nat → Res State) : Res State :=
  (checkForm f s).bind fun _ =>
    let c := s.core s.cur.core
    (operandCheck c s.active (fun u => ok c u) s.lowLane true).bind fun _ => warpWordS f s srcs [] body

/-- A word whose effect stays in its core. -/
def snapCore (f : Form) (s : State) (srcs : List Reg) (ok : Core → Nat → Bool) (body : Core → List Nat → Res Core) : Res State :=
  snapWord f s srcs ok (fun s1 act => (body (s1.core s1.cur.core) act).map (fun c => s1.setCore s1.cur.core c))

/-! ## SNAP (R296) -/

/-- Makes row `i` of an entry's map the entry's own; none where its slice has no free row. -/
def Core.ownEntry (c : Core) (e i : Nat) : Option Core :=
  let x := c.entry e
  let r := getAt x.map i 0
  if (c.row r).count ≤ 1 then some c
  else
    match c.freeRow (sliceOf r) with
    | none => none
    | some n =>
      let c1 := (c.copyRow r n).lower r
      some { c1 with damask := AMap.put c1.damask e { x with map := setAt x.map i n } }

/-- Writes a register of an entry. -/
def Core.writeEntry (c : Core) (e : Nat) (r : Reg) (v : Word) : Option Core :=
  match placeOf r with
  | none => some c
  | some p => (c.ownEntry e p.1).map (fun c1 => c1.setRowWord (getAt (c1.entry e).map p.1 0) p.2 v)

/-- SNAP in one thread where an entry and every row can be had. -/
def Core.snapThread (c : Core) (u : Nat) (vD vH : Reg) (pc : Word) (done : Nat) : Option Core :=
  match c.freeze u 1 vD pc false with
  | none => none
  | some (c1, e) =>
    let h := c1.handle e
    match c1.writeEntry e vH h with
    | none => none
    | some c2 =>
      match (c2.writeSlow u vH h done).bind (fun c3 => c3.writeSlow u vD 0#32 done) with
      | .ok c4 => some c4
      | _ => none

/-- A result that never waits for a row: where the register's row is shared and no row is free, the shared row takes it (R296,
log 60). -/
def Core.writeAnyway (c : Core) (u : Nat) (r : Reg) (v : Word) (done : Nat) : Core :=
  match c.writeSlow u r v done with
  | .ok c1 => c1
  | _ => c.writeDone u r v done

/-- SNAP in one thread: where an entry or a row is lacking, the thread goes on with vH = 0 and vD = 0xFFFF_FFFF. -/
def Core.snapOrFail (c : Core) (u : Nat) (vD vH : Reg) (pc : Word) (done : Nat) : Core :=
  match c.snapThread u vD vH pc done with
  | some c1 => c1
  | none => (c.writeAnyway u vH 0#32 done).writeAnyway u vD 0xFFFFFFFF#32 done

/-- SNAP (R296). -/
def execSnap (_lk : Link) (d a : Reg) (s : State) : Host.Outcome State Fault Refusal :=
  finish s (snapCore { helper := false } s [] (fun c u => c.blockOk u d 1 && c.blockOk u a 1 && !(d == a)) (fun c act =>
    c.timed act 8 (fun done => .ok (act.foldl (fun c u => c.snapOrFail u d a (s.cur.pc + 4#32) done) c))))

/-! ## REST (R297) -/

/-- REST in one thread once its wait is over: the entry's state, its PC, and the resume value in the register its SNAP named. -/
def Core.restThread (c : Core) (u e : Nat) (v : Word) : Res Core :=
  let x := c.entry e
  c.timed [u] 8 (fun done =>
    match c.thaw u e with
    | none => .wait true
    | some c1 => (c1.updTh u (fun t => { t with pc := x.pc, hold := .run })).writeSlow u x.resume v done)

/-- A thread that a REST or a TRET holds goes on where its flags and its helpers have ended and the rows can be had; while it
waits for a row each cycle counts (R289, R297, R379). -/
def Core.tryResume (c : Core) (u : Nat) : Core :=
  let r : Res Core := match (c.th u).hold with
    | .rest e v => if c.settled u then c.restThread u e v else .wait false
    | .tret skip dst vals preds =>
      if c.settled u then
        c.timed [u] 8 (fun done => (c.updTh u (fun t => { t with hold := .run })).trapReturn u done skip dst vals preds)
      else .wait false
    | _ => .ok c
  match r with
  | .ok c1 => c1
  | .wait true => c.updTh u (fun t => { t with stall := true })
  | _ => c

/-- REST (R297): the handle is checked and vV is read at issue. -/
def execRest (_lk : Link) (d a : Reg) (s : State) : Host.Outcome State Fault Refusal :=
  let draw := s.cur.draw
  finish s (snapCore { helper := false } s [d, a] (fun _ _ => true) (fun c act =>
    let h (u : Nat) : Word := c.readReg draw u a
    (c.handlesOk act h).map fun _ =>
      let held := act.foldl (fun c1 u => c1.updTh u (fun t => { t with hold := .rest (entryOf (h u)) (c.readReg draw u d) })) c
      act.foldl Core.tryResume held))

/-! ## SPAWN and SPAWN.far (R298, R299) -/

/-- The contexts in use in lane `j` of a slice: its threads, and helpers that died with results in flight (R309). -/
def Core.contexts (c : Core) (slice j : Nat) : Nat :=
  (c.threads.filter (fun p => c.sliceTh p.2 == slice && p.2.lane % 4 == j)).length +
    (c.ghosts.filter (fun g => g.1 == slice && g.2.1 % 4 == j && g.2.2.any (fun i => AMap.has c.pend i))).length

/-- TIDs that the spawn counter has left; TID 0xFFFF_FFFF itself is never granted (R18, log 82). -/
def Launch.tidsLeft (l : Launch) : Bool := decide (l.spawnNext + 1 < 2 ^ 31)

/-- G of a thread made from a snapshot (R139). -/
def spawnGen (g : DWord) (n : DWord) : DWord := g ^^^ (n * 0x9E3779B97F4A7C15#64)

/-- A sibling of an entry in a lane: its state, its place in the spawning thread's groups, its share in what the entry
counts, and its RESUME register (R298); none where a row is lacking. It issues 2 cycles after the SPAWN completes. -/
def Core.sibling (c : Core) (parent e warp lane slice k done : Nat) (tid : Word) (pl : Bool) : Option Core :=
  let x := c.entry e
  match Core.shareAll c (some slice) x.map with
  | none => none
  | some (c1, m) =>
    let u := uidOf warp lane
    let t : Thread :=
      { Thread.blank with
        tid := tid, sib := BitVec.ofNat 32 k, warp := warp, lane := lane, role := x.role, map := m, pred := x.pred,
        flags := x.flags, setA := x.setA, setB := x.setB, pc := x.pc, fstat := x.fstat,
        gen := spawnGen x.genG (tid.setWidth 64), yc := x.yc, dl := x.dl, pl := pl, busy := done + 2 }
    let join (g : Group) : Group := if AMap.has g.members parent then { g with members := g.members ++ [(u, none)] } else g
    let follow (p : Pend) : Pend := if p.holders.contains (.entry e) then { p with holders := p.holders ++ [.thread u] } else p
    let c2 := { c1 with threads := AMap.put c1.threads u t, groups := AMap.mapVals c1.groups join, pend := AMap.mapVals c1.pend follow }
    match c2.writeSlow u x.resume (BitVec.ofNat 32 (k + 1)) done with
    | .ok c3 => some c3
    | _ => none

/-- The warp that a sibling of a slice joins: a new one for every fourth (R298). -/
def Core.spawnWarp (c : Core) (role slice width m : Nat) (warp : Option Nat) : Core × Nat :=
  match m % 4, warp with
  | 0, _ | _, none =>
    let w : Warp := ⟨c.nextWarp, role, slice / (width / 4) * (width / 4), 0#64, true⟩
    ({ c with warps := c.warps ++ [w], nextWarp := c.nextWarp + 1 }, c.nextWarp)
  | _, some w => (c, w)

/-- A warp with a lane launched. -/
def Warp.launch (id lane : Nat) (w : Warp) : Warp := if w.id = id then { w with launched := w.launched ||| (1#64 <<< lane) } else w

/-- Places siblings of an entry in one slice until `n` more are granted or the slice takes no more: `k` granted so far, `m`
of them in this slice. -/
def State.spawnSlice (core parent e slice done : Nat) : Nat → Nat → Nat → Option Nat → State → State × Nat
  | 0, k, _, _, s => (s, k)
  | n + 1, k, m, warp, s =>
    let c := s.core core
    let x := c.entry e
    match c.launch with
    | none => (s, k)
    | some l =>
      match s.launch l with
      | none => (s, k)
      | some y =>
        if !y.tidsLeft || decide (32 ≤ c.contexts slice (m % 4)) || (c.freeRow slice).isNone then (s, k)
        else
          let width := y.hdr.width
          let w := c.spawnWarp x.role slice width m warp
          let lane := 4 * (slice % (width / 4)) + m % 4
          match w.1.sibling parent e w.2 lane slice k done (0x80000000#32 + BitVec.ofNat 32 y.spawnNext) (s.isSys y.vf) with
          | none => (s, k)
          | some c1 =>
            let s1 := (s.setCore core { c1 with warps := c1.warps.map (Warp.launch w.2 lane) }).setLaunch l
              { y with spawnNext := y.spawnNext + 1 }
            State.spawnSlice core parent e slice done n (k + 1) (m + 1) (some w.2) s1

/-- Places siblings in each slice of a list in turn. -/
def State.spawnSlices (core parent e done n : Nat) : List Nat → Nat → State → State × Nat
  | [], k, s => (s, k)
  | sl :: sls, k, s =>
    let r := State.spawnSlice core parent e sl done (n - k) k 0 none s
    State.spawnSlices core parent e done n sls r.2 r.1

/-- SPAWN in one thread: the slice of the operand row, and for SPAWN.far the others after it, wrapping round. -/
def State.spawnThread (s : State) (core u e n done : Nat) (far : Bool) : State × Nat :=
  let sl := sliceOf (getAt ((s.core core).entry e).map 0 0)
  let sls := if far then (List.range 16).map (fun i => (sl + i) % 16) else [sl]
  State.spawnSlices core u e done n sls 0 s

/-- SPAWN in each thread of a list, DST written as the word completes. -/
def State.spawnAll (k : Nat) (d : Reg) (e n : Nat → Nat) (far : Bool) (done : Nat) : List Nat → State → Res State :=
  forEach (fun u s =>
    let r := s.spawnThread k u (e u) (n u) done far
    ((r.1.core k).writeSlow u d (BitVec.ofNat 32 r.2) done).map (fun c1 => r.1.setCore k c1))

/-- SPAWN and SPAWN.far: 8 cycles, 4 for each warp made and 2 for each row copied (R294). -/
def spawnWord (s : State) (d a : Reg) (n : BitVec 4) (far : Bool) : Res State :=
  let draw := s.cur.draw
  let k := s.cur.core
  let c3 := s.ext.c3
  let f : Form := { c3 := n == 0#4, helper := false, legal := !(n == 0#4 && s.cur.ext.isNone) && !(n == 0#4 && c3 == 0#7) }
  snapWord f s (if n = 0#4 then [a, c3] else [a]) (fun c u => c.blockOk u d 1) (fun s1 act =>
    let c := s1.core k
    let h (u : Nat) : Word := c.readReg draw u a
    let count (u : Nat) : Nat := if n = 0#4 then min 128 (c.readReg draw u c3).toNat else n.toNat
    let all (done : Nat) : State → Res State := State.spawnAll k d (fun u => entryOf (h u)) count far done act
    (c.handlesOk act h).bind fun _ => (c.ownAll act d 1).bind fun c0 =>
    let s2 := s1.setCore k c0
    (all (c.clock + 8) s2).bind fun s3 =>
    let done := c.clock + 8 + 2 * ((s3.core k).copies - c.copies) + 4 * ((s3.core k).nextWarp - c.nextWarp)
    (all done s2).map fun s4 => s4.onCore k (fun c => c.updAll act (fun t => { t with busy := done })))

/-- SPAWN (R298). -/
def execSpawn (_lk : Link) (d a : Reg) (n : BitVec 4) (s : State) : Host.Outcome State Fault Refusal :=
  finish s (spawnWord s d a n false)

/-- SPAWN.far (R299). -/
def execSpawnFar (_lk : Link) (d a : Reg) (n : BitVec 4) (s : State) : Host.Outcome State Fault Refusal :=
  finish s (spawnWord s d a n true)

/-! ## DROP and HINFO (R300, R301) -/

/-- Frees the entries that a DROP names, but for those that a REST issued before it has still to read (R293). -/
def Core.flushDrops (c : Core) : Core :=
  let held (e : Nat) : Bool := c.threads.any (fun p => match p.2.hold with | .rest x _ => x == e | _ => false)
  let go := c.drops.filter (fun d => !(held d.1))
  { (go.foldl (fun c d => c.dropEntry d.1) c) with drops := c.drops.filter (fun d => held d.1) }

/-- DROP (R300): the entries it names are freed at the end of the cycle, when every word of the cycle has taken effect (R293). -/
def execDrop (_lk : Link) (a : Reg) (s : State) : Host.Outcome State Fault Refusal :=
  finish s (snapCore { helper := false } s [a] (fun _ _ => true) (fun c act =>
    let h (u : Nat) : Word := c.readReg s.cur.draw u a
    (c.handlesOk act h).bind fun _ =>
    c.timed act 4 (fun _ => .ok { c with drops := dedup (c.drops ++ act.map (fun u => (entryOf (h u), c.clock))) })))

/-- The word of an entry that N selects (R301). -/
def Core.entryInfo (c : Core) (e n : Nat) : Word :=
  let x := c.entry e
  if n = 0 then
    let shared := (x.map.filter (fun r => decide (1 < (c.row r).count))).length
    BitVec.ofNat 32 (2 ^ 31 + sliceOf (getAt x.map 0 0) * 2 ^ 24 + x.map.length * 2 ^ 20 + shared * 2 ^ 16)
  else if n = 1 then x.pc
  else if n = 2 then x.maker
  else BitVec.ofNat 32 ((List.range 12).foldl (fun m i => if getAt x.flags i 0 = 0 then m else m + 2 ^ i) 0)

/-- HINFO (R301). -/
def execHinfo (_lk : Link) (d a : Reg) (n : BitVec 4) (s : State) : Host.Outcome State Fault Refusal :=
  finish s (snapCore { legal := decide (n.toNat < 4) } s [a] (fun c u => c.blockOk u d 1) (fun c act =>
    c.timed act 4 (fun done => c.slowResults act d done (fun u =>
      let h := c.readReg s.cur.draw u a
      if (c.handleCause u h).isSome then 0#32 else c.entryInfo (entryOf h) n.toNat))))

/-! ## OFFER (R302) -/

/-- OFFER (R302): the destination's row is made the thread's own at once. -/
def execOffer (_lk : Link) (d a : Reg) (s : State) : Host.Outcome State Fault Refusal :=
  finish s (snapCore { helper := false } s [a] (fun c u => c.blockOk u d 1) (fun c act =>
    forEach (fun u c1 =>
      let n := (c.readReg s.cur.draw u a).toNat % 65536
      if n = 0 then c1.writeSlow u d 0#32 c.clock
      else (c1.claimPlaces u d 1).map (fun r => r.1.updTh u (fun t => { t with hold := .parked n d }))) act c))

/-- OFFER_TIMEOUT (R302): the cycles of the limit have all passed. -/
def execOfferTimeout (core uid : Nat) (s : State) : Host.Outcome State Fault Refusal :=
  let c := s.core core
  let t := c.th uid
  match t.hold with
  | .parked 0 _ => .next (s.setCore core (c.unpark uid 0#32))
  | _ => .next s

/-! ## RECRUIT (R304, R305) -/

/-- Whether a lane of a warp serves as a helper. -/
def Core.helps (c : Core) (warp lane : Nat) : Bool := AMap.has c.threads (helperUid warp lane)

/-- Whether a lane of a warp is parked by OFFER. -/
def Core.parkedLane (c : Core) (warp lane : Nat) : Bool :=
  match (c.th (uidOf warp lane)).hold with
  | .parked .. => c.liveLane warp lane
  | _ => false

/-- The candidates of a recruiter, as warps and lanes, in order. -/
def Core.candidates (c : Core) (u width : Nat) : List (Nat × Nat) :=
  let t := c.th u
  let own := (List.range width).filter (fun i => !(c.helps t.warp i) && (c.parkedLane t.warp i || !(c.liveLane t.warp i)))
  let others := c.warps.filter (fun w => !(w.id == t.warp) && w.role == t.role)
  own.map (fun i => (t.warp, i)) ++
    others.flatMap (fun w => ((List.range width).filter (fun i => !(c.helps w.id i) && c.parkedLane w.id i)).map (fun i => (w.id, i)))

/-- The slice of a lane of a warp (R93). -/
def Core.sliceLane (c : Core) (warp lane : Nat) : Nat :=
  lane / 4 + (match c.warps.find? (fun w => w.id == warp) with | some w => w.slice0 | none => 0)

/-- Takes `n` free rows of a slice. -/
def Core.takeRows (c : Core) (slice : Nat) : Nat → Option (Core × List Nat)
  | 0 => some (c, [])
  | n + 1 =>
    match c.freeRow slice with
    | none => none
    | some r =>
      match Core.takeRows { c with rows := AMap.put c.rows r { Row.reset with count := 1 } } slice n with
      | none => none
      | some (c1, rs) => some (c1, r :: rs)

/-- Reserves a context and 4 rows for each of up to `n` helpers; the reason of R304. `took` lists the contexts reserved so
far, by slice and lane. -/
def Core.reserve (c : Core) : List (Nat × Nat) → Nat → List (Nat × Nat) → Nat → Core × List (Nat × Nat × List Nat) × Nat
  | _, 0, _, reason => (c, [], reason)
  | _, _, [], reason => (c, [], reason)
  | took, n + 1, (w, l) :: ps, reason =>
    let sl := c.sliceLane w l
    let used := c.contexts sl (l % 4) + (took.filter (fun x => x == (sl, l % 4))).length
    match (if used < 32 then c.takeRows sl 4 else none) with
    | none => Core.reserve c took (n + 1) ps 2
    | some (c1, rs) =>
      let r := Core.reserve c1 ((sl, l % 4) :: took) n ps reason
      (r.1, (w, l, rs) :: r.2.1, r.2.2)

/-- Starts a helper in a lane, which issues 2 cycles after the RECRUIT completes (R305); none where a row of R288 is lacking. -/
def Core.startHelper (c : Core) (u e packet done j : Nat) (p : Nat × Nat × List Nat) : Option Core :=
  let t := c.th u
  let x := c.entry e
  match Core.shareAll c none x.map with
  | none => none
  | some (c1, m) =>
    let hu := helperUid p.1 p.2.1
    let h : Thread :=
      { Thread.blank with
        tid := t.tid, sib := BitVec.ofNat 32 j, warp := p.1, lane := p.2.1, role := t.role, map := m, pred := x.pred,
        flags := x.flags, setA := x.setA, setB := x.setB, pc := BitVec.ofNat 32 (12 * packet), inHandler := t.inHandler,
        handlerBase := t.handlerBase, fstat := x.fstat, gen := spawnGen x.genG (BitVec.ofNat 64 (j + 1)), yc := 0, dl := x.dl,
        pl := t.pl, intrap := t.intrap, trapNo := t.trapNo, busy := done + 2, helper := some ⟨u, j, 0, p.2.2⟩ }
    let follow (q : Pend) : Pend := if q.holders.contains (.entry e) then { q with holders := q.holders ++ [.thread hu] } else q
    some { c1 with threads := AMap.put c1.threads hu h, pend := AMap.mapVals c1.pend follow }

/-- Starts the helpers of a team. -/
def Core.startHelpers (c : Core) (u e packet done : Nat) : Nat → List (Nat × Nat × List Nat) → Option Core
  | _, [] => some c
  | j, p :: ps =>
    match c.startHelper u e packet done j p with
    | none => none
    | some c1 => Core.startHelpers c1 u e packet done (j + 1) ps

/-- An entry that was taken and is free again: its GEN has advanced (R285). -/
def Core.retire (c : Core) (e : Nat) : Core :=
  { c with damask := AMap.put c.damask e { Entry.reset with gen := nextGen (c.entry e).gen } }

/-- RECRUIT in one thread: the core after it and the result word. -/
def Core.recruit (c : Core) (u width packet n : Nat) (pc : Word) (done : Nat) : Core × Word :=
  let lacking : Core := match c.freeEntry with | some e => c.retire e | none => c
  if (c.th u).team.isSome then (c, 0x400#32)
  else if c.freeEntry.isNone then (c, 0x300#32)
  else
    let r := c.reserve [] n (c.candidates u width) 1
    let got := r.2.1.length
    if got = 0 then (c, BitVec.ofNat 32 (256 * r.2.2))
    else
      match r.1.freeze u 2 108#7 pc false with
      | none => (lacking, 0x200#32)
      | some (c1, e) =>
        match c1.startHelpers u e packet done 0 r.2.1 with
        | none => (lacking, 0x200#32)
        | some c2 =>
          (c2.updTh u (fun t => { t with team := some ⟨e, got, none, []⟩ }),
            BitVec.ofNat 32 (got + (if got < n then 256 * r.2.2 else 0)))

/-- RECRUIT (R304). -/
def execRecruit (_lk : Link) (d a : Reg) (n : BitVec 4) (s : State) : Host.Outcome State Fault Refusal :=
  let draw := s.cur.draw
  let width := s.width s.cur.core
  finish s ((packetCheck s a).bind fun _ =>
    snapCore { legal := !(n == 0#4), helper := false } s [a] (fun c u => c.blockOk u d 1) (fun c act =>
      (c.ownAll act d 1).bind fun c0 =>
      c0.timed act 10 (fun done => forEach (fun u c1 =>
        let r := c1.recruit u width (c.readReg draw u a).toNat n.toNat (s.cur.pc + 4#32) done
        r.1.writeSlow u d r.2 done) act c0)))

/-! ## HEND, HWAIT and HKILL (R307, R308, R310) -/

/-- The operation of a helper's team so far. -/
def Core.teamOp (c : Core) (u : Nat) : Option Nat :=
  match (c.th u).helper with
  | some h => (match (c.th h.recruiter).team with | some t => t.op | none => none)
  | none => none

/-- HEND in one helper: its value and status bits go to the recruiter, and it ends (R137, R307). -/
def Core.hendThread (c : Core) (u n : Nat) (v : Word) : Core :=
  match (c.th u).helper with
  | none => c
  | some h =>
    let bits := (c.th u).fstat
    let c1 := c.updTh h.recruiter (fun t => { t.orNow bits with team := t.team.map (fun x => { x with op := some n }) })
    c1.endHelper u (.value v)

/-- A thread outside a helper that would execute HEND decides ILLEGAL_INSTRUCTION (R307). -/
def hendCheck (s : State) : Res Unit :=
  let c := s.core s.cur.core
  match s.active.find? (fun u => (c.th u).helper.isNone) with
  | some u => .trap (trapAt .illegalInstruction (c.th u).lane)
  | none => .ok ()

/-- HEND (R307). Outside a helper it is illegal. -/
def execHend (_lk : Link) (a : Reg) (n : BitVec 4) (s : State) : Host.Outcome State Fault Refusal :=
  let draw := s.cur.draw
  finish s ((hendCheck s).bind fun _ => snapCore { legal := decide (n.toNat < 4) } s [a] (fun _ _ => true) (fun c act =>
    let clash (u : Nat) : Bool := match c.teamOp u with | some o => !(o == n.toNat) | none => false
    match act.find? clash with
    | some u => .trap (trapAt .illegalOperand (c.th u).lane)
    | none =>
      if !(act.all (fun u => flagsZero (c.th u).flags && c.released u)) then .wait false
      else .ok (act.foldl (fun c1 u => c1.hendThread u n.toNat (c.readReg draw u a)) c)))

/-- The combining operation of R161 that HEND's N selects. -/
def hendOp (n : Nat) : Nat := if n = 3 then 6 else n

/-- A team's combined value, and the bits of the helpers that ended by HEND (R308). -/
def Team.result (t : Team) : Word × Word :=
  let op := hendOp (match t.op with | some n => n | none => 0)
  let leaf (j : Nat) : Word := match AMap.look t.ends j with | some (.value v) => v | _ => identity op
  let by1 (j : Nat) : Bool := match AMap.look t.ends j with | some (.value _) => true | _ => false
  let bits := (List.range 16).foldl (fun m j => if by1 j then m + 2 ^ j else m) 0
  (if bits = 0 then 0#32 else (tree op .rne 4 ((List.range 16).map leaf)).1, BitVec.ofNat 32 bits)

/-- The trap of the lowest helper of a team that died by one: its cause at HWAIT, with its index and PC (R308, R356). -/
def Team.died (t : Team) : Option (Nat × TrapInfo × Word) :=
  (List.range 16).findSome? (fun j => match AMap.look t.ends j with
    | some (.trap x pc) => some (j, x, pc)
    | _ => none)

/-- The trap that HWAIT raises for a thread, if any. -/
def Core.teamTrap (c : Core) (u : Nat) : Option TrapInfo :=
  match (c.th u).team with
  | none => none
  | some t => t.died.map (fun d => ⟨d.2.1.cause, (c.th u).lane, d.2.2, some d.1⟩)

/-- The first thread of a list whose team holds a trap. -/
def Core.firstTrap (c : Core) (us : List Nat) : Option (Nat × TrapInfo) :=
  us.findSome? (fun u => (c.teamTrap u).map (fun t => (u, t)))

/-- HWAIT once the teams are done and no trap is held: the acquire, the results, the teams closed. -/
def Core.hwait (c : Core) (d : Reg) (act : List Nat) (done : Nat) : Res Core :=
  let any := act.any (fun u => (c.th u).team.isSome)
  forEach (fun u c1 =>
    let r := match (c1.th u).team with | some t => t.result | none => (0#32, 0#32)
    (c1.closeTeam u).writeSlowBlock u d done [r.1, r.2]) act (if any then c.acquire else c)

/-- HWAIT (R308): a helper's trap is raised here (State.raise closes its team first, R373). -/
def execHwait (_lk : Link) (d : Reg) (s : State) : Host.Outcome State Fault Refusal :=
  finish s (snapCore { helper := false } s [] (fun c u => c.blockOk u d 2) (fun c act =>
    if !(act.all c.teamDone) then .wait false
    else
      match c.firstTrap act with
      | some x => .trap x.2
      | none => c.timed act 8 (c.hwait d act)))

/-- HKILL in one thread: it ends the helpers that have not ended, and DST takes their number. -/
def Core.hkill (d : Reg) (done u : Nat) (c : Core) : Res Core :=
  let live := c.teamLive u
  (live.foldl (fun c2 h => c2.endHelper h .killed) c).writeSlow u d (BitVec.ofNat 32 live.length) done

/-- HKILL (R310). -/
def execHkill (_lk : Link) (d : Reg) (s : State) : Host.Outcome State Fault Refusal :=
  finish s (snapCore { helper := false } s [] (fun c u => c.blockOk u d 1) (fun c act =>
    (c.ownAll act d 1).bind fun c0 => c0.timed act 6 (fun done => forEach (Core.hkill d done) act c0)))

end Sys2Proof.Machine
end

