-- ==== Sys2Proof/Machine/System.lean ====
section
/-! DEFINITION. The system words of majors 0x36 and 0x37 but for SYSRD and SYSWR: TRAP, TRET, PERF, HALTCTX, CKPT and WDOG
(R377 to R384). -/

namespace Sys2Proof.Machine

open Sys2Proof

/-! ## TRAP (R378) -/

/-- USER_TRAP with a code. -/
def userTrap (lane : Nat) (code : Nat) : TrapInfo := ⟨.userTrap, lane, w32 (code % 65536), none⟩

/-- The lane that decides a TRAP: no lane decides it, so the lowest of the run (R357); in a helper the lane whose helper
executes it (R309). -/
def State.trapLane (s : State) (u : Nat) : Nat :=
  let t := (s.core s.cur.core).th u
  if t.helper.isSome then t.lane else s.lowLane

/-- TRAP (R378). -/
def execTrap (_lk : Link) (a : Reg) (s : State) : Host.Outcome State Fault Refusal :=
  let draw := s.cur.draw
  finish s (bothWordS { stream := .both } s [a] []
    (fun s1 act => match act with
      | [] => .ok s1
      | u :: _ => .trap (userTrap (s.trapLane u) ((s1.core s1.cur.core).readReg draw u a).toNat))
    (fun _ x => .trap (userTrap 0 (x.read draw a).toNat)))

/-! ## TRET (R379) -/

/-- MODE of TRET. -/
inductive TretMode where
  | retry
  | next
  | done
  deriving DecidableEq, Repr

/-- The registers of a TRET in one lane: readable operands, a writable block, and A the handle of the lane's trap entry. -/
def Core.tretOk (c : Core) (draw u : Nat) (d a b c3 : Reg) (n : Nat) : Bool :=
  let regs := (List.range n).map (fun i => b.toNat + i)
  c.srcOk u a && (d == 108#7 || regs.all (fun r => decide (r < 128) && c.srcOk u (BitVec.ofNat 7 r))) &&
    (c3 == 0#7 || c.srcOk u c3) && (d == 108#7 || c.blockOk u d n) && (c.readReg draw u a == (c.th u).trapRec.r3)

/-- The words a TRET returns in one lane. -/
def Core.tretVals (c : Core) (draw u : Nat) (d b : Reg) (n : Nat) (mode : TretMode) : List Word :=
  if mode = .next ∧ d ≠ 108#7 then (List.range n).map (fun i => c.readReg draw u (BitVec.ofNat 7 (b.toNat + i))) else []

/-- The entries of the active lanes are dropped, and their threads end (`.end`). -/
def Core.dropTrapEntries (c : Core) (act : List Nat) : Core :=
  act.foldl (fun (c1 : Core) u => match (c1.th u).trapEntry with | some e => c1.dropEntry e | none => c1) c

/-- The active lanes return from their trap entries with what the word reads at issue, each as soon as its flags and its helpers
have ended. -/
def Core.tretLanes (c : Core) (draw : Nat) (act : List Nat) (d b c3 : Reg) (n : Nat) (mode : TretMode) : Core :=
  let hold (u : Nat) : Hold :=
    .tret (if mode = .next then 4 * bits (c.th u).trapRec.r0.toNat 25 24 else 0) d (c.tretVals draw u d b n mode)
      (if c3 = 0#7 then none else some ((c.readReg draw u c3).setWidth 8))
  act.foldl Core.tryResume (act.foldl (fun c1 u => c1.updTh u (fun t => { t with hold := hold u })) c)

/-- TRET (R373, R379). -/
def tretWord (s : State) (sel : Nat) (d a b : Reg) (mode : TretMode) : Res State :=
  let draw := s.cur.draw
  let c3 := s.ext.c3
  let n := s.ext.sel.toNat / 4 + 1
  let f : Form :=
    { stream := .both, c3 := true, sel := fun x => x.toNat % 4 == sel, helper := false,
      legal := s.atPl1 && !s.cur.fe && (!(d == 108#7) || b == 0#7) }
  (checkForm f s).bind fun _ =>
    let c0 := s.core s.cur.core
    match s.active.find? (fun u => !((c0.th u).intrap)) with
    | some u => .trap (trapAt .illegalInstruction (c0.th u).lane)
    | none =>
      (operandCheck c0 s.active (fun u => c0.tretOk draw u d a b c3 n) s.lowLane (dstNamed d)).bind fun _ =>
      warpWordS f s [] [] (fun s1 act =>
        let k := s1.cur.core
        let c := s1.core k
        (c.handlesOk act (fun u => c.readReg draw u a)).bind fun _ =>
        if mode ≠ .done then .ok (s1.setCore k (c.tretLanes draw act d b c3 n mode))
        else if !(act.all c.settled) then .wait false
        else .ok ((s1.setCore k (c.dropTrapEntries act)).endThreads k act))

/-- TRET.retry (R379). -/
def execTretRetry (_lk : Link) (d a b : Reg) (s : State) : Host.Outcome State Fault Refusal := finish s (tretWord s 0 d a b .retry)

/-- TRET.next (R379). -/
def execTretNext (_lk : Link) (d a b : Reg) (s : State) : Host.Outcome State Fault Refusal := finish s (tretWord s 1 d a b .next)

/-- TRET.end (R379). -/
def execTretEnd (_lk : Link) (d a b : Reg) (s : State) : Host.Outcome State Fault Refusal := finish s (tretWord s 2 d a b .done)

/-! ## Results of the words that act once per run -/

/-- A word whose active lanes, or the front end, receive one value: `body` takes the operand of the lowest active lane. The word
completes `cycles` after its issue, and until then its threads wait (R294, R424). -/
def onceWord (f : Form) (s : State) (srcs : List Reg) (d : Reg) (ok : Core → Nat → Bool) (bad : Nat → Bool) (x : Core → Nat → Nat)
    (fx : FrontEnd → Nat) (body : State → Nat → State × DWord) (wide : Bool) (cycles : Nat) : Res State :=
  (checkForm f s).bind fun _ =>
    let c0 := s.core s.cur.core
    (if s.cur.fe then .ok () else operandCheck c0 s.active (fun u => ok c0 u) s.lowLane (dstNamed d)).bind fun _ =>
    bothWordS f s srcs (if wide && !s.cur.fe then [] else [d])
      (fun s1 act => match act with
        | [] => .ok s1
        | u :: _ =>
          let c := s1.core s1.cur.core
          let v := x c u
          if bad v then .trap (trapAt .illegalOperand (c.th u).lane)
          else
            let r := body s1 v
            let ws := if wide then [r.2.setWidth 32, r.2.extractLsb' 32 32] else [r.2.setWidth 32]
            let c2 := r.1.core s1.cur.core
            (c2.timed act cycles (fun done => forEach (fun u (c : Core) => c.writeSlowBlock u d done ws) act c2)).map
              (fun c1 => r.1.setCore s1.cur.core c1))
      (fun s1 y =>
        let v := fx y
        if bad v then .trap (trapAt .illegalOperand 0)
        else
          let r := body s1 v
          .ok (r.1.setFe { (y.writeDone y.last (y.last + cycles) d r.2) with last := y.last + cycles - 1 }))

/-! ## PERF (R381) -/

/-- Whether the events of a code are counted by the cycle, of which the model holds no count (log 47). -/
def timeEvent (n : Nat) : Bool := n == 4 || n == 5 || n == 9 || n == 0x0B

/-- Whether the spec does not say how many events of a code a word makes: line requests of agents and flits of links. The model
counts those that are certain (log 47). -/
def openEvent (n : Nat) : Bool := n == 6 || n == 0x0A

/-- What PERF on a core reads of a counter of its VF, and what stays in it after a clear: any subset of the events of the last 64
cycles may be missing, and a PERFSEL write less than 4 cycles ago may not have cleared it yet (R380, R381). -/
def State.perfRead (s : State) (draw k n : Nat) : DWord × DWord :=
  let x := s.vf (s.vfOf k)
  let sel := AMap.lookD x.perfsel n 0#32
  let fresh := (x.recent s.now n).foldl (fun m e => m + e.2) 0
  let miss := BitVec.ofNat 64 ((Config.freeWord draw n 381).toNat % (fresh + 1))
  let more : DWord := Config.freeWord draw n 382 ++ Config.freeWord draw n 383
  let cnt := AMap.lookD x.perfcnt n 0#64 - miss
  let seen :=
    if sel.getLsbD 31 && timeEvent (sel.toNat % 256) then more
    else if sel.getLsbD 31 && openEvent (sel.toNat % 256) then cnt + more
    else cnt
  (s.sysNow k noUid (oldCount n) seen, if Config.freeBool draw n 381 then miss else 0#64)

/-- PERF (R381). -/
def execPerf (_lk : Link) (d a : Reg) (s : State) : Host.Outcome State Fault Refusal :=
  let draw := s.cur.draw
  let clr := s.ext.sel == 1#4
  finish s (onceWord { stream := .both, sel := fun x => x == 1#4 } s [a] d (fun c u => c.srcOk u a && c.blockOk u d 2)
    (fun v => decide (8 ≤ v)) (fun c u => (c.readReg draw u a).toNat) (fun y => (y.read draw a).toNat)
    (fun s1 n =>
      let v := s1.vfOf s1.cur.core
      let r := s1.perfRead draw s1.cur.core n
      let x := s1.vf v
      (if clr then s1.setVf v { x with perfcnt := AMap.put x.perfcnt n r.2, perfnew := AMap.del x.perfnew n } else s1, r.1)) true 80)

/-! ## HALTCTX (R382) -/

/-- A word of the system VF's own threads. -/
def State.sysPl1 (s : State) : Bool := s.atPl1 && s.isSys (s.vfOf s.cur.core)

/-- A step of HALTCTX: the rung happens at once unless the context has reached it. -/
def State.haltStep (s : State) (draw v step : Nat) : State :=
  let x := s.vf v
  match step with
  | 0 => s.softRequest v
  | 1 => if x.ctx = 1 ∨ (x.ctx = 2 ∧ x.rung < 2) then s.forceHalt v else s
  | 2 => if x.ctx ≠ 0 ∧ x.rung < 3 then s.killCtx draw v else s
  | _ => s

/-- DST of HALTCTX. -/
def VF.haltWord (x : VF) : Word := w32 (x.ctx * 2 ^ 30 + x.rung * 2 ^ 28)

/-- HALTCTX (R382). -/
def execHaltctx (_lk : Link) (d a : Reg) (s : State) : Host.Outcome State Fault Refusal :=
  let draw := s.cur.draw
  let own := s.vfOf s.cur.core
  let bad (v : Nat) : Bool :=
    !(v / 64 % 4 == 0) || decide (1024 ≤ v) || !((s.partOfVf (v % 64)).isSome && s.partOfVf (v % 64) == s.partOfVf own) ||
      s.isSys (v % 64)
  finish s (onceWord { stream := .both, helper := false, legal := s.sysPl1 } s [a] d (fun c u => c.srcOk u a && c.dstOk u d) bad
    (fun c u => (c.readReg draw u a).toNat) (fun y => (y.read draw a).toNat % 2 ^ 32)
    (fun s1 v =>
      let s2 := s1.haltStep draw (v % 64) (v / 256 % 4)
      (s2, (s2.vf (v % 64)).haltWord.setWidth 64)) false 40)

/-! ## CKPT (R383) -/

/-- CKPTCTL of the partition of a core's VF; `mid` reads it as a restore in progress leaves it. -/
def State.ckptctl (s : State) (core : Nat) (mid : Bool) : Word :=
  match s.partRec (s.vfOf core) with
  | some (_, x) => (if mid then { x with ckState := 5, ckErr := 0 } else x : Part).ckptctl
  | none => 0#32

/-- A CKPT word on the partition of its thread: `op` acts at issue, and DST takes CKPTCTL as it stands when the word completes. -/
def ckptWord (s : State) (sel : Nat) (d : Reg) (op : State → Nat → State) (mid : Bool) : Res State :=
  let f : Form := { stream := .both, helper := false, legal := s.sysPl1, sel := fun x => x.toNat == sel }
  let k := s.cur.core
  let c0 := s.core k
  let act (s1 : State) : State := match s1.partOfVf (s1.vfOf k) with | some p => op s1 p | none => s1
  let hold (c : Core) (us : List Nat) : Core := c.holdRun (.later (c0.clock + 40 + 2 * (c.copies - c0.copies)) (.ckpt d mid)) us
  bothWordS f s [] [d]
    (fun s1 us =>
      if us = [] then .ok s1
      else ((s1.core k).ownAll us d 1).map (fun c => (act (s1.setCore k c)).onCore k (fun c => hold c us)))
    (fun s1 _ => .ok ((act s1).onCore k (fun c => hold c [feUid])))

/-- A held word completes (R338, R383). -/
def State.lateJob (s : State) (core lead : Nat) (job : LateJob) : State :=
  match job with
  | .quota own v tier reg n => (s.setQuota own v tier reg n).onCore core (fun c => c.wakeRun lead)
  | .ckpt dst mid =>
    let w := s.ckptctl core mid
    s.onCore core (fun c => (c.giveAll (c.heldWith lead) dst w).wakeRun lead)

/-- The held words of a core that complete by now. -/
def State.runLate (s : State) (core : Nat) : State :=
  (feUid :: AMap.keys (s.core core).threads).foldl (fun s u => match (s.core core).holdOf u with
    | .later done job => if done ≤ s.now ∧ s.tearing core = false then s.lateJob core u job else s
    | _ => s) s

/-- CKPT.cut (R370, R383). -/
def execCkptCut (_lk : Link) (d : Reg) (s : State) : Host.Outcome State Fault Refusal :=
  finish s (ckptWord s 0 d State.startCut false)

/-- CKPT.query (R383). -/
def execCkptQuery (_lk : Link) (d : Reg) (s : State) : Host.Outcome State Fault Refusal :=
  finish s (ckptWord s 1 d (fun s1 _ => s1) false)

/-- CKPT.abort (R383). -/
def execCkptAbort (_lk : Link) (d : Reg) (s : State) : Host.Outcome State Fault Refusal :=
  finish s (ckptWord s 2 d State.abortCkpt false)

/-- CKPT.restore (R374, R383): the word may complete before the restore has, and then reads STATE 5. -/
def execCkptRestore (_lk : Link) (d : Reg) (s : State) : Host.Outcome State Fault Refusal :=
  let draw := s.cur.draw
  let idle := match s.partRec (s.vfOf s.cur.core) with | some (_, p) => ckIdle p.ckState | none => false
  finish s (ckptWord s 3 d (fun s1 p => s1.restoreCkpt draw p) (idle && Config.freeBool draw 0 374))

/-! ## WDOG (R384) -/

/-- The units left before WATCHDOG: DL × 1,024 − YC. -/
def Thread.unitsLeft (t : Thread) : Word := ofInt32 ((t.dl * 1024 : Nat) - (t.yc : Int))

/-- WDOG with SEL 0 (R384). -/
def execWdog (_lk : Link) (d : Reg) (s : State) : Host.Outcome State Fault Refusal :=
  finish s (bothWord { stream := .both } s [] [d]
    (fun c act => c.plainResults act d (fun u => (c.th u).unitsLeft))
    (fun x => .ok (x.write d 0xFFFFFFFF#64 4)))

/-- WDOG.set (R384). -/
def execWdogSet (_lk : Link) (d a : Reg) (s : State) : Host.Outcome State Fault Refusal :=
  let draw := s.cur.draw
  finish s (warpWord { legal := s.atPl1, sel := fun x => x == 1#4 } s [a] [d] (fun c act =>
    let v (u : Nat) : Nat := (c.readReg draw u a).toNat
    match act.find? (fun u => v u == 0 || decide (256 ≤ v u)) with
    | some u => .trap (trapAt .illegalOperand (c.th u).lane)
    | none =>
      let c1 := act.foldl (fun (c1 : Core) u => c1.updTh u (fun t => { t with dl := v u })) c
      c1.plainResults act d (fun u => (c1.th u).unitsLeft)))

end Sys2Proof.Machine
end

