-- ==== Sys2Proof/Machine/Device.lean ====
section
/-! DEFINITION. The device's boundaries (R386 to R410): partitions and quanta, memory release, host accesses and answers, errors,
start-up and the safe state, attestation, power, and writes from outside agents. -/

namespace Sys2Proof.Machine

open Sys2Proof

/-! ## Start-up (R2, R3, R405) -/

/-- DEVCAP of a variant before training (R3). -/
def variantCap (v : Nat) : Word := if v = 1 then 0x1303F333#32 else if v = 2 then 0x2FFFF00F#32 else 0x0FFFFFFF#32

/-- DEVCAP as it is built: stacks and ports that did not train read 0. -/
def builtCap (base : Word) (hbm : BitVec 12) (ports : BitVec 4) : Word :=
  base &&& (255#8 ++ hbm ++ 255#8 ++ ports)

/-- The stage that fails first, with its code (R405). -/
def bootFailed (b : BootOutcome) : Option (Nat × Nat) :=
  if !b.firmwareOk then some (1, 1)
  else if !b.bistOk then some (2, 2)
  else if !b.linksOk then some (4, 4)
  else if !b.imagesOk then some (5, 5)
  else none

/-- POWER_ON (R405): the stages in order; an untrained stack or CXL port fails none; any other failure enters the safe state,
with every clock at its lowest step. -/
def execPowerOn (outcome : BootOutcome) (s : State) : Host.Outcome State Fault Refusal :=
  if s.boot ≠ .off then .next s
  else
    let base := variantCap s.variant
    let full : BitVec 12 := 0xFFF#12
    let all : BitVec 4 := 0xF#4
    match bootFailed outcome with
    | none => .next { s with boot := .running, devcap := builtCap base outcome.hbmStacks outcome.cxlPorts }
    | some (stage, code) =>
      .next { s with
        boot := .safe (w32 stage) (w32 code) outcome.failingUnit, clockMHz := 525,
        devcap := builtCap base (if stage < 3 then full else outcome.hbmStacks) (if stage < 4 then all else outcome.cxlPorts) }

/-- Memory after a reset of the device: a byte written before holds no value that the spec gives (log 48). -/
def scrambled (draw : Nat) (m : Memory) : Memory :=
  m.foldl (fun (n : Memory) c => n.write c.1 ((Config.freeWord draw c.1 405).setWidth 8)) []

/-- DEVICE_RESET (R405): back to power-on start-up; the host and what lies beyond the device stay as they are. -/
def execDeviceReset (s : State) : Host.Outcome State Fault Refusal :=
  .next { State.reset with
    variant := s.variant, devcap := variantCap s.variant, mem := scrambled s.cur.draw s.mem, hostMem := s.hostMem, images := s.images,
    out := s.out, agenda := s.agenda, draws := s.draws }

/-! ## The safe-state mailbox (R405) -/

/-- REPORT: the self-test report. -/
def execReport (s : State) : Host.Outcome State Fault Refusal :=
  match s.boot with
  | .safe stage code unit => .next (s.send (.selfTest stage code unit s.devcap))
  | _ => .next s

/-- RETRAIN: which stacks and ports train now is free. -/
def execRetrain (s : State) : Host.Outcome State Fault Refusal :=
  match s.boot with
  | .safe .. =>
    let w := Config.freeWord s.cur.draw 0 406
    .next ({ s with devcap := builtCap (variantCap s.variant) (w.extractLsb' 0 12) (w.extractLsb' 12 4) }.send (.mailbox true 0))
  | _ => .next s

/-- The check of an image (R406): its signature over the digest of its contents, under the fused key, and its version, which is not
below the fused counter. -/
def imageGood (image : List Byte) : Bool :=
  Config.signatureGood Config.fusedKey (Config.sha3 (Config.imageContents image)) image && decide (Config.fusedVersion ≤ Config.imageVersion image)

/-- FWUPDATE: an image must pass the check (R406). -/
def execFwupdate (image : List (BitVec 8)) (s : State) : Host.Outcome State Fault Refusal :=
  match s.boot with
  | .safe .. => .next (s.send (.mailbox (imageGood image) 0))
  | _ => .next s

/-! ## Partition records (R386, R387) -/

/-- The pseudo-channels and CXL ranges of a record. -/
def recPch (bs : List Byte) : List DWord := (List.range 12).map (fun i => BitVec.ofNat 64 (fld bs (0x10 + 8 * i) 8))
def recCxl (bs : List Byte) : List Word := (List.range 4).map (fun i => w32 (fld bs (0x70 + 4 * i) 4))

/-- First unit and number of units of a CXL range. -/
def cxlBase (w : Word) : Nat := w.toNat / 65536
def cxlSize (w : Word) : Nat := w.toNat % 65536

/-- `n` units from unit `u` of a port. -/
def unitMask (u n : Nat) : BitVec 256 := BitVec.ofNat 256 ((2 ^ n - 1) * 2 ^ u)

/-- The units of a CXL range. -/
def cxlUnits (w : Word) : BitVec 256 := unitMask (cxlBase w) (cxlSize w)

/-- Whether a partition's memory wholly holds a range of physical addresses (R387). -/
def Part.ownsAll (p : Part) (base size : Nat) : Bool :=
  size == 0 || (List.range ((base + size - 1) / 2 ^ 30 - base / 2 ^ 30 + 1)).all (fun i => p.owns ((base / 2 ^ 30 + i) * 2 ^ 30))

/-- FUNCMODE as stored: a variant without grammar units reads GRAMMAR as 1 (R391). -/
def State.funcMap (s : State) (w : Word) : Word := (w &&& 0x1F#32) ||| (if s.devcap.extractLsb' 8 4 = 0#4 then 8#32 else 0#32)

/-- A partition with no record yet, the checkpoint and host-assist registers at their resets (R369, R398). -/
def Part.blank : Part where
  record := []
  eth := 0
  sysvf := 0
  vfmask := 0#64
  pch := []
  cxl := []
  nvme := 0#64
  save := 0#64
  haqbase := 0
  funcmode := 0#32
  lowmark := []
  ckState := 0
  ckErr := 0
  ckRate := 64
  ckBuf := 0#64
  ckRsv := 0#64
  pieces := []
  ckDrained := 0
  ckImage := none
  haHead := 0
  haTail := 0
  haErr := 0
  haPending := []
  haWaiting := []
  haTag := 0#16
  drainsel := 0#32
  image := []

/-- The partition that a record describes, over the partition as it stands: memory is added, never taken away (R389). -/
def State.recPart (s : State) (old : Part) (bs : List Byte) : Part :=
  let pch := (List.range 12).map (fun i => getAt old.pch i 0#64 ||| getAt (recPch bs) i 0#64)
  let cxl := (List.range 4).map (fun i => getAt old.cxl i 0#256 ||| cxlUnits (getAt (recCxl bs) i 0#32))
  { old with
    record := bs, eth := fld bs 4 1, sysvf := fld bs 5 1, vfmask := BitVec.ofNat 64 (fld bs 8 8), pch := pch, cxl := cxl,
    nvme := BitVec.ofNat 64 (fld bs 0x80 8), save := BitVec.ofNat 64 (fld bs 0x88 8), haqbase := fld bs 0x90 8,
    funcmode := s.funcMap (w32 (fld bs 0x98 4)) }

/-- The quanta that QUANTA names. -/
def recQuanta (bs : List Byte) : List Nat := (List.range 32).filter (fun q => tbit (fld bs 0 4) q)

/-- The image that a record names (R386, log 89). -/
def State.recImage (s : State) (bs : List Byte) : List Byte := s.hostMem.bytes (fld bs 0xA0 8) (fld bs 0x9C 4)

/-- Where firmware puts an image in a partition's memory: the spec gives no address, so any place that holds it (R408, log 91). -/
def Part.imagePlace (p : Part) (draw n : Nat) : Option Nat :=
  let want := (Config.freeWord draw 0 408 ++ Config.freeWord draw 1 408 : BitVec 64).toNat % 2 ^ 52
  if p.ownsAll want n then some want
  else
    let pch := (List.range 768).map (fun c => c * 2 ^ 30)
    let cxl := (List.range 1024).map (fun u => 2 ^ 48 + u * 2 ^ 34)
    (pch ++ cxl).find? (fun b => p.ownsAll b n)

/-- A partition's image is copied into its memory (R408). -/
def State.copyImage (s : State) (draw : Nat) (p : Part) : State :=
  match p.imagePlace draw p.image.length with
  | some pa => s.physPut pa p.image
  | none => s

/-- The first field of a record that firmware refuses, by its offset; none where it accepts the record (R387). -/
def State.recFault (s : State) (part : Nat) (bs : List Byte) : Option Nat :=
  let others := s.parts.filter (fun p => !(p.1 == part))
  let old := AMap.lookD s.parts part Part.blank
  let p := s.recPart old bs
  let qs := recQuanta bs
  let dieOk (d : Nat) : Bool := !(s.dieAbsent d)
  let zero (o n : Nat) : Bool := fld bs o n == 0
  let qOk := decide (part < 8) && !(qs.isEmpty) && qs.all (fun q => dieOk (q / 8) &&
    ((s.quantum q).part.isNone || (s.quantum q).part == some part)) && (qs.contains 0 == (part == 0))
  let pchOk (i : Nat) : Bool :=
    let w := getAt (recPch bs) i 0#64
    w == 0#64 || (s.devcap.getLsbD (12 + i) && others.all (fun o => (getAt o.2.pch i 0#64 &&& w) == 0#64))
  let cxlOk (d : Nat) : Bool :=
    let n := getAt (recCxl bs) d 0#32
    cxlSize n == 0 || (s.devcap.getLsbD d && decide (cxlBase n + cxlSize n ≤ 256) &&
      others.all (fun o => (getAt o.2.cxl d 0#256 &&& cxlUnits n) == 0#256))
  let nvme := fld bs 0x80 8
  let checks : List (Nat × Bool) :=
    [(0x00, qOk),
     (0x04, decide (p.eth < 8) && dieOk (p.eth / 2) && others.all (fun o => !(o.2.eth == p.eth))),
     (0x05, decide (p.sysvf < 64)), (0x06, zero 6 2),
     (0x08, p.vfmask.getLsbD p.sysvf && others.all (fun o => (o.2.vfmask &&& p.vfmask) == 0#64))] ++
    (List.range 12).map (fun i => (0x10 + 8 * i, pchOk i)) ++ (List.range 4).map (fun d => (0x70 + 4 * d, cxlOk d)) ++
    [(0x80, decide (nvme < 2 ^ 35) && dieOk (nvme / 2 ^ 33) && others.all (fun o => !(o.2.nvme == p.nvme))),
     (0x88, zero 0x88 2 && decide (fld bs 0x88 8 % 2 ^ 21 = 0) && p.ownsAll p.saveBase p.saveSize &&
       p.ownsAll (bits p.ckRsv.toNat 51 21 * 2 ^ 21) (bits p.ckRsv.toNat 63 52 * 2 ^ 21)),
     (0x90, decide (p.haqbase % 8192 = 0) && p.ownsAll p.haqbase 8192),
     (0xA0, imageGood (s.recImage bs)),
     (0xA8, (bs.drop 0xA8).all (fun b => b == 0#8))]
  (checks.find? (fun c => !c.2)).map (fun c => c.1)

/-- PCFG (R386, R387, R391, R408): a record is checked, then a partition is made or changed; a refused record changes nothing. The
image of a new partition is copied into its memory and its RV64 cores are started (log 91). -/
def execPcfg (part : Nat) (record : List (BitVec 8)) (s : State) : Host.Outcome State Fault Refusal :=
  if s.boot ≠ .running then .next s
  else if record.length ≠ 256 then .next (s.send (.mailbox false record.length))
  else
    match s.recFault part record with
    | some o => .next (s.send (.mailbox false o))
    | none =>
      let old := AMap.lookD s.parts part Part.blank
      let p := { s.recPart old record with image := s.recImage record }
      let s1 := s.setPart part p
      let fresh := (recQuanta record).filter (fun q => (s.quantum q).part.isNone)
      let s2 := fresh.foldl (fun s q => s.setQuantum q ⟨1, some part, none, .online⟩) s1
      let s3 := if AMap.has s.parts part then s2 else s2.copyImage s.cur.draw p
      .next (s3.send (.mailbox true 0))

/-! ## Moving a quantum (R390) -/

/-- The cores of a quantum (R11). -/
def quantumCores (q : Nat) : List Nat := (List.range 16).map (fun i => 16 * q + i)

/-- The VFs whose contexts have an instance on a quantum. -/
def State.vfsOn (s : State) (q : Nat) : List Nat :=
  dedup ((quantumCores q).filterMap (fun k => match (s.core k).launch with
    | some l => (s.launch l).map (fun x => x.vf)
    | none => none))

/-- QMOVE (R390): the owner has taken the RV64 core offline; the quantum drains, and each context on it receives the soft
request. -/
def execQmove (q target : Nat) (s : State) : Host.Outcome State Fault Refusal :=
  let x := s.quantum q
  let owned := (List.range 32).filter (fun i => (s.quantum i).part == x.part && (s.quantum i).state == 1)
  if s.boot ≠ .running then .next s
  else if q = 0 ∨ x.state ≠ 1 ∨ x.part.isNone = true ∨ owned.length ≤ 1 then .next (s.send (.mailbox false 0))
  else
    let s1 := s.setQuantum q { x with state := 2, target := some target, rv := .offline }
    .next (((s1.vfsOn q).foldl (fun s v => s.softRequest v) s1).send (.mailbox true 0))

/-- Whether a quantum's scrub goes on: it drains and every context on it is saved or ended, or it is being scrubbed. -/
def State.canScrub (s : State) (q : Nat) : Bool :=
  ((s.quantum q).state == 2 && (quantumCores q).all (fun k => (s.core k).launch.isNone)) || (s.quantum q).state == 3

/-- A core after the scrub: nothing of any launch; the model's own numbers go on. -/
def Core.scrubbed (c : Core) : Core :=
  { Core.reset with nextReq := c.nextReq, nextPend := c.nextPend, nextM := c.nextM, nextPool := c.nextPool, epoch := c.epoch }

/-- One cluster scrubbed: tiles, claims and slots are cleared and CLHANDLER falls. -/
def State.scrubCluster (s : State) (cl : Nat) : State :=
  let d := s.cluster cl
  (s.setCluster cl { d with jslots := [], jwords := [], claims := [], accs := [], pass := none, ending := none, handler := none }).rerouteCluster cl

/-- QUANTUM_SCRUB (R390): a drained quantum is SCRUBBING; then its clusters are zeroed, its RV64 core is reset, and it is owned by
no partition. -/
def execQuantumScrub (q : Nat) (s : State) : Host.Outcome State Fault Refusal :=
  if !(s.canScrub q) then .next s
  else if (s.quantum q).state = 2 then .next (s.setQuantum q { (s.quantum q) with state := 3 })
  else
    let s1 := (quantumCores q).foldl (fun s k => if AMap.has s.cores k then s.onCore k Core.scrubbed else s) s
    let s2 := ((List.range 4).map (fun i => 4 * q + i)).foldl (fun s cl => if AMap.has s.clusters cl then s.scrubCluster cl else s) s1
    .next (s2.setQuantum q { (s2.quantum q) with state := 0, part := none, rv := .reset })

/-- QUANTUM_ONLINE (R390): the target brings the RV64 core online. -/
def execQuantumOnline (q part : Nat) (s : State) : Host.Outcome State Fault Refusal :=
  let x := s.quantum q
  if x.state = 0 ∧ x.part.isNone = true ∧ x.target = some part ∧ AMap.has s.parts part = true then
    .next (s.setQuantum q ⟨1, some part, none, .online⟩)
  else .next s

/-! ## Memory release (R389) -/

/-- The physical range of `count` pseudo-channels, or of 16 GiB CXL units numbered over the ports. -/
def releaseRange (cxl : Bool) (unit count : Nat) : Nat × Nat :=
  if cxl then (2 ^ 48 + unit * 2 ^ 34, count * 2 ^ 34) else (unit * 2 ^ 30, count * 2 ^ 30)

/-- The partition without the released memory; none where it does not hold it. -/
def Part.release (p : Part) (cxl : Bool) (unit count : Nat) : Option Part :=
  let r := releaseRange cxl unit count
  if count = 0 ∨ p.ownsAll r.1 r.2 = false then none
  else if cxl then
    let all := (2 ^ count - 1) * 2 ^ unit
    some { p with cxl := (List.range 4).map (fun d => getAt p.cxl d 0#256 &&& ~~~(BitVec.ofNat 256 (all / 2 ^ (256 * d)))) }
  else
    let keep (i : Nat) (w : DWord) : DWord :=
      w &&& ~~~(BitVec.ofNat 64 ((List.range 64).foldl (fun m c => if unit ≤ 64 * i + c ∧ 64 * i + c < unit + count then m + 2 ^ c else m) 0))
    some { p with pch := (List.range 12).map (fun i => keep i (getAt p.pch i 0#64)) }

/-- MEMORY_RELEASE (R389): every translation of the partition goes, and the memory is zeroed. -/
def execMemoryRelease (part : Nat) (cxl : Bool) (unit count : Nat) (s : State) : Host.Outcome State Fault Refusal :=
  match AMap.look s.parts part with
  | none => .next s
  | some p =>
    match p.release cxl unit count with
    | none => .next (s.send (.mailbox false 0))
    | some p1 =>
      let r := releaseRange cxl unit count
      let gone (a : Nat) : Bool := decide (r.1 ≤ a) && decide (a < r.1 + r.2)
      let lost (l : BLine) : Bool := match l.pa with | some a => gone a | none => false
      let s1 := (s.brocade.filter lost).foldl (fun s l => s.revoke l 65535#16 none) s
      let cores := AMap.mapVals s1.cores (fun (c : Core) => { c with tlb := c.tlb.filter (fun e => !(p.vfmask.getLsbD e.vf)) })
      let s2 := { s1 with
        cores := cores, mem := s1.mem.filter (fun c => !(gone c.1)), poison := s1.poison.filter (fun q => !(gone (16 * q.1))),
        brocade := s1.brocade.filter (fun l => !(lost l)) }
      .next ((s2.setPart part p1).send (.mailbox true 0))

/-! ## The host's accesses to memory (R399, R400) -/

/-- One byte written under a VF's flat keys through its home slice; dropped where the translation faults. -/
def State.flatPut (s : State) (v va : Nat) (b : Byte) : State × Bool :=
  let line := va / 64 * 64
  match s.walk v line true with
  | .fault _ => (s, false)
  | .ok pa => (s.homeWrite (flatKey v line) line [pa] (va % 64) [b] none, true)

/-- Bytes written under a VF's flat keys, and whether every one found its place. -/
def State.flatPutAll (v : Nat) : Nat → List Byte → State → State × Bool
  | _, [], s => (s, true)
  | va, b :: bs, s =>
    let x := s.flatPut v va b
    let y := State.flatPutAll v (va + 1) bs x.1
    (y.1, x.2 && y.2)

/-- Whether some partition's memory holds a physical address. -/
def State.owned (s : State) (pa : Nat) : Bool := s.parts.any (fun p => p.2.owns pa)

/-- HOST_CXL_MEM_WRITE (R399, R400): the PF writes physical memory of a partition, a VF its own virtual addresses; a write that
faults is dropped. -/
def execHostCxlMemWrite (pf : Bool) (vf addr : Nat) (bytes : List (BitVec 8)) (s : State) : Host.Outcome State Fault Refusal :=
  if pf then
    if (List.range bytes.length).all (fun i => s.owned (addr + i)) then .next ((s.physPut addr bytes).send .writeDone)
    else .next (s.send .writeDropped)
  else
    let r := State.flatPutAll vf addr bytes s
    .next (r.1.send (if r.2 then .writeDone else .writeDropped))

/-- Bytes read under a VF's flat keys, and whether they are poisoned: what faults is completed with poisoned data of free bytes. -/
def State.flatRead (s : State) (v addr len : Nat) : State × List Byte × Bool :=
  match s.readFlat v addr len with
  | .ok s1 bs => (s1, bs, false)
  | .fault s1 _ => (s1, freeBytes s.cur.draw 399 len, true)
  | .poison s1 => (s1, freeBytes s.cur.draw 399 len, true)

/-- HOST_CXL_MEM_READ (R399): a read that faults is completed with poisoned data, whose bytes are free. -/
def execHostCxlMemRead (pf : Bool) (vf addr len : Nat) (s : State) : Host.Outcome State Fault Refusal :=
  let junk := freeBytes s.cur.draw 399 len
  if pf then
    if !((List.range len).all (fun i => s.owned (addr + i))) then .next (s.send (.readData junk true))
    else if (List.range len).any (fun i => s.physPoison (addr + i)) then .next (s.send (.readData junk true))
    else .next (s.send (.readData (s.physBytes addr len) false))
  else
    let x := s.flatRead vf addr len
    .next (x.1.send (.readData x.2.1 x.2.2))

/-! ## Errors (R181, R326, R397, R402) -/

/-- A present line met by an error: a clean sector that is filled again comes poisoned, whether it already has is free. -/
def BLine.strike (draw pa : Nat) (l : BLine) : BLine :=
  let i := pa % 64 / 16
  if l.pa == some (pa / 64 * 64) && !(l.dirty.getLsbD i) && Config.freeBool draw pa 402 then
    { l with poison := l.poison ||| (1#4 <<< i), covered := l.covered &&& ~~~(sectorBytes (1#4 <<< i)) }
  else l

/-- UNCORRECTABLE_ERROR (R402): the sector is poisoned. -/
def execUncorrectableError (pa : Nat) (s : State) : Host.Outcome State Fault Refusal :=
  if !(physOk pa) then .fault (.noSuchAddress pa)
  else
    .next { s with poison := AMap.put s.poison (pa / 16) 0#16, brocade := s.brocade.map (BLine.strike s.cur.draw pa) }

/-- PCIE_LINK_ERROR (R397): a running checkpoint fails with ERR 5. -/
def execPcieLinkError (s : State) : Host.Outcome State Fault Refusal :=
  .next (s.parts.foldl (fun s p => if p.2.ckState = 1 ∨ p.2.ckState = 2 ∨ p.2.ckState = 5 then s.failCkpt p.1 5 else s) s)

/-! ## Power (R410) -/

/-- CLOCK_STEP: 50 MHz down, no lower than 525 MHz, or up, no higher than 1,050 MHz; in the safe state the clock stays at its
lowest step (R405). -/
def execClockStep (up : Bool) (s : State) : Host.Outcome State Fault Refusal :=
  match s.boot with
  | .running => .next { s with clockMHz := if up then Nat.min 1050 (s.clockMHz + 50) else Nat.max 525 (s.clockMHz - 50) }
  | _ => .next s

/-! ## Attestation (R407) -/

/-- A response of the SPDM responder: its body is an external standard's (log 50). -/
def State.spdm (s : State) (code : BitVec 8) (n : Nat) (req : List Byte) : State :=
  if s.boot = .off then s else s.send (.spdm code (Config.spdmBytes n req))

/-- GET_VERSION: VERSION. -/
def execGetVersion (s : State) : Host.Outcome State Fault Refusal := .next (s.spdm 0x04#8 0 [])

/-- GET_CAPABILITIES: CAPABILITIES. -/
def execGetCapabilities (s : State) : Host.Outcome State Fault Refusal := .next (s.spdm 0x61#8 1 [])

/-- NEGOTIATE_ALGORITHMS: ALGORITHMS. -/
def execNegotiateAlgorithms (s : State) : Host.Outcome State Fault Refusal := .next (s.spdm 0x63#8 2 [])

/-- GET_DIGESTS: DIGESTS. -/
def execGetDigests (s : State) : Host.Outcome State Fault Refusal := .next (s.spdm 0x01#8 3 [])

/-- GET_CERTIFICATE: CERTIFICATE. -/
def execGetCertificate (offset len : Nat) (s : State) : Host.Outcome State Fault Refusal :=
  .next (s.spdm 0x02#8 4 (leBytes offset 4 ++ leBytes len 4))

/-- CHALLENGE: CHALLENGE_AUTH. -/
def execChallenge (nonce : List (BitVec 8)) (s : State) : Host.Outcome State Fault Refusal := .next (s.spdm 0x03#8 5 nonce)

/-- ERROR with an error code. -/
def State.spdmError (s : State) (code data : BitVec 8) : State := if s.boot = .off then s else s.send (.spdm 0x7F#8 [code, data])

/-- GET_MEASUREMENTS: MEASUREMENTS for the firmware, Zynrus or the image of a partition that there is; another index is an
ERROR (log 50). -/
def execGetMeasurements (index : Nat) (s : State) : Host.Outcome State Fault Refusal :=
  if index = 1 ∨ index = 2 then .next (s.spdm 0x60#8 6 (leBytes index 1))
  else
    match (if 16 ≤ index then AMap.look s.parts (index - 16) else none) with
    | some p => .next (s.spdm 0x60#8 6 (leBytes index 1 ++ p.image))
    | none => .next (s.spdmError 0x01#8 0#8)

/-- UNSUPPORTED_REQUEST: ERROR with UnsupportedRequest. -/
def execUnsupportedRequest (code : BitVec 8) (s : State) : Host.Outcome State Fault Refusal := .next (s.spdmError 0x07#8 code)

/-! ## Writes from outside agents (R401, R403) -/

/-- OTHER_HOST_WRITE (R401): another host writes a shared CXL device; the device's own lines do not see it. -/
def execOtherHostWrite (pa : Nat) (bytes : List (BitVec 8)) (s : State) : Host.Outcome State Fault Refusal :=
  match (List.range bytes.length).find? (fun i => !(physOk (pa + i)) || decide (pa + i < 2 ^ 48)) with
  | some i => if physOk (pa + i) then .next s else .fault (.noSuchAddress (pa + i))
  | none => .next { s with mem := s.mem.putBytes pa bytes }

/-- CONTROLLER_DMA (R403, R404): a controller writes and reads under the system VF's flat keys; of a write, what lies outside the
partition is dropped, and a read of it is completed with poisoned data, whose bytes are free (log 49). -/
def execControllerDma (part addr : Nat) (xfer : DmaXfer) (s : State) : Host.Outcome State Fault Refusal :=
  match AMap.look s.parts part with
  | some p =>
    (match xfer with
    | .write bytes => .next (State.flatPutAll p.sysvf addr bytes s).1
    | .read len =>
      let x := s.flatRead p.sysvf addr len
      .next (x.1.send (.dmaData x.2.1 x.2.2)))
  | none => .next s

/-- NVME_COMMAND (R403): a command of another namespace is rejected. -/
def execNvmeCommand (part nsid : Nat) (s : State) : Host.Outcome State Fault Refusal :=
  match AMap.look s.parts part with
  | some p => .next (s.send (.nvmeStatus (p.nvme.toNat % 2 ^ 32 == nsid)))
  | none => .next s

end Sys2Proof.Machine
end

