-- ==== Sys2Proof/Machine/Groups.lean ====
section
/-! DEFINITION. The group words (R104 to R113). -/

namespace Sys2Proof.Machine

open Sys2Proof

/-- The form of the group words (R108). -/
def groupForm : Form := { helper := false }

/-- A free group number, the lowest. -/
def Core.freeGroup (c : Core) : Option Nat := lowest (fun g => !(AMap.has c.groups g)) 64 0

/-- Adds a thread to a group as a member with no arrival mark; a member stays as it is. -/
def Core.addMember (c : Core) (u g : Nat) : Core :=
  { c with groups := AMap.upd c.groups g (fun x => if AMap.has x.members u then x else { x with members := x.members ++ [(u, none)] }) }

/-- JOIN in one thread (R109): the group made for the run so far, and what each thread's result is. -/
def joinThread (g : Word) (u : Nat) (st : Core × Option Word) : Word × (Core × Option Word) :=
  let c := st.1
  if g = 0xFFFFFFFF#32 then
    match st.2 with
    | some n => if n = 0xFFFFFFFF#32 then (n, st) else (n, (c.addMember u n.toNat, st.2))
    | none =>
      match c.freeGroup with
      | none => (0xFFFFFFFF#32, (c, some 0xFFFFFFFF#32))
      | some n =>
        (BitVec.ofNat 32 n, ({ c with groups := AMap.put c.groups n ⟨[(u, none)], 0#32, []⟩ }, some (BitVec.ofNat 32 n)))
  else if g.toNat < 64 ∧ AMap.has c.groups g.toNat = true then (g, (c.addMember u g.toNat, st.2))
  else (0xFFFFFFFE#32, st)

/-- JOIN in each thread in turn, with the results by thread. -/
def joinAll (g : Nat → Word) : List Nat → Core × Option Word → AMap Word × Core
  | [], st => ([], st.1)
  | u :: us, st =>
    let r := joinThread (g u) u st
    let rest := joinAll g us r.2
    ((u, r.1) :: rest.1, rest.2)

/-- JOIN (R109). -/
def execJoin (_lk : Link) (d a : Reg) (s : State) : Host.Outcome State Fault Refusal :=
  finish s (warpWord groupForm s [a] [d] (fun c act =>
    let r := joinAll (fun u => c.readReg s.cur.draw u a) act (c, none)
    r.2.plainResults act d (fun u => AMap.lookD r.1 u 0#32)))

/-- LEAVE (R110). -/
def execLeave (_lk : Link) (a : Reg) (s : State) : Host.Outcome State Fault Refusal :=
  finish s (warpWord groupForm s [a] [] (fun c act =>
    .ok (act.foldl (fun c1 u => c1.leaveGroup u (c.readReg s.cur.draw u a).toNat) c).checkGroups))

/-- The check of GBAR, GFIRE and GSIG: A names a group of which the thread is a member (R111). -/
def Core.memberCheck (c : Core) (act : List Nat) (g : Nat → Nat) : Res Unit :=
  match act.find? (fun u => !(match AMap.look c.groups (g u) with | some x => AMap.has x.members u | none => false)) with
  | some u => .trap (trapAt .illegalOperand (c.th u).lane)
  | none => .ok ()

/-- The phase count of a group. -/
def Core.phaseOf (c : Core) (g : Nat) : Word := match AMap.look c.groups g with | some x => x.phase | none => 0#32

/-- A thread arrives at its group's current phase, unless it has: a release, which takes effect when the requests it
follows are done (R107). -/
def Core.arrive (c : Core) (u g : Nat) : Core :=
  { c with groups := AMap.upd c.groups g (fun x =>
      if AMap.lookD x.members u none = some x.phase then x
      else
        let ids := c.pendingOf u
        { x with members := AMap.put x.members u (some x.phase), late := if ids.isEmpty then x.late else x.late ++ [(u, ids)] }) }

/-- GBAR (R111). -/
def execGbar (_lk : Link) (a : Reg) (s : State) : Host.Outcome State Fault Refusal :=
  finish s (warpWord groupForm s [a] [] (fun c act =>
    let g (u : Nat) : Nat := (c.readReg s.cur.draw u a).toNat
    (c.memberCheck act g).bind fun _ =>
    let wait1 (c1 : Core) (u : Nat) : Core :=
      (c1.arrive u (g u)).updTh u (fun t => { t with hold := .gbar (g u) (c.phaseOf (g u)) t.pc s.cur.back, pc := s.cur.pc })
    .ok (act.foldl wait1 c).checkGroups))

/-- GFIRE (R112). -/
def execGfire (_lk : Link) (d a : Reg) (s : State) : Host.Outcome State Fault Refusal :=
  finish s (warpWord groupForm s [a] [d] (fun c act =>
    let g (u : Nat) : Nat := (c.readReg s.cur.draw u a).toNat
    (c.memberCheck act g).bind fun _ =>
    (act.foldl (fun c1 u => c1.arrive u (g u)) c).checkGroups.plainResults act d (fun u => c.phaseOf (g u))))

/-- Whether phase `b` of a group has completed (R113). -/
def phasePassed (phase b : Word) : Bool := decide (1 ≤ (phase - b).toNat) && decide ((phase - b).toNat ≤ 2 ^ 31)

/-- GSIG (R113): a result of 1 acquires. -/
def execGsig (_lk : Link) (d a b : Reg) (s : State) : Host.Outcome State Fault Refusal :=
  finish s (warpWord groupForm s [a, b] [d] (fun c act =>
    let g (u : Nat) : Nat := (c.readReg s.cur.draw u a).toNat
    (c.memberCheck act g).bind fun _ =>
    let done (u : Nat) : Bool := phasePassed (c.phaseOf (g u)) (c.readReg s.cur.draw u b)
    (if act.any done then c.acquire else c).plainResults act d (fun u => if done u then 1#32 else 0#32)))

end Sys2Proof.Machine
end

