-- ==== Sys2Proof/Machine/HostLink.lean ====
section
/-! DEFINITION. The host link (R393 to R398): the host's answers, the registers of the functions' BARs, and the drain window. -/

namespace Sys2Proof.Machine

open Sys2Proof

/-! ## The host's answers (R393, R395, R396) -/

/-- What an answer of a KIND does to the record that it names; none where the KIND does not fit the record (R393). -/
def State.harespAct (s : State) (part kind arg : Nat) (k : HaKind) : Option State :=
  match k with
  | .xlate cl e g =>
    if kind = 1 then some (s.serveEntry s.cur.draw cl e g true).1
    else if kind = 2 then some (s.serveEntry s.cur.draw cl e g false).1
    else none
  | .copy r => if kind = 3 then some (s.serveCopy r).1 else none
  | .relaunch v slot patch =>
    if kind = 4 then some (s.trigger v slot patch)
    else if kind = 5 then some s
    else none
  | .pieces first n =>
    if kind = 6 ∧ first ≤ arg ∧ arg < first + n then some ((s.pieceDrained part arg).finishCkpt part) else none

/-- An answer of the host: one that names no pending record sets ERR 1, one that does not fit its record ERR 2, and neither has
any other effect (R393). -/
def State.answer (s : State) (part kind arg : Nat) (tag : BitVec 16) : State :=
  match AMap.look s.parts part with
  | none => s
  | some p =>
    match p.haPending.find? (fun e => e.1 == tag) with
    | none => s.setPart part { p with haErr := 1 }
    | some e =>
      match (s.setPart part { p with haPending := p.haPending.erase e }).harespAct part kind arg e.2 with
      | some t => t
      | none => s.setPart part { p with haErr := 2 }

/-- HARESP_RESOLVE (R179, R393). -/
def execHarespResolve (part : Nat) (arg : BitVec 32) (tag : BitVec 16) (s : State) : Host.Outcome State Fault Refusal :=
  .next (s.atBar (s.answer part 1 arg.toNat tag))

/-- HARESP_ABORT (R179, R393). -/
def execHarespAbort (part : Nat) (arg : BitVec 32) (tag : BitVec 16) (s : State) : Host.Outcome State Fault Refusal :=
  .next (s.atBar (s.answer part 2 arg.toNat tag))

/-- HARESP_MAKE_COPY (R325, R393). -/
def execHarespMakeCopy (part : Nat) (arg : BitVec 32) (tag : BitVec 16) (s : State) : Host.Outcome State Fault Refusal :=
  .next (s.atBar (s.answer part 3 arg.toNat tag))

/-- HARESP_START_RUN (R395): the trigger is queued as if the host had written it. -/
def execHarespStartRun (part : Nat) (arg : BitVec 32) (tag : BitVec 16) (s : State) : Host.Outcome State Fault Refusal :=
  .next (s.atBar (s.answer part 4 arg.toNat tag))

/-- HARESP_DISCARD_RUN (R395). -/
def execHarespDiscardRun (part : Nat) (arg : BitVec 32) (tag : BitVec 16) (s : State) : Host.Outcome State Fault Refusal :=
  .next (s.atBar (s.answer part 5 arg.toNat tag))

/-- HARESP_PIECE_DRAINED (R396): the piece that ARG names is unfrozen, and after the last the checkpoint is complete. -/
def execHarespPieceDrained (part : Nat) (arg : BitVec 32) (tag : BitVec 16) (s : State) : Host.Outcome State Fault Refusal :=
  .next (s.atBar (s.answer part 6 arg.toNat tag))

/-- A write of HAQHEAD (R398): a HEAD that would pass TAIL is refused with ERR 3; room lets waiting records be written (R392). -/
def State.writeHead (s : State) (part : Nat) (v : Word) : State :=
  match AMap.look s.parts part with
  | none => s
  | some p =>
    let h := v.toNat % 256
    if (p.haTail + 256 - p.haHead) % 256 < (h + 256 - p.haHead) % 256 then s.setPart part { p with haErr := 3 }
    else (s.setPart part { p with haHead := h }).drainHa part 255

/-- HAQHEAD_WRITE (R398). -/
def execHaqheadWrite (part : Nat) (v : BitVec 32) (s : State) : Host.Outcome State Fault Refusal :=
  .next (s.atBar (s.writeHead part v))

/-! ## The registers of the BARs (R397, R398) -/

/-- The register that a partition block or a VF block of the PF's BAR 0, or a VF's BAR 0, holds at an offset. -/
def partReg (p o : Nat) : RegTarget :=
  if o = 0x000 then .haqhead p
  else if o = 0x004 then .haqtail p
  else if o = 0x008 then .haresp p
  else if o = 0x010 then .hastat p
  else if o = 0x018 then .drainsel p
  else .unlisted

@[inherit_doc partReg]
def vfReg (v o : Nat) : RegTarget :=
  if o = 0x000 then .ptroot v
  else if o = 0x008 then .vfweight v
  else if o = 0x00C then .pretimers v
  else if o = 0x010 then .trapbase v
  else .unlisted

@[inherit_doc partReg]
def vfBarReg (v o : Nat) : RegTarget :=
  if o = 0x0000 then .trigger v
  else if o = 0x0008 then .graphload v
  else if 0x0100 ≤ o ∧ o < 0x0180 ∧ o % 8 = 0 then .graphstat v ((o - 0x0100) / 8)
  else if 0x1000 ≤ o ∧ o < 0x1040 ∧ o % 8 = 0 then .msix v ((o - 0x1000) / 8)
  else .unlisted

/-- The register that an offset of a BAR names; every other target is a register already. -/
def regAt : RegTarget → RegTarget
  | .pfBar0 o =>
    if 0x80000 ≤ o ∧ o < 0x88000 then partReg ((o - 0x80000) / 0x1000) (o % 0x1000)
    else if 0x100000 ≤ o ∧ o < 0x140000 then vfReg ((o - 0x100000) / 0x1000) (o % 0x1000)
    else .unlisted
  | .vfBar0 v o => vfBarReg v o
  | r => r

/-- A write of a register's whole width, by its map: a read-only register and an offset not listed ignore it (R398). -/
def State.writeReg (s : State) (draw : Nat) (r : RegTarget) (v : DWord) : State :=
  let w := v.setWidth 32
  match r with
  | .ptroot n => s.setVf n { (s.vf n) with ptroot := ptrootMap v }
  | .vfweight n => s.setVf n { (s.vf n) with weight := weightMap w.toNat }
  | .trapbase n => s.writeTrapbase draw n v
  | .pretimers n => s.writePretimers n w
  | .ckptctl p => s.onPart p (fun x => { x with ckRate := rateMap w.toNat })
  | .ckptbuf p => s.onPart p (fun x => { x with ckBuf := ckptbufMap v })
  | .ckptrsv p => s.onPart p (fun x => { x with ckRsv := ckptrsvMap v })
  | .haqhead p => s.writeHead p w
  | .haresp p => s.answer p (bits v.toNat 63 60) (bits v.toNat 47 16) (v.setWidth 16)
  | .hastat p => s.onPart p (fun x => { x with haErr := if w.toNat % 16 = 0 then x.haErr else 0 })
  | .drainsel p => (match AMap.look s.parts p with
    | some x => { s.setPart p { x with drainsel := w } with drainPart := some p }
    | none => s)
  | .faultq k => s.onCore k (fun c => c.writeFaultq w)
  | .vocab k => s.onCore k (fun c => { c with vocab := w &&& 0xFFFFF#32 })
  | .vocabpad k => s.onCore k (fun c => { c with vocabpad := w })
  | .trigger n => s.trigger n (trigSlot v) (trigPatch v)
  | .graphload n => if v.getLsbD 0 then s.graphUnload n (trigSlot v) else s.graphLoad n (trigSlot v) v
  | .graphstat n slot => s.graphStat n slot v
  | .msix n i => s.setVf n { (s.vf n) with msix := AMap.put (s.vf n).msix i v }
  | .haqtail _ | .devcap | .unlisted | .pfBar0 _ | .vfBar0 .. => s

/-- PRETIMERS_WRITE (R364). -/
def execPretimersWrite (vf : Nat) (v : BitVec 32) (s : State) : Host.Outcome State Fault Refusal :=
  .next (s.atBar (s.writePretimers vf v))

/-- REGISTER_WRITE (R380, R398). -/
def execRegisterWrite (target : RegTarget) (v : BitVec 64) (s : State) : Host.Outcome State Fault Refusal :=
  .next (s.atBar (s.writeReg s.cur.draw (regAt target) v))

/-! ## What the host reads through the BARs (R396 to R398) -/

/-- The value of a register of the BARs: a write-only register, one of an absent partition and an offset not listed read 0. -/
def State.readReg (s : State) (r : RegTarget) : DWord :=
  let part (p : Nat) (f : Part → Nat) : DWord := match AMap.look s.parts p with | some x => BitVec.ofNat 64 (f x) | none => 0#64
  match r with
  | .haqhead p => part p (fun x => x.haHead)
  | .haqtail p => part p (fun x => x.haTail)
  | .hastat p => part p (fun x => x.hastat.toNat)
  | .drainsel p => part p (fun x => x.drainsel.toNat)
  | .ptroot v => (s.vf v).ptroot
  | .vfweight v => BitVec.ofNat 64 (s.vf v).weight
  | .pretimers v => BitVec.ofNat 64 (s.vf v).pretimers.toNat
  | .trapbase v => (s.vf v).trapbase
  | .graphstat v slot => (s.gslot v slot).stat
  | .msix v i => AMap.lookD (s.vf v).msix i 0#64
  | _ => 0#64

/-- What the host reads at an offset of BAR 0 of the PF, and of a VF; while the BARs are closed, 0 (R405). -/
def State.pfBar0 (s : State) (o : Nat) : DWord := if s.boot = .running then s.readReg (regAt (.pfBar0 o)) else 0#64

@[inherit_doc State.pfBar0]
def State.vfBar0 (s : State) (v o : Nat) : DWord := if s.boot = .running then s.readReg (regAt (.vfBar0 v o)) else 0#64

/-- The drain window of BAR 2 of the PF (R396): the bytes, as the drain takes them, of the piece that DRAINSEL names, of the
partition whose DRAINSEL was written last (log 117). -/
def State.drainWindow (s : State) : List Byte :=
  match s.drainPart.bind (AMap.look s.parts) with
  | none => List.replicate 65536 0#8
  | some p =>
    match p.pieces.drop p.drainsel.toNat with
    | x :: _ => s.pieceBytes p x
    | [] => List.replicate 65536 0#8

end Sys2Proof.Machine
end

