-- ==== Sys2Proof/Machine/Integer.lean ====
section
/-! DEFINITION. The integer words of majors 0x0B to 0x14 (R114 to R130): 32 bits in warp code, 64 in front-end code. -/

namespace Sys2Proof.Machine

open Sys2Proof

/-! ## Shapes -/

/-- An integer word: its result per thread in warp code, filling y0, and in the front end. -/
def intWord (f : Form) (s : State) (d : Reg) (srcs : List Reg) (warp : Core → Nat → Word) (front : FrontEnd → DWord) : Res State :=
  bothWord { f with stream := .both } s srcs [d]
    (fun c act => c.results s.cur.draw .x s.cur.run act d (warp c))
    (fun x => .ok (x.write d (front x) 4))

/-- A word of two sources. -/
def binWord (f : Form) (s : State) (d a b : Reg) (op : (w : Nat) → BitVec w → BitVec w → BitVec w) : Res State :=
  let n := s.cur.draw
  intWord f s d [a, b] (fun c u => op 32 (c.readReg n u a) (c.readReg n u b)) (fun x => op 64 (x.read n a) (x.read n b))

/-- A word of one source. -/
def unWord (f : Form) (s : State) (d a : Reg) (op : (w : Nat) → BitVec w → BitVec w) : Res State :=
  let n := s.cur.draw
  intWord f s d [a] (fun c u => op 32 (c.readReg n u a)) (fun x => op 64 (x.read n a))

/-- A word that also reads its destination where it executes (R116). -/
def modWord (f : Form) (s : State) (d : Reg) (srcs : List Reg) (warp : Core → Nat → Word → Word) (front : FrontEnd → DWord → DWord) : Res State :=
  let n := s.cur.draw
  intWord f s d srcs (fun c u => warp c u (c.readReg n u d)) (fun x => front x (x.read n d))

/-! ## Arithmetic -/

/-- The nearest integer in a range, as bits. -/
def clampTo (w : Nat) (n lo hi : Int) : BitVec w := BitVec.ofInt w (if n < lo then lo else if hi < n then hi else n)

/-- Signed saturation. -/
def clampS (w : Nat) (n : Int) : BitVec w := clampTo w n (-(2 ^ (w - 1) : Nat)) ((2 ^ (w - 1) : Nat) - 1)

/-- Unsigned saturation. -/
def clampU (w : Nat) (n : Int) : BitVec w := clampTo w n 0 ((2 ^ w : Nat) - 1)

/-- IADD with its saturation (R120). -/
def addSat (sat : Bool) (sel : BitVec 4) (w : Nat) (a b : BitVec w) : BitVec w :=
  if !sat then a + b
  else if sel = 0#4 then clampS w (a.toInt + b.toInt)
  else clampU w ((a.toNat : Int) + b.toNat)

/-- ISUB with its saturation (R120). -/
def subSat (sat : Bool) (sel : BitVec 4) (w : Nat) (a b : BitVec w) : BitVec w :=
  if !sat then a - b
  else if sel = 0#4 then clampS w (a.toInt - b.toInt)
  else clampU w ((a.toNat : Int) - b.toNat)

/-- IADDI with its saturation: the unsigned form adds the signed immediate (R120). -/
def addImm (sat : Bool) (sel : BitVec 4) (m : BitVec 9) (w : Nat) (a : BitVec w) : BitVec w :=
  if !sat then a + m.signExtend w
  else if sel = 0#4 then clampS w (a.toInt + m.toInt)
  else clampU w ((a.toNat : Int) + m.toInt)

/-- IMULH: the high half of the product (R121). -/
def mulHigh (sel : BitVec 4) (w : Nat) (a b : BitVec w) : BitVec w :=
  let p : Int :=
    if sel = 0#4 then (a.toNat : Int) * b.toNat
    else if sel = 1#4 then a.toInt * b.toInt
    else a.toInt * b.toNat
  BitVec.ofInt w (p / (2 ^ w : Nat))

/-- IDIVS (R122). -/
def divide (sel : BitVec 4) (w : Nat) (a b : BitVec w) : BitVec w :=
  if sel = 0#4 then (if b = 0#w then BitVec.allOnes w else BitVec.ofNat w (a.toNat / b.toNat))
  else if sel = 1#4 then
    (if b = 0#w then BitVec.allOnes w
     else if a.toInt = -(2 ^ (w - 1) : Nat) ∧ b.toInt = -1 then a
     else BitVec.ofInt w (a.toInt.tdiv b.toInt))
  else if sel = 2#4 then (if b = 0#w then a else BitVec.ofNat w (a.toNat % b.toNat))
  else
    (if b = 0#w then a
     else if a.toInt = -(2 ^ (w - 1) : Nat) ∧ b.toInt = -1 then 0#w
     else BitVec.ofInt w (a.toInt - b.toInt * a.toInt.tdiv b.toInt))

/-! ## Shifts and bits -/

/-- SHL (R124). -/
def shiftL (w : Nat) (a b : BitVec w) : BitVec w := if w ≤ b.toNat then 0#w else a <<< b.toNat

/-- SHR (R124). -/
def shiftR (w : Nat) (a b : BitVec w) : BitVec w := if w ≤ b.toNat then 0#w else a >>> b.toNat

/-- SAR (R124). -/
def shiftA (w : Nat) (a b : BitVec w) : BitVec w :=
  if w ≤ b.toNat then (if a.msb then BitVec.allOnes w else 0#w) else a.sshiftRight b.toNat

/-- ROT (R124). -/
def rotate (w : Nat) (a b : BitVec w) : BitVec w :=
  let k := b.toNat % w
  if k = 0 then a else (a <<< k) ||| (a >>> (w - k))

/-- POPC (R126). -/
def popCount (w : Nat) (a : BitVec w) : BitVec w :=
  BitVec.ofNat w ((List.range w).foldl (fun n i => if a.getLsbD i then n + 1 else n) 0)

/-- CLZ (R126). -/
def leadZeros (w : Nat) (a : BitVec w) : BitVec w :=
  if a = 0#w then BitVec.ofNat w w else BitVec.ofNat w (w - 1 - Nat.log2 a.toNat)

/-- BREV (R126). -/
def bitReverse (w : Nat) (a : BitVec w) : BitVec w :=
  BitVec.ofNat w ((List.range w).foldl (fun n i => 2 * n + (if a.getLsbD i then 1 else 0)) 0)

/-- IABS (R126). -/
def absSat (sat : Bool) (w : Nat) (a : BitVec w) : BitVec w :=
  if a.toInt = -(2 ^ (w - 1) : Nat) then (if sat then BitVec.ofNat w (2 ^ (w - 1) - 1) else a)
  else BitVec.ofInt w a.toInt.natAbs

/-- The field of R129: position, clipped length. -/
def fieldOf (w : Nat) (b : BitVec w) : Nat × Nat :=
  let pos := b.toNat % 256
  let len := b.toNat / 256 % 256
  (pos, if w ≤ pos then 0 else min len (w - pos))

/-- BFX (R129). -/
def fieldX (w : Nat) (a b : BitVec w) : BitVec w :=
  let f := fieldOf w b
  BitVec.ofNat w (a.toNat / 2 ^ f.1 % 2 ^ f.2)

/-- BFXS (R129). -/
def fieldS (w : Nat) (a b : BitVec w) : BitVec w :=
  let f := fieldOf w b
  if f.2 = 0 then 0#w else BitVec.ofInt w (sext f.2 (a.toNat / 2 ^ f.1))

/-- BFI (R129). -/
def fieldI (w : Nat) (a b d : BitVec w) : BitVec w :=
  let f := fieldOf w b
  if f.2 = 0 then d
  else
    let m := BitVec.ofNat w ((2 ^ f.2 - 1) * 2 ^ f.1)
    (d &&& ~~~m) ||| ((a <<< f.1) &&& m)

/-- ICMP's conditions (R130). -/
def intCond (k : BitVec 4) (w : Nat) (a b : BitVec w) : Bool :=
  if k = 0#4 then a == b
  else if k = 1#4 then !(a == b)
  else if k = 2#4 then a.slt b
  else if k = 3#4 then a.sle b
  else if k = 4#4 then b.slt a
  else if k = 5#4 then b.sle a
  else if k = 6#4 then a.ult b
  else if k = 7#4 then a.ule b
  else if k = 8#4 then b.ult a
  else if k = 9#4 then b.ule a
  else if k = 10#4 then !(a &&& b == 0#w)
  else a &&& b == 0#w

/-! ## Moves -/

/-- MOVI (R119). -/
def execMovi (_lk : Link) (d : Reg) (m : BitVec 16) (s : State) : Host.Outcome State Fault Refusal :=
  finish s (intWord {} s d [] (fun _ _ => m.setWidth 32) (fun _ => m.setWidth 64))

/-- MOVH's result (R119). -/
def moveHigh (m : BitVec 16) (w : Nat) (d : BitVec w) : BitVec w :=
  (d &&& ~~~(BitVec.ofNat w 0xFFFF0000)) ||| (m.setWidth w <<< 16)

/-- MOVH (R119). -/
def execMovh (_lk : Link) (d : Reg) (m : BitVec 16) (s : State) : Host.Outcome State Fault Refusal :=
  finish s (modWord {} s d [] (fun _ _ v => moveHigh m 32 v) (fun _ v => moveHigh m 64 v))

/-! ## Addition -/

/-- IADD, ISUB and IADDI accept SEL 1 only with SAT (R120). -/
def satForm (s : State) : Form := { sat := true, sel := fun e => s.ext.sat && e == 1#4 }

/-- IADDI (R120). -/
def execIaddi (_lk : Link) (d a : Reg) (m : BitVec 9) (s : State) : Host.Outcome State Fault Refusal :=
  finish s (unWord (satForm s) s d a (addImm s.ext.sat s.ext.sel m))

/-- IADD (R120). -/
def execIadd (_lk : Link) (d a b : Reg) (s : State) : Host.Outcome State Fault Refusal :=
  finish s (binWord (satForm s) s d a b (addSat s.ext.sat s.ext.sel))

/-- ISUB (R120). -/
def execIsub (_lk : Link) (d a b : Reg) (s : State) : Host.Outcome State Fault Refusal :=
  finish s (binWord (satForm s) s d a b (subSat s.ext.sat s.ext.sel))

/-! ## Multiplication and division -/

/-- IMUL (R121). -/
def execImul (_lk : Link) (d a b : Reg) (s : State) : Host.Outcome State Fault Refusal :=
  finish s (binWord {} s d a b (fun _ x y => x * y))

/-- IMULH (R121). -/
def execImulh (_lk : Link) (d a b : Reg) (s : State) : Host.Outcome State Fault Refusal :=
  finish s (binWord { sel := fun e => decide (e.toNat ≤ 2) } s d a b (mulHigh s.ext.sel))

/-- IMAD (R121): the addend is C3, or the old destination where no C3 is named (R51). -/
def execImad (_lk : Link) (d a b : Reg) (s : State) : Host.Outcome State Fault Refusal :=
  let n := s.cur.draw
  let c3 := s.ext.c3
  let add := if c3 = 0#7 then d else c3
  finish s (intWord { c3 := true } s d (if c3 = 0#7 then [a, b] else [a, b, c3])
    (fun c u => c.readReg n u a * c.readReg n u b + c.readReg n u add)
    (fun x => x.read n a * x.read n b + x.read n add))

/-- IDIVS (R122). -/
def execIdivs (_lk : Link) (d a b : Reg) (s : State) : Host.Outcome State Fault Refusal :=
  finish s (binWord { sel := fun e => decide (e.toNat ≤ 3) } s d a b (divide s.ext.sel))

/-! ## Logic -/

/-- AND (R123). -/
def execAnd (_lk : Link) (d a b : Reg) (s : State) : Host.Outcome State Fault Refusal :=
  finish s (binWord {} s d a b (fun _ x y => x &&& y))

/-- OR (R123). -/
def execOr (_lk : Link) (d a b : Reg) (s : State) : Host.Outcome State Fault Refusal :=
  finish s (binWord {} s d a b (fun _ x y => x ||| y))

/-- XOR (R123). -/
def execXor (_lk : Link) (d a b : Reg) (s : State) : Host.Outcome State Fault Refusal :=
  finish s (binWord {} s d a b (fun _ x y => x ^^^ y))

/-- ANDN (R123). -/
def execAndn (_lk : Link) (d a b : Reg) (s : State) : Host.Outcome State Fault Refusal :=
  finish s (binWord {} s d a b (fun _ x y => x &&& ~~~y))

/-! ## Shifts -/

/-- SHL (R124). -/
def execShl (_lk : Link) (d a b : Reg) (s : State) : Host.Outcome State Fault Refusal := finish s (binWord {} s d a b shiftL)

/-- SHR (R124). -/
def execShr (_lk : Link) (d a b : Reg) (s : State) : Host.Outcome State Fault Refusal := finish s (binWord {} s d a b shiftR)

/-- SAR (R124). -/
def execSar (_lk : Link) (d a b : Reg) (s : State) : Host.Outcome State Fault Refusal := finish s (binWord {} s d a b shiftA)

/-- ROT (R124). -/
def execRot (_lk : Link) (d a b : Reg) (s : State) : Host.Outcome State Fault Refusal := finish s (binWord {} s d a b rotate)

/-! ## Magnitudes -/

/-- IMIN (R125). -/
def execImin (_lk : Link) (d a b : Reg) (s : State) : Host.Outcome State Fault Refusal :=
  finish s (binWord {} s d a b (fun _ x y => if y.slt x then y else x))

/-- IMAX (R125). -/
def execImax (_lk : Link) (d a b : Reg) (s : State) : Host.Outcome State Fault Refusal :=
  finish s (binWord {} s d a b (fun _ x y => if x.slt y then y else x))

/-- UMIN (R125). -/
def execUmin (_lk : Link) (d a b : Reg) (s : State) : Host.Outcome State Fault Refusal :=
  finish s (binWord {} s d a b (fun _ x y => if y.ult x then y else x))

/-- UMAX (R125). -/
def execUmax (_lk : Link) (d a b : Reg) (s : State) : Host.Outcome State Fault Refusal :=
  finish s (binWord {} s d a b (fun _ x y => if x.ult y then y else x))

/-! ## Unary words -/

/-- POPC (R126). -/
def execPopc (_lk : Link) (d a : Reg) (s : State) : Host.Outcome State Fault Refusal := finish s (unWord {} s d a popCount)

/-- CLZ (R126). -/
def execClz (_lk : Link) (d a : Reg) (s : State) : Host.Outcome State Fault Refusal := finish s (unWord {} s d a leadZeros)

/-- BREV (R126). -/
def execBrev (_lk : Link) (d a : Reg) (s : State) : Host.Outcome State Fault Refusal := finish s (unWord {} s d a bitReverse)

/-- IABS (R126). -/
def execIabs (_lk : Link) (d a : Reg) (s : State) : Host.Outcome State Fault Refusal :=
  finish s (unWord { sat := true } s d a (absSat s.ext.sat))

/-! ## Select and address forming -/

/-- SEL (R127). -/
def execSel (_lk : Link) (d a b : Reg) (s : State) : Host.Outcome State Fault Refusal :=
  let n := s.cur.draw
  let e := s.ext.sel
  finish s (intWord { sel := fun _ => true } s d [a, b]
    (fun c u => if (c.th u).predAt n u (e.toNat % 8) != e.getLsbD 3 then c.readReg n u a else c.readReg n u b)
    (fun x => if x.predAt n 0 then x.read n a else x.read n b))

/-- LEA (R128). -/
def execLea (_lk : Link) (d a b : Reg) (s : State) : Host.Outcome State Fault Refusal :=
  finish s (binWord { sel := fun _ => true } s d a b (fun _ x y => x + (y <<< s.ext.sel.toNat)))

/-! ## Bit fields -/

/-- BFX (R129). -/
def execBfx (_lk : Link) (d a b : Reg) (s : State) : Host.Outcome State Fault Refusal := finish s (binWord {} s d a b fieldX)

/-- BFXS (R129). -/
def execBfxs (_lk : Link) (d a b : Reg) (s : State) : Host.Outcome State Fault Refusal := finish s (binWord {} s d a b fieldS)

/-- BFI (R129). -/
def execBfi (_lk : Link) (d a b : Reg) (s : State) : Host.Outcome State Fault Refusal :=
  let n := s.cur.draw
  finish s (modWord {} s d [a, b] (fun c u v => fieldI 32 (c.readReg n u a) (c.readReg n u b) v)
    (fun x v => fieldI 64 (x.read n a) (x.read n b) v))

/-! ## Compare -/

/-- ICMP (R130). -/
def execIcmp (_lk : Link) (k : BitVec 4) (p : BitVec 3) (a b : Reg) (s : State) : Host.Outcome State Fault Refusal :=
  let n := s.cur.draw
  finish s (bothWord { stream := .both, legal := decide (k.toNat ≤ 11) } s [a, b] []
    (fun c act => .ok (act.foldl (fun c1 u =>
      c1.updTh u (fun t => t.setPred p.toNat (intCond k 32 (c.readReg n u a) (c.readReg n u b)) 4)) c))
    (fun x => .ok (x.setPred p.toNat (intCond k 64 (x.read n a) (x.read n b)))))

end Sys2Proof.Machine
end

