-- ==== Sys2Proof/Machine/Sync.lean ====
section
/-! DEFINITION. The atomic and synchronisation words of majors 0x28 to 0x2F (R218 to R228). -/

namespace Sys2Proof.Machine

open Sys2Proof

/-! ## Atomics (R219 to R222) -/

/-- The operation that SEL chooses (R219). -/
def atomOp (sel : Nat) : AtomOp :=
  match sel with
  | 0 => .add
  | 1 => .min
  | 2 => .max
  | 3 => .umin
  | 4 => .umax
  | 5 => .and
  | 6 => .or
  | 7 => .xor
  | 8 => .fadd
  | 9 => .fmin
  | 10 => .fmax
  | _ => .xchg

/-- The form of an atomic: SZ 4 or 5, the float operations 32 bits wide (R218, R219). -/
def atomForm (sz : BitVec 3) (sel : BitVec 4) : Form :=
  { c3 := true, sel := fun x => decide (x.toNat ≤ 11),
    legal := sz == 4#3 || (sz == 5#3 && !(decide (8 ≤ sel.toNat) && decide (sel.toNat ≤ 10))) }

/-- The operand of an atomic: a float operation reads a constant as a float (R220, R425). -/
def atomData (c : Core) (draw : Nat) (d : Reg) (n w : Nat) (op : AtomOp) (u : Nat) : List Byte :=
  match op with
  | .fadd | .fmin | .fmax => leBytes (fp32.operand d (c.readReg draw u d)) w
  | _ => c.dataBytes draw u d n w

/-- ATOM, ATOM.acq, ATOM.rel, ATOMNR and SATOM: DATA is the operand, and takes the old value unless nothing returns. -/
def atomWord (s : State) (d : Reg) (buf : BitVec 5) (idx : Reg) (f : Bool) (sz : BitVec 3) (spaces : List Nat)
    (returns acq rel : Bool) : Res State :=
  let w := szBytes sz
  let n := szRegs sz
  let op := atomOp s.ext.sel.toNat
  memWord (atomForm sz s.ext.sel) s idx (fun c u => c.dataOk u d n true (!returns))
    (fun c => ⟨.atomic op (sz == 5#3) returns acq, spaces, buf, idx, w, f, d, if returns then n else 0,
      atomData c s.cur.draw d n w op, fun _ => [], true, rel⟩)

/-- ATOM (R221). -/
def execAtom (_lk : Link) (d : Reg) (buf : BitVec 5) (idx : Reg) (f : Bool) (sz : BitVec 3) (s : State) : Host.Outcome State Fault Refusal :=
  finish s (atomWord s d buf idx f sz [0] true false false)

/-- ATOM.acq (R221). -/
def execAtomAcq (_lk : Link) (d : Reg) (buf : BitVec 5) (idx : Reg) (f : Bool) (sz : BitVec 3) (s : State) : Host.Outcome State Fault Refusal :=
  finish s (atomWord s d buf idx f sz [0] true true false)

/-- ATOM.rel (R221). -/
def execAtomRel (_lk : Link) (d : Reg) (buf : BitVec 5) (idx : Reg) (f : Bool) (sz : BitVec 3) (s : State) : Host.Outcome State Fault Refusal :=
  finish s (atomWord s d buf idx f sz [0] true false true)

/-- ATOMNR (R221). -/
def execAtomnr (_lk : Link) (d : Reg) (buf : BitVec 5) (idx : Reg) (f : Bool) (sz : BitVec 3) (s : State) : Host.Outcome State Fault Refusal :=
  finish s (atomWord s d buf idx f sz [0] false false false)

/-- SATOM (R221). -/
def execSatom (_lk : Link) (d : Reg) (buf : BitVec 5) (idx : Reg) (f : Bool) (sz : BitVec 3) (s : State) : Host.Outcome State Fault Refusal :=
  finish s (atomWord s d buf idx f sz [1, 2] true false false)

/-- CAS (R222): DATA holds the expected value, the registers after it the new one. -/
def execCas (_lk : Link) (d : Reg) (buf : BitVec 5) (idx : Reg) (f : Bool) (sz : BitVec 3) (s : State) : Host.Outcome State Fault Refusal :=
  let w := szBytes sz
  let n := szRegs sz
  let sel := s.ext.sel
  finish s (memWord { c3 := true, sel := fun x => decide (x.toNat ≤ 3), legal := sz == 4#3 || sz == 5#3 } s idx
    (fun c u => c.blockOk u d (2 * n))
    (fun c => ⟨.atomic .cas (sz == 5#3) true (sel.getLsbD 0), [0], buf, idx, w, f, d, n,
      fun u => c.dataBytes s.cur.draw u d n w, fun u => c.dataBytes s.cur.draw u (d + BitVec.ofNat 7 n) n w, true, sel.getLsbD 1⟩))

/-! ## ACQ, REL and FENCE (R209, R210, R223) -/

/-- A word that waits for a condition of each active thread, then acts on the core; in front-end code it completes at once. -/
def orderWord (s : State) (ok : Core → Nat → Bool) (acq : Bool) : Res State :=
  bothWord { stream := .both } s [] []
    (fun c act => if !(act.all (ok c)) then .wait false else .ok (if acq && !act.isEmpty then c.acquire else c))
    (fun x => .ok x)

/-- ACQ (R223). In front-end code the invalidation is the core's. -/
def execAcq (_lk : Link) (s : State) : Host.Outcome State Fault Refusal :=
  finish s ((orderWord s Core.loadsDone true).map (fun s1 => if s.cur.fe then s1.onCore s.cur.core Core.acquire else s1))

/-- REL (R223). -/
def execRel (_lk : Link) (s : State) : Host.Outcome State Fault Refusal := finish s (orderWord s Core.released false)

/-- FENCE (R223). -/
def execFence (_lk : Link) (s : State) : Host.Outcome State Fault Refusal :=
  finish s ((orderWord s Core.released true).map (fun s1 => if s.cur.fe then s1.onCore s.cur.core Core.acquire else s1))

/-! ## Barrier words (R217, R224 to R228) -/

/-- A barrier word: it names a barrier of the core in each active thread (R217). -/
def barWord (s : State) (a : Reg) (srcs dsts : List Reg) (wb : Core → List Nat → (Nat → Nat) → Res Core)
    (fb : Core → FrontEnd → Nat → Res (Core × FrontEnd)) : Res State :=
  let k := s.cur.core
  bothWordS { stream := .both } s (a :: srcs) dsts
    (fun s1 act =>
      let c := s1.core k
      let n (u : Nat) : Nat := (c.readReg s1.cur.draw u a).toNat
      match act.find? (fun u => !(s1.barOk k (n u))) with
      | some u => .trap (trapAt .illegalOperand (c.th u).lane)
      | none => (wb c act n).map (fun c1 => s1.setCore k c1))
    (fun s1 x =>
      let n := (x.read s1.cur.draw a).toNat % 2 ^ 32
      if !(s1.barOk k n) then .trap (trapAt .illegalOperand 0)
      else (fb (s1.core k) x n).map (fun r => s1.setCore k { r.1 with fe := some r.2 }))

/-- BINIT on one barrier (R224). -/
def Core.initBar (c : Core) (n count : Nat) : Core := c.setBar n { c.bar n with count := count, left := count, early := 0, pending := 0 }

/-- BINIT (R224). -/
def execBinit (_lk : Link) (a b : Reg) (s : State) : Host.Outcome State Fault Refusal :=
  finish s (barWord s a [b] []
    (fun c act n =>
      let count (u : Nat) : Nat := (c.readReg s.cur.draw u b).toNat % 65536
      match act.find? (fun u => count u == 0) with
      | some u => .trap (trapAt .illegalOperand (c.th u).lane)
      | none => .ok (act.foldl (fun c1 u => c1.initBar (n u) (count u)) c))
    (fun c x n =>
      let count := (x.read s.cur.draw b).toNat % 65536
      if count = 0 then .trap (trapAt .illegalOperand 0) else .ok (c.initBar n count, x)))

/-- BEXPECT (R225). -/
def execBexpect (_lk : Link) (a b : Reg) (s : State) : Host.Outcome State Fault Refusal :=
  finish s (barWord s a [b] []
    (fun c act n => .ok (act.foldl (fun c1 u => c1.expectBar (n u) (c.readReg s.cur.draw u b).toNat) c))
    (fun c x n => .ok (c.expectBar n ((x.read s.cur.draw b).toNat % 2 ^ 48), x)))

/-- Arrivals of threads in turn, with the phases returned. -/
def arriveAll (n : Nat → Nat) : List Nat → Core → Core × AMap Word
  | [], c => (c, [])
  | u :: us, c =>
    let r := c.arriveBar (n u)
    let rest := arriveAll n us r.1
    (rest.1, (u, r.2) :: rest.2)

/-- BARRIVE (R226). -/
def execBarrive (_lk : Link) (d a : Reg) (s : State) : Host.Outcome State Fault Refusal :=
  finish s (barWord s a [] [d]
    (fun c act n =>
      if !(act.all c.loadsDone) then .wait false
      else
        let r := arriveAll n act c
        r.1.plainResults act d (fun u => AMap.lookD r.2 u 0#32))
    (fun c x n =>
      let r := c.arriveBar n
      .ok (r.1, x.write d (r.2.setWidth 64) 4)))

/-- BWAIT (R227). -/
def execBwait (_lk : Link) (a b : Reg) (s : State) : Host.Outcome State Fault Refusal :=
  finish s (barWord s a [b] []
    (fun c act n =>
      if !(act.all (fun u => phasePassed (c.bar (n u)).phase (c.readReg s.cur.draw u b))) then .wait false
      else .ok (if act.isEmpty then c else c.acquire))
    (fun c x n => if phasePassed (c.bar n).phase ((x.read s.cur.draw b).setWidth 32) then .ok (c.acquire, x) else .wait false))

/-- BTEST (R228). -/
def execBtest (_lk : Link) (d a b : Reg) (s : State) : Host.Outcome State Fault Refusal :=
  finish s (barWord s a [b] [d]
    (fun c act n =>
      let done (u : Nat) : Bool := phasePassed (c.bar (n u)).phase (c.readReg s.cur.draw u b)
      (if act.any done then c.acquire else c).plainResults act d (fun u => if done u then 1#32 else 0#32))
    (fun c x n =>
      let done := phasePassed (c.bar n).phase ((x.read s.cur.draw b).setWidth 32)
      .ok (if done then c.acquire else c, x.write d (if done then 1#64 else 0#64) 4)))

end Sys2Proof.Machine
end

