-- ==== Sys2Proof/Machine/Dispatch.lean ====
section
/-! DEFINITION. One arm per constructor of Instr. -/

namespace Sys2Proof.Machine

open Sys2Proof

def exec (i : Instr) (s : State) : Host.Outcome State Fault Refusal :=
  match i with
  | .hdr wait setA setB y => Sys2Proof.Machine.execHdr wait setA setB y s
  | .nop lk => Sys2Proof.Machine.execNop lk s
  | .bra ix off => Sys2Proof.Machine.execBra ix off s
  | .brc ix p n off => Sys2Proof.Machine.execBrc ix p n off s
  | .call ix off => Sys2Proof.Machine.execCall ix off s
  | .brx ix a => Sys2Proof.Machine.execBrx ix a s
  | .ret ix a => Sys2Proof.Machine.execRet ix a s
  | .exit lk => Sys2Proof.Machine.execExit lk s
  | .tail lk => Sys2Proof.Machine.execTail lk s
  | .prio lk a => Sys2Proof.Machine.execPrio lk a s
  | .sleep lk a => Sys2Proof.Machine.execSleep lk a s
  | .yield lk l => Sys2Proof.Machine.execYield lk l s
  | .dqput ix a b => Sys2Proof.Machine.execDqput ix a b s
  | .dqtake lk d => Sys2Proof.Machine.execDqtake lk d s
  | .join lk d a => Sys2Proof.Machine.execJoin lk d a s
  | .leave lk a => Sys2Proof.Machine.execLeave lk a s
  | .gbar lk a => Sys2Proof.Machine.execGbar lk a s
  | .gfire lk d a => Sys2Proof.Machine.execGfire lk d a s
  | .gsig lk d a b => Sys2Proof.Machine.execGsig lk d a b s
  | .movi lk d m => Sys2Proof.Machine.execMovi lk d m s
  | .movh lk d m => Sys2Proof.Machine.execMovh lk d m s
  | .iaddi lk d a m => Sys2Proof.Machine.execIaddi lk d a m s
  | .iadd lk d a b => Sys2Proof.Machine.execIadd lk d a b s
  | .isub lk d a b => Sys2Proof.Machine.execIsub lk d a b s
  | .imul lk d a b => Sys2Proof.Machine.execImul lk d a b s
  | .imulh lk d a b => Sys2Proof.Machine.execImulh lk d a b s
  | .and lk d a b => Sys2Proof.Machine.execAnd lk d a b s
  | .or lk d a b => Sys2Proof.Machine.execOr lk d a b s
  | .xor lk d a b => Sys2Proof.Machine.execXor lk d a b s
  | .andn lk d a b => Sys2Proof.Machine.execAndn lk d a b s
  | .shl lk d a b => Sys2Proof.Machine.execShl lk d a b s
  | .shr lk d a b => Sys2Proof.Machine.execShr lk d a b s
  | .sar lk d a b => Sys2Proof.Machine.execSar lk d a b s
  | .rot lk d a b => Sys2Proof.Machine.execRot lk d a b s
  | .imin lk d a b => Sys2Proof.Machine.execImin lk d a b s
  | .imax lk d a b => Sys2Proof.Machine.execImax lk d a b s
  | .umin lk d a b => Sys2Proof.Machine.execUmin lk d a b s
  | .umax lk d a b => Sys2Proof.Machine.execUmax lk d a b s
  | .popc lk d a => Sys2Proof.Machine.execPopc lk d a s
  | .clz lk d a => Sys2Proof.Machine.execClz lk d a s
  | .brev lk d a => Sys2Proof.Machine.execBrev lk d a s
  | .iabs lk d a => Sys2Proof.Machine.execIabs lk d a s
  | .sel lk d a b => Sys2Proof.Machine.execSel lk d a b s
  | .lea lk d a b => Sys2Proof.Machine.execLea lk d a b s
  | .imad lk d a b => Sys2Proof.Machine.execImad lk d a b s
  | .idivs lk d a b => Sys2Proof.Machine.execIdivs lk d a b s
  | .bfx lk d a b => Sys2Proof.Machine.execBfx lk d a b s
  | .bfxs lk d a b => Sys2Proof.Machine.execBfxs lk d a b s
  | .bfi lk d a b => Sys2Proof.Machine.execBfi lk d a b s
  | .icmp lk k p a b => Sys2Proof.Machine.execIcmp lk k p a b s
  | .fadd lk d a b => Sys2Proof.Machine.execFadd lk d a b s
  | .fsub lk d a b => Sys2Proof.Machine.execFsub lk d a b s
  | .fmul lk d a b => Sys2Proof.Machine.execFmul lk d a b s
  | .ffma lk d a b => Sys2Proof.Machine.execFfma lk d a b s
  | .fmin lk d a b => Sys2Proof.Machine.execFmin lk d a b s
  | .fmax lk d a b => Sys2Proof.Machine.execFmax lk d a b s
  | .fabs lk d a => Sys2Proof.Machine.execFabs lk d a s
  | .fcmp lk k p a b => Sys2Proof.Machine.execFcmp lk k p a b s
  | .frcp lk d a => Sys2Proof.Machine.execFrcp lk d a s
  | .frsq lk d a => Sys2Proof.Machine.execFrsq lk d a s
  | .fsqrt lk d a => Sys2Proof.Machine.execFsqrt lk d a s
  | .fex2 lk d a => Sys2Proof.Machine.execFex2 lk d a s
  | .flg2 lk d a => Sys2Proof.Machine.execFlg2 lk d a s
  | .ftanh lk d a => Sys2Proof.Machine.execFtanh lk d a s
  | .fsin lk d a => Sys2Proof.Machine.execFsin lk d a s
  | .fcos lk d a => Sys2Proof.Machine.execFcos lk d a s
  | .cvtf lk d a b => Sys2Proof.Machine.execCvtf lk d a b s
  | .cvtfi lk d a b => Sys2Proof.Machine.execCvtfi lk d a b s
  | .cvtif lk d a b => Sys2Proof.Machine.execCvtif lk d a b s
  | .cvtsr lk d a b => Sys2Proof.Machine.execCvtsr lk d a b s
  | .hfma2 lk d a b => Sys2Proof.Machine.execHfma2 lk d a b s
  | .hadd2 lk d a b => Sys2Proof.Machine.execHadd2 lk d a b s
  | .hmul2 lk d a b => Sys2Proof.Machine.execHmul2 lk d a b s
  | .hmax2 lk d a b => Sys2Proof.Machine.execHmax2 lk d a b s
  | .seed lk a b => Sys2Proof.Machine.execSeed lk a b s
  | .rand lk d => Sys2Proof.Machine.execRand lk d s
  | .ext c3 rm sr sat g sel => Sys2Proof.Machine.execExt c3 rm sr sat g sel s
  | .perm lk d a b => Sys2Proof.Machine.execPerm lk d a b s
  | .bcast lk d a b => Sys2Proof.Machine.execBcast lk d a b s
  | .scan lk d a b => Sys2Proof.Machine.execScan lk d a b s
  | .redl lk d a b => Sys2Proof.Machine.execRedl lk d a b s
  | .vote lk d a b => Sys2Proof.Machine.execVote lk d a b s
  | .matchLanes lk d a => Sys2Proof.Machine.execMatchLanes lk d a s
  | .elect lk d => Sys2Proof.Machine.execElect lk d s
  | .lanemask lk d a => Sys2Proof.Machine.execLanemask lk d a s
  | .ld lk d buf idx f sz => Sys2Proof.Machine.execLd lk d buf idx f sz s
  | .st lk d buf idx f sz => Sys2Proof.Machine.execSt lk d buf idx f sz s
  | .lds lk d buf idx f sz => Sys2Proof.Machine.execLds lk d buf idx f sz s
  | .sts lk d buf idx f sz => Sys2Proof.Machine.execSts lk d buf idx f sz s
  | .ldw lk d buf idx f sz => Sys2Proof.Machine.execLdw lk d buf idx f sz s
  | .stw lk d buf idx f sz => Sys2Proof.Machine.execStw lk d buf idx f sz s
  | .pref lk buf idx sz => Sys2Proof.Machine.execPref lk buf idx sz s
  | .bufset ix d a b => Sys2Proof.Machine.execBufset ix d a b s
  | .frec lk d => Sys2Proof.Machine.execFrec lk d s
  | .frecXlate lk d => Sys2Proof.Machine.execFrecXlate lk d s
  | .migctlStart lk d a b => Sys2Proof.Machine.execMigctlStart lk d a b s
  | .migctlQuery lk d a b => Sys2Proof.Machine.execMigctlQuery lk d a b s
  | .migctlResolve lk d a b => Sys2Proof.Machine.execMigctlResolve lk d a b s
  | .migctlAbort lk d a b => Sys2Proof.Machine.execMigctlAbort lk d a b s
  | .migctlInvpg lk d a b => Sys2Proof.Machine.execMigctlInvpg lk d a b s
  | .qpush ix a b => Sys2Proof.Machine.execQpush ix a b s
  | .qpop lk d => Sys2Proof.Machine.execQpop lk d s
  | .atom lk d buf idx f sz => Sys2Proof.Machine.execAtom lk d buf idx f sz s
  | .atomAcq lk d buf idx f sz => Sys2Proof.Machine.execAtomAcq lk d buf idx f sz s
  | .atomRel lk d buf idx f sz => Sys2Proof.Machine.execAtomRel lk d buf idx f sz s
  | .cas lk d buf idx f sz => Sys2Proof.Machine.execCas lk d buf idx f sz s
  | .atomnr lk d buf idx f sz => Sys2Proof.Machine.execAtomnr lk d buf idx f sz s
  | .satom lk d buf idx f sz => Sys2Proof.Machine.execSatom lk d buf idx f sz s
  | .acq lk => Sys2Proof.Machine.execAcq lk s
  | .rel lk => Sys2Proof.Machine.execRel lk s
  | .fence lk => Sys2Proof.Machine.execFence lk s
  | .bwait lk a b => Sys2Proof.Machine.execBwait lk a b s
  | .binit lk a b => Sys2Proof.Machine.execBinit lk a b s
  | .barrive lk d a => Sys2Proof.Machine.execBarrive lk d a s
  | .bexpect lk a b => Sys2Proof.Machine.execBexpect lk a b s
  | .btest lk d a b => Sys2Proof.Machine.execBtest lk d a b s
  | .ndef lk f node a => Sys2Proof.Machine.execNdef lk f node a s
  | .nedge lk f node a => Sys2Proof.Machine.execNedge lk f node a s
  | .nfire lk f node => Sys2Proof.Machine.execNfire lk f node s
  | .cpy lk f node a => Sys2Proof.Machine.execCpy lk f node a s
  | .gath lk f node a => Sys2Proof.Machine.execGath lk f node a s
  | .scat lk f node a => Sys2Proof.Machine.execScat lk f node a s
  | .nwait lk f node a => Sys2Proof.Machine.execNwait lk f node a s
  | .mresv lk acc a => Sys2Proof.Machine.execMresv lk acc a s
  | .mldb lk f a k => Sys2Proof.Machine.execMldb lk f a k s
  | .mgath lk f a h k => Sys2Proof.Machine.execMgath lk f a h k s
  | .mma lk acc mode f z t => Sys2Proof.Machine.execMma lk acc mode f z t s
  | .mtrn lk f a e k => Sys2Proof.Machine.execMtrn lk f a e k s
  | .mzero lk acc f k => Sys2Proof.Machine.execMzero lk acc f k s
  | .mst lk acc mode f a l t => Sys2Proof.Machine.execMst lk acc mode f a l t s
  | .mscale lk g f a e h k => Sys2Proof.Machine.execMscale lk g f a e h k s
  | .mfree lk acc => Sys2Proof.Machine.execMfree lk acc s
  | .treg lk d a => Sys2Proof.Machine.execTreg lk d a s
  | .tdrop lk a => Sys2Proof.Machine.execTdrop lk a s
  | .tfetch lk a b => Sys2Proof.Machine.execTfetch lk a b s
  | .thalo lk d a b => Sys2Proof.Machine.execThalo lk d a b s
  | .tinv lk a b => Sys2Proof.Machine.execTinv lk a b s
  | .tlook lk d a b => Sys2Proof.Machine.execTlook lk d a b s
  | .snap lk d a => Sys2Proof.Machine.execSnap lk d a s
  | .rest lk d a => Sys2Proof.Machine.execRest lk d a s
  | .spawn lk d a n => Sys2Proof.Machine.execSpawn lk d a n s
  | .spawnFar lk d a n => Sys2Proof.Machine.execSpawnFar lk d a n s
  | .drop lk a => Sys2Proof.Machine.execDrop lk a s
  | .hinfo lk d a n => Sys2Proof.Machine.execHinfo lk d a n s
  | .recruit lk d a n => Sys2Proof.Machine.execRecruit lk d a n s
  | .offer lk d a => Sys2Proof.Machine.execOffer lk d a s
  | .hend lk a n => Sys2Proof.Machine.execHend lk a n s
  | .hwait lk d => Sys2Proof.Machine.execHwait lk d s
  | .hkill lk d => Sys2Proof.Machine.execHkill lk d s
  | .kvnewSeq lk d a pd pe => Sys2Proof.Machine.execKvnewSeq lk d a pd pe s
  | .kvnewPool lk d a pd pe => Sys2Proof.Machine.execKvnewPool lk d a pd pe s
  | .kvnewDrop lk d a pd pe => Sys2Proof.Machine.execKvnewDrop lk d a pd pe s
  | .kvapp lk d a pd pe => Sys2Proof.Machine.execKvapp lk d a pd pe s
  | .kvfork lk d a pd pe => Sys2Proof.Machine.execKvfork lk d a pd pe s
  | .kvforkCow lk d pd pe => Sys2Proof.Machine.execKvforkCow lk d pd pe s
  | .kvfree lk d a pd pe => Sys2Proof.Machine.execKvfree lk d a pd pe s
  | .kvfreeTrunc lk d a pd pe => Sys2Proof.Machine.execKvfreeTrunc lk d a pd pe s
  | .kvwalk lk d a pd pe => Sys2Proof.Machine.execKvwalk lk d a pd pe s
  | .kvinvSet lk d a pd pe => Sys2Proof.Machine.execKvinvSet lk d a pd pe s
  | .kvinvClr lk d a pd pe => Sys2Proof.Machine.execKvinvClr lk d a pd pe s
  | .rspan lk d a pd pe => Sys2Proof.Machine.execRspan lk d a pd pe s
  | .xqsend lk d a => Sys2Proof.Machine.execXqsend lk d a s
  | .xqrecv lk d a => Sys2Proof.Machine.execXqrecv lk d a s
  | .xqrecvDraft lk d a => Sys2Proof.Machine.execXqrecvDraft lk d a s
  | .gstep lk d a pd pe => Sys2Proof.Machine.execGstep lk d a pd pe s
  | .gstepBind lk d a pd pe => Sys2Proof.Machine.execGstepBind lk d a pd pe s
  | .gmask lk d a pd pe => Sys2Proof.Machine.execGmask lk d a pd pe s
  | .kvquotaRd lk d a => Sys2Proof.Machine.execKvquotaRd lk d a s
  | .kvquotaWr lk d a => Sys2Proof.Machine.execKvquotaWr lk d a s
  | .trap lk a => Sys2Proof.Machine.execTrap lk a s
  | .tretRetry lk d a b => Sys2Proof.Machine.execTretRetry lk d a b s
  | .tretNext lk d a b => Sys2Proof.Machine.execTretNext lk d a b s
  | .tretEnd lk d a b => Sys2Proof.Machine.execTretEnd lk d a b s
  | .sysrd lk d b => Sys2Proof.Machine.execSysrd lk d b s
  | .syswr lk a b => Sys2Proof.Machine.execSyswr lk a b s
  | .perf lk d a => Sys2Proof.Machine.execPerf lk d a s
  | .haltctx lk d a => Sys2Proof.Machine.execHaltctx lk d a s
  | .ckptCut lk d => Sys2Proof.Machine.execCkptCut lk d s
  | .ckptQuery lk d => Sys2Proof.Machine.execCkptQuery lk d s
  | .ckptAbort lk d => Sys2Proof.Machine.execCkptAbort lk d s
  | .ckptRestore lk d => Sys2Proof.Machine.execCkptRestore lk d s
  | .wdog lk d => Sys2Proof.Machine.execWdog lk d s
  | .wdogSet lk d a => Sys2Proof.Machine.execWdogSet lk d a s
  | .watchdog core uid => Sys2Proof.Machine.execWatchdog core uid s
  | .sleepWake core uid => Sys2Proof.Machine.execSleepWake core uid s
  | .offerTimeout core uid => Sys2Proof.Machine.execOfferTimeout core uid s
  | .teardownComplete launch => Sys2Proof.Machine.execTeardownComplete launch s
  | .loadDataArrival core req => Sys2Proof.Machine.execLoadDataArrival core req s
  | .storeRegistration core req => Sys2Proof.Machine.execStoreRegistration core req s
  | .storeGrant core req => Sys2Proof.Machine.execStoreGrant core req s
  | .atomicPerformance core req => Sys2Proof.Machine.execAtomicPerformance core req s
  | .atomicResultArrival core req => Sys2Proof.Machine.execAtomicResultArrival core req s
  | .translationWalk core req => Sys2Proof.Machine.execTranslationWalk core req s
  | .migrationLineCopy die entry => Sys2Proof.Machine.execMigrationLineCopy die entry s
  | .barrierRecheck core barrier => Sys2Proof.Machine.execBarrierRecheck core barrier s
  | .jacquardWordApply cluster => Sys2Proof.Machine.execJacquardWordApply cluster s
  | .engineLaunch cluster => Sys2Proof.Machine.execEngineLaunch cluster s
  | .engineLaunchCompletion cluster slot => Sys2Proof.Machine.execEngineLaunchCompletion cluster slot s
  | .matrixWordApply core => Sys2Proof.Machine.execMatrixWordApply core s
  | .matrixPassGrant cluster => Sys2Proof.Machine.execMatrixPassGrant cluster s
  | .matrixPassComplete cluster => Sys2Proof.Machine.execMatrixPassComplete cluster s
  | .latchLoadComplete core => Sys2Proof.Machine.execLatchLoadComplete core s
  | .mstCredit core id => Sys2Proof.Machine.execMstCredit core id s
  | .brocadeSweep n => Sys2Proof.Machine.execBrocadeSweep n s
  | .tinvSliceApply core uid slice => Sys2Proof.Machine.execTinvSliceApply core uid slice s
  | .twillChase die => Sys2Proof.Machine.execTwillChase die s
  | .poolLaneOperation vf pool => Sys2Proof.Machine.execPoolLaneOperation vf pool s
  | .graphLoadComplete vf slot => Sys2Proof.Machine.execGraphLoadComplete vf slot s
  | .runStart vf slot => Sys2Proof.Machine.execRunStart vf slot s
  | .schedulerDispatch => Sys2Proof.Machine.execSchedulerDispatch s
  | .launchComplete launch => Sys2Proof.Machine.execLaunchComplete launch s
  | .sliceExpiry vf => Sys2Proof.Machine.execSliceExpiry vf s
  | .graceExpiry vf => Sys2Proof.Machine.execGraceExpiry vf s
  | .killExpiry vf => Sys2Proof.Machine.execKillExpiry vf s
  | .contextSave vf => Sys2Proof.Machine.execContextSave vf s
  | .contextResume vf => Sys2Proof.Machine.execContextResume vf s
  | .checkpointSweep part => Sys2Proof.Machine.execCheckpointSweep part s
  | .pieceReserveCopy part piece => Sys2Proof.Machine.execPieceReserveCopy part piece s
  | .checkpointDrain part => Sys2Proof.Machine.execCheckpointDrain part s
  | .quantumScrub q => Sys2Proof.Machine.execQuantumScrub q s
  | .powerOn outcome => Sys2Proof.Machine.execPowerOn outcome s
  | .unallocatedEncoding packet slot => Sys2Proof.Machine.execUnallocatedEncoding packet slot s
  | .messageEnqueued core uid => Sys2Proof.Machine.execMessageEnqueued core uid s
  | .graphloadLoad vf slot va => Sys2Proof.Machine.execGraphloadLoad vf slot va s
  | .graphloadUnload vf slot => Sys2Proof.Machine.execGraphloadUnload vf slot s
  | .triggerWrite vf slot patch => Sys2Proof.Machine.execTriggerWrite vf slot patch s
  | .graphstatWrite vf slot v => Sys2Proof.Machine.execGraphstatWrite vf slot v s
  | .pcfg part record => Sys2Proof.Machine.execPcfg part record s
  | .qmove q target => Sys2Proof.Machine.execQmove q target s
  | .quantumOnline q part => Sys2Proof.Machine.execQuantumOnline q part s
  | .memoryRelease part cxl unit count => Sys2Proof.Machine.execMemoryRelease part cxl unit count s
  | .fwupdate image => Sys2Proof.Machine.execFwupdate image s
  | .hostCxlMemWrite pf vf addr bytes => Sys2Proof.Machine.execHostCxlMemWrite pf vf addr bytes s
  | .hostCxlMemRead pf vf addr len => Sys2Proof.Machine.execHostCxlMemRead pf vf addr len s
  | .harespResolve part arg tag => Sys2Proof.Machine.execHarespResolve part arg tag s
  | .harespAbort part arg tag => Sys2Proof.Machine.execHarespAbort part arg tag s
  | .harespMakeCopy part arg tag => Sys2Proof.Machine.execHarespMakeCopy part arg tag s
  | .harespStartRun part arg tag => Sys2Proof.Machine.execHarespStartRun part arg tag s
  | .harespDiscardRun part arg tag => Sys2Proof.Machine.execHarespDiscardRun part arg tag s
  | .harespPieceDrained part arg tag => Sys2Proof.Machine.execHarespPieceDrained part arg tag s
  | .haqheadWrite part v => Sys2Proof.Machine.execHaqheadWrite part v s
  | .clhandlerWrite core uid fe v => Sys2Proof.Machine.execClhandlerWrite core uid fe v s
  | .perfselWrite vf n v => Sys2Proof.Machine.execPerfselWrite vf n v s
  | .pretimersWrite vf v => Sys2Proof.Machine.execPretimersWrite vf v s
  | .registerWrite target v => Sys2Proof.Machine.execRegisterWrite target v s
  | .uncorrectableError pa => Sys2Proof.Machine.execUncorrectableError pa s
  | .clockStep up => Sys2Proof.Machine.execClockStep up s
  | .getCertificate offset len => Sys2Proof.Machine.execGetCertificate offset len s
  | .challenge nonce => Sys2Proof.Machine.execChallenge nonce s
  | .getMeasurements index => Sys2Proof.Machine.execGetMeasurements index s
  | .unsupportedRequest code => Sys2Proof.Machine.execUnsupportedRequest code s
  | .otherHostWrite pa bytes => Sys2Proof.Machine.execOtherHostWrite pa bytes s
  | .controllerDma part addr xfer => Sys2Proof.Machine.execControllerDma part addr xfer s
  | .nvmeCommand part nsid => Sys2Proof.Machine.execNvmeCommand part nsid s
  | .report => Sys2Proof.Machine.execReport s
  | .retrain => Sys2Proof.Machine.execRetrain s
  | .pcieLinkError => Sys2Proof.Machine.execPcieLinkError s
  | .deviceReset => Sys2Proof.Machine.execDeviceReset s
  | .getVersion => Sys2Proof.Machine.execGetVersion s
  | .getCapabilities => Sys2Proof.Machine.execGetCapabilities s
  | .negotiateAlgorithms => Sys2Proof.Machine.execNegotiateAlgorithms s
  | .getDigests => Sys2Proof.Machine.execGetDigests s

end Sys2Proof.Machine
end

