-- ==== Sys2Proof/Machine/Fetch.lean ====
section
/-! DEFINITION. Fetching a packet, its checks (R55), and the words of an issue group (R34). -/

namespace Sys2Proof.Machine

open Sys2Proof

/-- The pipes of R22; HDR, EXT and unallocated majors belong to none (R34). -/
inductive Pipe where
  | x
  | y
  | m
  | s
  deriving DecidableEq, Repr

/-- The pipe of a major (R52). -/
def majPipe (n : Nat) : Option Pipe :=
  if n = 0 ∨ n = 1 ∨ n = 0x1C ∨ 0x38 ≤ n then none
  else if n ≤ 0x0A then some .s
  else if n ≤ 0x16 then some .x
  else if n ≤ 0x19 then some .y
  else if n = 0x1A then some .x
  else if n ≤ 0x1E then some .y
  else if n ≤ 0x2F then some .m
  else if n ≤ 0x31 then some .s
  else if n ≤ 0x33 then some .m
  else some .s

/-- Whether a word is HDR, EXT, or a branch word (R49). -/
def isHdr (w : Word) : Bool := wordMaj w == 0x01#6
def isExt (w : Word) : Bool := wordMaj w == 0x1C#6
def isBranch (w : Word) : Bool :=
  wordMaj w == 0x02#6 || wordMaj w == 0x03#6 || wordMaj w == 0x04#6 ||
    (wordMaj w == 0x05#6 && (vFn w == 1#2 || vFn w == 2#2))

/-- Whether C or D of a word is nonzero. -/
def linked (w : Word) : Bool := wordC w || !(wordD w == 0#2)

/-- The slots at or after `s` that belong to the group that slot `s` opens, EXT words included: C chains to the next
word, and through an EXT to its target. `n` bounds the search. -/
def groupSlots (p : List Word) : Nat → Nat → List Nat
  | 0, _ => []
  | n + 1, s =>
    if 3 ≤ s then []
    else
      let w := getAt p s 0#32
      if isExt w then s :: groupSlots p n (s + 1)
      else if wordC w then s :: groupSlots p n (s + 1)
      else [s]

/-- The group-opening slots of a packet, from slot `s` upward. -/
def groupStarts (p : List Word) : Nat → Nat → List Nat
  | 0, _ => []
  | n + 1, s => if 3 ≤ s then [] else s :: groupStarts p n (s + (groupSlots p 3 s).length)

/-- The first slot of a group whose pipe an earlier word of the group has taken (R55). -/
def pipeClash (p : List Word) : List Pipe → List Nat → Option Nat
  | _, [] => none
  | used, s :: ss =>
    match majPipe (wordMaj (getAt p s 0#32)).toNat with
    | none => pipeClash p used ss
    | some q => if used.contains q then some s else pipeClash p (q :: used) ss

/-- The slots of a packet that break a rule of R55. -/
def badSlots (fe : Bool) (p : List Word) : List Nat :=
  let w (s : Nat) : Word := getAt p s 0#32
  let groups := (groupStarts p 3 0).map (fun s => groupSlots p 3 s)
  (if wordC (w 2) then [2] else []) ++
  groups.flatMap (fun g => (match pipeClash p [] g with | some s => [s] | none => []) ++
    ((g.filter (fun s => !(isExt (w s)))).drop 1).filter (fun s => !(wordD (w s) == 0#2))) ++
  ([0, 1, 2].filter (fun s => isHdr (w s) && (!(s == 0) || linked (w s)))) ++
  ([0, 1, 2].filter (fun s => isExt (w s) && (s == 2 || linked (w s) || isExt (w (s + 1)) || isHdr (w (s + 1))))) ++
  ([0, 1, 2].filter (fun s => isBranch (w s) && wordC (w s))) ++
  (if fe then [0, 1, 2].filter (fun s => wordC (w s)) else [])

/-- The least of a list of numbers. -/
def least : List Nat → Option Nat
  | [] => none
  | x :: t => some (t.foldl Nat.min x)

/-- The lowest slot of a packet that breaks a rule of R55. -/
def packetFault (fe : Bool) (p : List Word) : Option Nat := least (badSlots fe p)

/-- The code a thread fetches from: the launch's captured segment or a handler segment (R33, R360, R361). -/
def Launch.segment (l : Launch) (fe handler : Bool) (base : DWord) : List Word :=
  if fe then l.fecode
  else if handler then (match l.handlers.find? (fun h => h.1 == base) with | some h => h.2 | none => [])
  else l.code

/-- The packet that holds a PC, where it lies wholly in the segment (R32). -/
def packetAt (seg : List Word) (pc : Word) : Option (List Word) :=
  let ws := (seg.drop (3 * (pc.toNat / 12))).take 3
  if ws.length = 3 then some ws else none

/-- One word of a group: its slot, the EXT before it, the word. -/
structure GWord where
  slot : Nat
  ext : Option Word
  word : Word
  deriving DecidableEq, Repr

/-- The words of a group with their EXTs. -/
def gwords (p : List Word) : List Nat → List GWord
  | [] => []
  | [s] => [⟨s, none, getAt p s 0#32⟩]
  | s :: t :: r =>
    if isExt (getAt p s 0#32) then ⟨t, some (getAt p s 0#32), getAt p t 0#32⟩ :: gwords p r
    else ⟨s, none, getAt p s 0#32⟩ :: gwords p (t :: r)

/-- Whether a word of a group goes last: the one word of pipe S, which may end or move threads. -/
def GWord.last (g : GWord) : Bool := majPipe (wordMaj g.word).toNat == some .s

/-- The D field of the first word of the group at a slot (R35). -/
def groupD (p : List Word) (slot : Nat) : Nat :=
  match gwords p (groupSlots p 3 slot) with
  | g :: _ => (wordD g.word).toNat
  | [] => 0

/-- A group issues in a thread in the cycle `now`: its own time passes as R35 and `d` alone guarantee, its clause's wait is
over, and what is certainly visible is forgotten (R36, R424). -/
def Thread.begin (now d : Nat) (t : Thread) : Thread :=
  { t with vt := t.vt + 1 + d, last := now, copyAt := 0, wait := 0#12, early := beginNotes (t.vt + 1 + d) t.early }
def FrontEnd.begin (now d : Nat) (f : FrontEnd) : FrontEnd :=
  { f with vt := f.vt + 1 + d, last := now, wait := 0#12, early := beginNotes (f.vt + 1 + d) f.early }

/-- The words of a run at a PC are in hand. -/
def State.takeRun (s : State) (core : Nat) (run : List Nat) (head : Bool) (warp : Nat) (pc : Word) (glen : Nat) : State :=
  { s with cur := ⟨core, false, warp, run, head, pc, pc, glen, none, false, s.draws, .issued⟩, draws := s.draws + 1 }

/-- A group of a run issues. -/
def State.beginGroup (s : State) (core : Nat) (run : List Nat) (head : Bool) (warp : Nat) (pc : Word) (glen : Nat) (d : Nat) : State :=
  (s.onCore core (fun c => c.updAll run (Thread.begin c.clock d))).takeRun core run head warp pc glen

/-- The front end's word is in hand. -/
def State.takeFe (s : State) (core : Nat) (pc : Word) : State :=
  { s with cur := ⟨core, true, 0, [], true, pc, pc, 1, none, false, s.draws, .issued⟩, draws := s.draws + 1 }

/-- A front-end word issues. -/
def State.beginFe (s : State) (core : Nat) (pc : Word) (d : Nat) : State :=
  (s.onCore core (fun c => { c with fe := c.fe.map (FrontEnd.begin c.clock d) })).takeFe core pc

end Sys2Proof.Machine
end

