-- ==== Sys2Proof/Machine/Events.lean ====
section
/-! DEFINITION. Which events can occur in a state: the work in flight, in no promised order beyond what each event's own
condition states. -/

namespace Sys2Proof.Machine

open Sys2Proof

/-! ## One core -/

/-- Whether an XQSEND that waits can be enqueued, or an XQRECV that waits finds a message (R343, R344). -/
def State.canMessage (s : State) (core lead : Nat) (h : Hold) : Bool :=
  let c := s.core core
  let v := s.vfOf core
  if s.tearing core || s.stopped core then false
  else
    match h with
    | .xqsend ctrl _ _ => (c.heldWith lead).all c.released && xqRoom ((s.die (xqDie ctrl)).queue (dieOf core) (xqChannel ctrl)) v
    | .xqrecv _ ctrl _ _ _ => ((s.die (dieOf core)).queue (xqDie ctrl) (xqChannel ctrl)).any (fun m => m.vf == v)
    | _ => false

/-- The slices that a held tensor word may reach next (R278, R281). -/
def State.nextSlices (s : State) (core lead : Nat) (h : Hold) : List Nat :=
  match h with
  | .slices job t begun left => if begun then left else if s.canBegin core lead t job then List.range s.slices else []
  | _ => []

/-- Events of a thread that is held. -/
def State.holdEvents (s : State) (core : Nat) (p : Nat × Thread) : List Instr :=
  (s.nextSlices core p.1 p.2.hold).map (fun n => Instr.tinvSliceApply core p.1 n) ++
    (if s.canMessage core p.1 p.2.hold then [Instr.messageEnqueued core p.1] else [])

/-- What a thread does before the next cycle begins: it passes its deadline, its SLEEP ends, its OFFER runs out (R69, R88, R302). -/
def Thread.forced (core u : Nat) (t : Thread) : List Instr :=
  if t.overdue then [.watchdog core u]
  else
    match t.hold with
    | .sleep 0 => [.sleepWake core u]
    | .parked 0 _ => [.offerTimeout core u]
    | _ => []

/-- Events of a request. -/
def State.reqEvents (s : State) (core : Nat) (r : Req) : List Instr :=
  (if r.canWalk then [.translationWalk core r.id] else []) ++
  (if (s.core core).canArrive r then [.loadDataArrival core r.id] else []) ++
  (if s.canRegister core r then [.storeRegistration core r.id] else []) ++
  (if r.canGrant then [.storeGrant core r.id] else []) ++
  (if s.canPerform core r then [.atomicPerformance core r.id] else []) ++
  (if r.canReturn then [.atomicResultArrival core r.id] else [])

/-- Whether a core's latch load has read its last row (R251). -/
def State.latchDone (s : State) (core : Nat) : Bool :=
  match (s.core core).mwords with
  | w :: _ => w.op.isLoad && decide (w.op.steps ≤ w.progress) && !((s.core core).awaits w.after) && !(s.stopped core)
  | [] => false

/-- Events of one core. -/
def State.coreEvents (s : State) (k : Nat) (c : Core) : List Instr :=
  c.threads.flatMap (s.holdEvents k) ++
  (match c.fe with | some f => (s.nextSlices k feUid f.hold).map (fun n => .tinvSliceApply k feUid n) | none => []) ++
  c.reqs.flatMap (s.reqEvents k) ++ c.recheck.map (fun b => .barrierRecheck k b) ++
  (if (s.matrixMoves k).isEmpty then [] else [.matrixWordApply k]) ++ (if s.latchDone k then [.latchLoadComplete k] else []) ++
  (c.msts.filter (fun m => m.stalled.isNone)).map (fun m => .mstCredit k m.id)

/-! ## Clusters, dies and home slices -/

/-- Events of one cluster. -/
def State.clusterEvents (s : State) (cl : Nat) (c : Cluster) : List Instr :=
  (if (s.nextWords cl).isEmpty then [] else [.jacquardWordApply cl]) ++ (if (s.nextLaunchable cl).isSome then [.engineLaunch cl] else []) ++
  (c.jslots.filter (fun p => p.2.canMove && !(s.stopped (slotCore cl p.1)))).map (fun p => .engineLaunchCompletion cl p.1) ++
  (if c.pass.isSome || c.ending.isSome then [.matrixPassComplete cl] else []) ++
  (if c.canGrant && !((s.eligible cl).isEmpty) then [.matrixPassGrant cl] else [])

/-- Events of one die. -/
def State.dieEvents (s : State) (d : Nat) (x : Die) : List Instr :=
  ((List.range x.mig.length).filter (fun i => match x.mig.drop i with | m :: _ => s.canMigrate m | [] => false)).map
    (fun i => .migrationLineCopy d i) ++ (if x.chases.isEmpty then [] else [.twillChase d])

/-- Lines that a home slice's sweep would remove. -/
def State.sweepEvents (s : State) : List Instr :=
  ((List.range s.brocade.length).filter (fun n => match s.brocade.drop n with | l :: _ => s.sweepable l | [] => false)).map .brocadeSweep

/-! ## VFs, launches, partitions -/

/-- Events of one VF: pool agents, graph slots and the ladder. -/
def State.vfEvents (s : State) (v : Nat) (x : VF) : List Instr :=
  (x.pools.filter (fun p => (nextLane s.stopped [] p.2.queue).isSome)).map (fun p => .poolLaneOperation v p.1) ++
  (x.slots.filter (fun p => p.2.loading.isSome)).map (fun p => .graphLoadComplete v p.1) ++
  (x.slots.filter (fun p => p.2.canRun)).map (fun p => .runStart v p.1) ++
  (if x.ctx == 1 && !(sliceOfTimers x.pretimers == 0) && s.crowded v then [.sliceExpiry v] else []) ++
  (if x.ctx == 2 && x.rung == 1 then [.graceExpiry v] else []) ++ (if x.ctx == 2 && (x.rung == 2 || (x.rung == 1 && s.canSave v)) then [.killExpiry v] else []) ++
  (if s.canSave v then [.contextSave v] else []) ++ (if (s.resume v).isSome then [.contextResume v] else [])

/-- Events of a launch. -/
def State.launchEvents (s : State) (l : Nat) (x : Launch) : List Instr :=
  (if s.canComplete l x then [.launchComplete l] else []) ++ (if s.canTear x then [.teardownComplete l] else [])

/-- Events of a partition's checkpoint. -/
def State.partEvents (s : State) (i : Nat) (p : Part) : List Instr :=
  (if s.canSweep i then [.checkpointSweep i] else []) ++ (if p.canDrain then [.checkpointDrain i] else []) ++
  ((List.range p.pieces.length).filter (fun n => match p.pieces.drop n with
    | x :: _ => !x.drained && x.reserve.isNone && s.heldOn x.pa
    | [] => false)).map (fun n => .pieceReserveCopy i n)

/-- The scheduler has an instance to place or a core to start. -/
def State.canDispatch (s : State) : Bool := !(s.unstarted.isEmpty) || s.nextPlaced.isSome

/-- The events that can occur. -/
def State.events (s : State) : List Instr :=
  s.cores.flatMap (fun p => s.coreEvents p.1 p.2) ++ s.clusters.flatMap (fun p => s.clusterEvents p.1 p.2) ++
  s.dies.flatMap (fun p => s.dieEvents p.1 p.2) ++ s.sweepEvents ++ s.vfs.flatMap (fun p => s.vfEvents p.1 p.2) ++
  s.launches.flatMap (fun p => s.launchEvents p.1 p.2) ++ s.parts.flatMap (fun p => s.partEvents p.1 p.2) ++
  (if s.canDispatch then [.schedulerDispatch] else []) ++
  (s.quanta.filter (fun p => s.canScrub p.1)).map (fun p => .quantumScrub p.1)

end Sys2Proof.Machine
end

