-- ==== Sys2Proof/Machine/Moves.lean ====
section
/-! DEFINITION. What can come next and what it does: the issue of a group, the device's cycle with the sequencers of R60 and R61,
and one move of the machine. Step.lean only calls `stepOnce`. -/

namespace Sys2Proof.Machine

open Sys2Proof

abbrev Out := Host.Outcome State Fault Refusal

/-- Goes on from a next state. -/
def Out.andThen (o : Out) (f : State → Out) : Out :=
  match o with
  | .next s => f s
  | .fault r => .fault r
  | .refused r => .refused r

/-- Puts the run and the word in hand at a slot. -/
def State.placeAt (s : State) (pc : Word) : State :=
  let s1 := { s with cur := { s.cur with pc := pc, status := .issued } }
  if s.cur.fe then s1 else s1.onCore s.cur.core (fun c => c.updAll s.cur.run (fun t => { t with pc := pc }))

/-- The EXT before a word takes effect: its fields are latched for the word; one with a reserved bit set makes the word
illegal (R50, R51). -/
def runExt (s : State) (x : Word) : Out :=
  match decodeWord x with
  | some i => exec i s
  | none => .next { s with cur := { s.cur with ext := none, extBad := true } }

/-- One word of the group in hand, with its EXT. `endPc` is where the group ends: the word of pipe S of a chained group
leaves the run there unless it moves it. -/
def runWord (s : State) (g : GWord) (endPc : Word) : Out :=
  let pc := slotPc s.cur.gpc g.slot
  let s0 := s.placeAt pc
  let o := match g.ext with
    | some x => runExt s0 x
    | none => .next s0
  Out.andThen o (fun s1 =>
    let s2 := (s1.placeAt (if g.last then endPc - 4#32 else pc))
    let s3 := { s2 with cur := { s2.cur with pc := pc } }
    let sel := match s3.cur.ext with | some x => x.sel | none => 0#4
    match decodeSel sel g.word with
    | some i => exec i s3
    | none => exec (.unallocatedEncoding false g.slot) s3)

/-- The status an outcome leaves. -/
def Out.status (o : Out) : Option Status :=
  match o with
  | .next s => some s.cur.status
  | _ => none

/-- The trap that decides a group: the lowest rank, then the lowest slot (R56). -/
def decide1 : List (TrapInfo × Nat) → Option (TrapInfo × Nat)
  | [] => none
  | x :: t =>
    match decide1 t with
    | none => some x
    | some y => if x.1.cause.rank < y.1.cause.rank ∨ (x.1.cause.rank = y.1.cause.rank ∧ x.2 ≤ y.2) then some x else some y

/-- Runs words in turn. -/
def runWords (endPc : Word) : List GWord → State → Out
  | [], s => .next s
  | g :: gs, s => Out.andThen (runWord s g endPc) (fun s1 =>
      match s1.cur.status with
      | .issued => runWords endPc gs s1
      | _ => .next s1)

/-- A group of several words: the whole group traps or waits where one of its words does (R56, R59); otherwise its words
take effect, the word of pipe S last. -/
def runGroup (s : State) (gs : List GWord) (endPc : Word) : Out :=
  match gs with
  | [g] => runWord s g endPc
  | _ =>
    let outs := gs.map (fun g => runWord s g endPc)
    match outs.find? (fun o => o.status.isNone) with
    | some o => o
    | none =>
      let traps := outs.filterMap (fun o => match o.status with | some (.trapped t n) => some (t, n) | _ => none)
      match decide1 traps with
      | some (t, n) => .next (s.raise t (slotPc s.cur.gpc n))
      | none =>
        match outs.find? (fun o => match o.status with | some (.waiting _) => true | some .waitingAll => true | _ => false) with
        | some o => o
        | none =>
          Out.andThen (runWords endPc (gs.filter (fun g => !g.last) ++ gs.filter GWord.last) s) (fun s1 =>
            match s1.cur.status with
            | .trapped t n => .next (s.raise t (slotPc s.cur.gpc n))
            | _ => .next s1)

/-- Whether an outcome is a wait: nothing issued. -/
def Out.stuck (o : Out) : Bool := match o.status with | some (.waiting _) => true | some .waitingAll => true | _ => false

/-- A group that waits has not issued: nothing of it stands. -/
def unwind (s : State) (o : Out) : Out :=
  match o with
  | .next s1 => if o.stuck then .next { s with cur := s1.cur, draws := s1.draws } else o
  | _ => o

/-- Raises ILLEGAL_PACKET at a slot. -/
def packetTrap (s : State) (slot : Nat) : Out :=
  exec (.unallocatedEncoding true slot) s

/-- Whether a packet opens with an HDR that takes no issue cycle (R77). -/
def hdrPacket (fe : Bool) (p : List Word) (slot : Nat) : Bool :=
  slot == 0 && (packetFault fe p).isNone && isHdr (getAt p 0 0#32) && (decodeWord (getAt p 0 0#32)).isSome

/-- Issues the group at the PC of a run (R34); an HDR takes no issue cycle. -/
def issueRun (s : State) (core warp : Nat) (run : List Nat) (head : Bool) : Out :=
  let c := s.core core
  let t := c.th (run.headD 0)
  match c.launch with
  | none => .next s
  | some l =>
    match s.launch l with
    | none => .next s
    | some x =>
      match packetAt (x.segment false t.inHandler t.handlerBase) t.pc with
      | none => packetTrap (s.beginGroup core run head warp t.pc 1 0) 0
      | some p =>
        let slots := groupSlots p 3 (slotOf t.pc)
        let gs := gwords p slots
        let d := match gs with | g :: _ => (wordD g.word).toNat | [] => 0
        let s1 :=
          if hdrPacket false p (slotOf t.pc) then s.takeRun core run head warp t.pc slots.length
          else s.beginGroup core run head warp t.pc slots.length d
        match packetFault false p with
        | some n => packetTrap s1 n
        | none => unwind s (runGroup s1 gs (t.pc + BitVec.ofNat 32 (4 * slots.length)))

/-- Issues the front end's next word (R46). -/
def issueFe (s : State) (core : Nat) : Out :=
  let c := s.core core
  match c.fe, c.launch with
  | some f, some l =>
    match s.launch l with
    | none => .next s
    | some x =>
      match packetAt (x.segment true false 0#64) f.pc with
      | none => packetTrap (s.beginFe core f.pc 0) 0
      | some p =>
        let w := getAt p (slotOf f.pc) 0#32
        let s1 := if hdrPacket true p (slotOf f.pc) then s.takeFe core f.pc else s.beginFe core f.pc (wordD w).toNat
        match packetFault true p with
        | some n => packetTrap s1 n
        | none =>
          let slots := groupSlots p 3 (slotOf f.pc)
          unwind s (runGroup { s1 with cur := { s1.cur with glen := slots.length } } ((gwords p slots).take 1)
            (f.pc + BitVec.ofNat 32 (4 * slots.length)))
  | _, _ => .next s

/-! ## What can issue in a cycle (R35, R59, R62) -/

/-- Whether a thread may issue as far as its holds, its clause's wait and its last snapshot word go (R59, R294). -/
def Thread.ready (now : Nat) (t : Thread) : Bool := t.hold == .run && waitOk t.flags t.wait && decide (t.busy ≤ now)

/-- The place of a thread in its warp's order: handler PCs first (R361), then by PC. -/
def Thread.place (t : Thread) : Nat := (if t.inHandler then 0 else 2 ^ 32) + t.pc.toNat

/-- Whether two threads form one run: one PC of one segment (R62, R361). -/
def Thread.sameRun (a b : Thread) : Bool := a.place == b.place && (!a.inHandler || a.handlerBase == b.handlerBase)

/-- Threads by run. -/
def groupRuns (c : Core) : List Nat → Nat → List (List Nat)
  | _, 0 => []
  | [], _ => []
  | u :: us, n + 1 =>
    (u :: us.filter (fun v => (c.th u).sameRun (c.th v))) :: groupRuns c (us.filter (fun v => !((c.th u).sameRun (c.th v)))) n

/-- The runs that a list of threads forms, lowest place first, lanes ascending in each (R58). -/
def Core.runs (c : Core) (us : List Nat) : List (List Nat) :=
  groupRuns c (sortBy (fun u => (c.th u).place) (sortBy (fun u => (c.th u).lane) us)) us.length

/-- The packet at a thread's PC. -/
def Launch.packetOf (x : Launch) (t : Thread) : Option (List Word) := packetAt (x.segment false t.inHandler t.handlerBase) t.pc

/-- Whether a helper stands in another slice than its recruiter (R305). -/
def Core.farHelper (c : Core) (t : Thread) : Bool :=
  match t.helper with
  | some h => !(c.sliceTh t == c.sliceTh (c.th h.recruiter))
  | none => false

/-- Whether the cycle is no earlier than the D field of the group, the copies of rows and, for a helper that may read rows across
slices, its one cycle more permit (R35, R287, R305; log 116). -/
def Core.timely (c : Core) (x : Launch) (draw u : Nat) : Bool :=
  let t := c.th u
  let d := match x.packetOf t with | some p => groupD p (slotOf t.pc) | none => 0
  let lag := if c.farHelper t && Config.freeBool draw u 305 then 1 else 0
  decide (t.last + 1 + d + lag ≤ c.clock) && decide (t.copyAt ≤ c.clock)

/-- The part of a run that is runnable (R59): the whole run, or where it waits the threads that together would not, taken
in ascending lane order; none of a run that waits as one. -/
def runnable (s : State) (core warp : Nat) (run : List Nat) (head : Bool) : List Nat :=
  let o := issueRun s core warp run head
  if !o.stuck then run
  else if o.status == some .waitingAll then []
  else run.foldl (fun r u => if (issueRun s core warp (r ++ [u]) head).stuck then r else r ++ [u]) []

/-- Whether the issue of a run copies rows, for a word whose copies delay its issue: not one of R294, whose copies delay its
completion (R287). -/
def copies (s : State) (core warp : Nat) (run : List Nat) (head : Bool) : Bool :=
  match issueRun s core warp run head with
  | .next s1 =>
    decide ((s.core core).copies < (s1.core core).copies) &&
      run.all (fun u => ((s1.core core).th u).busy == ((s.core core).th u).busy && ((s1.core core).th u).hold == .run)
  | _ => false

/-- The first runnable run of a list, and the threads of those before it whose issue waits for copies of rows that begin now. -/
def firstRunnable (s : State) (core warp : Nat) (head : Bool) : List (List Nat) → Option (List Nat) × List Nat
  | [] => (none, [])
  | r :: rs =>
    let q := runnable s core warp r head
    let next := firstRunnable s core warp head rs
    if q.isEmpty then next
    else if q.any (fun u => ((s.core core).th u).copyAt == 0) && copies s core warp q head then (next.1, q ++ next.2)
    else (some q, [])

/-! ## The order of a cycle (R60, R61) -/

/-- What the sequencers of a core take in a cycle: slots in their order, the slices claimed, the threads whose rows are copied and
those that spend the cycle waiting. -/
structure Plan where
  slots : List Slot
  claimed : List Nat
  copying : List Nat
  waiting : List Nat

/-- The slices of a run. -/
def Core.slicesOf (c : Core) (run : List Nat) : List Nat := dedup (run.map (fun u => c.sliceTh (c.th u)))

/-- Whether a list of slices is free. -/
def Plan.free (p : Plan) (c : Core) (run : List Nat) : Bool := !((c.slicesOf run).any (fun q => p.claimed.contains q)) && decide (p.slots.length < 4)

/-- A run takes a sequencer. -/
def Plan.take (p : Plan) (c : Core) (core warp : Nat) (run : List Nat) (head : Bool) : Plan :=
  { p with slots := p.slots ++ [.run core warp run head], claimed := p.claimed ++ c.slicesOf run }

/-- One warp's visit: its head run; where that is of helpers alone, the first run without them where it is a collective, which no
helper holds back; then each unclaimed slice's own lowest run, slices at one place together (R60, R65, R303). -/
def visitWarp (s : State) (core : Nat) (x : Launch) (p : Plan) (w : Warp) : Plan :=
  if 4 ≤ p.slots.length then p
  else
    let c := s.core core
    let us := AMap.keys (c.threads.filter (fun q => q.2.warp == w.id && q.2.ready c.clock && c.timely x s.draws q.1))
    let helper (u : Nat) : Bool := (c.th u).helper.isSome
    let first := firstRunnable s core w.id true (c.runs us)
    match first.1 with
    | none => { p with copying := p.copying ++ first.2, waiting := p.waiting ++ us }
    | some h =>
      let p1 := if p.free c h then p.take c core w.id h true else p
      let p2 :=
        if !(h.all helper) then p1
        else
          match (firstRunnable s core w.id true (c.runs (us.filter (fun u => !(helper u))))).1 with
          | some g => if p1.free c g && (issueRun s core w.id g false).stuck then p1.take c core w.id g true else p1
          | none => p1
      let open_ := (c.slicesOf us).filter (fun q => !(p2.claimed.contains q))
      let found := open_.map (fun q => firstRunnable s core w.id false (c.runs (us.filter (fun u => c.sliceTh (c.th u) == q))))
      let joined := (c.runs (found.flatMap (fun f => f.1.getD []))).map (fun r => runnable s core w.id r false)
      let p3 := (joined.filter (fun r => !(r.isEmpty))).foldl (fun p r => if p.free c r then p.take c core w.id r false else p) p2
      { p3 with copying := p3.copying ++ first.2 ++ found.flatMap (fun f => f.2), waiting := p3.waiting ++ us }

/-- Whether what a resume brought back to a core has yet to take effect: saved requests not performed and not faulted anew, pool
words, matrix words, engine words and running launches (R180, R239, R255, R323, R414). -/
def State.replaying (s : State) (k : Nat) (c : Core) : Bool :=
  let d := s.cluster (clusterOf k)
  c.reqs.any (fun r => decide (r.id < c.resumeReq) && r.pending && !(match r.stage with | .faulted _ => true | _ => false)) ||
    c.poolWords.any (fun p => decide (p.1 < c.resumePool)) || c.mwords.any (fun w => decide (w.id < c.resumeM)) ||
    d.jwords.any (fun w => w.core == k && w.back && !w.atRest) || !(c.resumeJ.isEmpty)

/-- Whether the launch of a VF may issue: no forced halt or kill has taken its context, and no replay is due. -/
def State.vfIssues (s : State) (v : Nat) : Bool :=
  decide ((s.vf v).rung < 2) && s.cores.all (fun p => !(s.vfOf p.1 == v && s.replaying p.1 p.2))

/-- The launch that a core issues for. -/
def State.issuing (s : State) (core : Nat) : Option Launch :=
  let c := s.core core
  match c.launch with
  | some l => (match s.launch l with | some x => if c.started && !x.tearing && s.vfIssues x.vf then some x else none | none => none)
  | none => none

/-- The warps of a core in the order in which it visits them: those with a member of the token's group first, then by age (R61). -/
def Core.visited (c : Core) : List Warp :=
  let prio (w : Warp) : Bool := match c.token with
    | some g => (match AMap.look c.groups g with
      | some x => x.members.any (fun m => (c.th m.1).warp == w.id)
      | none => false)
    | none => false
  c.warps.filter prio ++ c.warps.filter (fun w => !(prio w))

/-- Whether the front end may issue as far as its hold and its clause's wait go (R46, R59). -/
def State.feReady (s : State) (core : Nat) (f : FrontEnd) : Bool :=
  !(s.soft core) && !f.ended && f.hold == .run && waitOk f.flags f.wait

/-- Whether the front end issues in this cycle. -/
def State.feIssues (s : State) (core : Nat) (x : Launch) : Bool :=
  match (s.core core).fe with
  | none => false
  | some f =>
    let d := match packetAt (x.segment true false 0#64) f.pc with | some p => (wordD (getAt p (slotOf f.pc) 0#32)).toNat | none => 0
    s.feReady core f && decide (f.last + 1 + d ≤ (s.core core).clock) && !((issueFe s core).stuck)

/-- The plan of a core for the cycle: the front end first, then its warps. -/
def State.planCore (s : State) (core : Nat) (x : Launch) : Plan :=
  let c := s.core core
  let p := c.visited.foldl (visitWarp s core x) ⟨[], [], [], []⟩
  { p with slots := (if s.feIssues core x then [.fe core] else []) ++ p.slots }

/-- The threads that a plan leaves waiting for a window peer or a row spend the cycle so (R28, R289); copies of rows take two
cycles (R287). -/
def State.markPlan (s : State) (core : Nat) (p : Plan) : State :=
  let taken (u : Nat) : Bool := p.slots.any (fun x => match x with | .run _ _ r _ => r.contains u | .fe _ => false)
  let waits (u : Nat) : Bool := !(taken u) && (issueRun s core ((s.core core).th u).warp [u] false).status == some (.waiting true)
  s.onCore core (fun c =>
    (c.updAll (p.waiting.filter waits) (fun t => { t with stall := true })).updAll p.copying
      (fun t => { t with copyAt := if t.copyAt = 0 then c.clock + 2 else t.copyAt }))

/-- The first run or front end that stands at an HDR it can take. -/
def State.hdrSlot (s : State) (core : Nat) (x : Launch) : Option Slot :=
  let c := s.core core
  let fe : List Slot := match c.fe with
    | some f => (match packetAt (x.segment true false 0#64) f.pc with
      | some p => if s.feReady core f && hdrPacket true p (slotOf f.pc) && !((issueFe s core).stuck) then [.fe core] else []
      | none => [])
    | none => []
  let atHdr (t : Thread) : Bool := t.ready c.clock && (match x.packetOf t with | some p => hdrPacket false p (slotOf t.pc) | none => false)
  let runs := c.warps.flatMap (fun w =>
    ((c.runs (AMap.keys (c.threads.filter (fun q => q.2.warp == w.id && atHdr q.2)))).map (fun r => runnable s core w.id r false)).filterMap
      (fun r => if r.isEmpty then none else some (Slot.run core w.id r false)))
  (fe ++ runs).head?

/-- Issues what a slot holds: threads of the run that an earlier slot of the cycle has ended or moved do not issue. -/
def issueSlot (s : State) (x : Slot) : Out :=
  match x with
  | .fe core => if (s.issuing core).isSome then issueFe s core else .next s
  | .run core warp run head =>
    let c := s.core core
    let here := run.filter (fun u => AMap.has c.threads u && (c.th u).ready c.clock)
    let r := here.filter (fun u => (c.th u).sameRun (c.th (here.headD 0)))
    if (s.issuing core).isSome && !(r.isEmpty) then issueRun s core warp r head else .next s

/-- The core of a slot. -/
def Slot.core (x : Slot) : Nat := match x with | .fe k => k | .run k .. => k

/-- Issues a slot; with the last of its core, what the words of the cycle drop is freed (R293). -/
def runSlot (s : State) (x : Slot) : Out :=
  Out.andThen (issueSlot s x) (fun s1 => .next (if s1.plan.isEmpty then s1.onCore x.core Core.flushDrops else s1))

/-- A core's turn in the cycle. An HDR takes no issue cycle and goes first; then the core plans its cycle and issues the first
slot of it. -/
def arbitrate (s : State) (core : Nat) : Out :=
  let idle : State := { s with arb := s.arb.erase core }
  match s.issuing core with
  | none => .next idle
  | some x =>
    match s.hdrSlot core x with
    | some h => issueSlot s h
    | none =>
      let p := s.planCore core x
      let s1 := idle.markPlan core p
      match p.slots with
      | [] => .next (s1.onCore core Core.flushDrops)
      | h :: t => runSlot { s1 with plan := t } h

/-! ## The device's cycle -/

/-- A thread as a cycle begins: a wait that counts adds its unit (R68). -/
def Thread.tick (t : Thread) : Thread :=
  let t1 := if t.counting then { t with yc := t.yc + 1 } else t
  { t1 with
    stall := false,
    hold := match t.hold with
      | .sleep n => .sleep (n - 1)
      | .parked n d => .parked (n - 1) d
      | h => h }

/-- A core as a cycle begins. -/
def Core.tick (now : Nat) (c : Core) : Core :=
  { c with clock := now, threads := AMap.mapVals c.threads Thread.tick,
           ghosts := c.ghosts.filter (fun g => g.2.2.any (fun i => AMap.has c.pend i)) }

/-- What a core's words of the cycles before complete as a cycle begins (R294, R297, R338, R379, R383). -/
def State.finishCore (s : State) (k : Nat) : State :=
  ((s.onCore k (fun c => (AMap.keys c.threads).foldl Core.tryResume c)).runLate k).onCore k Core.flushDrops

/-- The next cycle of the device. -/
def State.cycle (s : State) : State :=
  let now := s.now + 1
  let s1 := { s with now := now, cores := AMap.mapVals s.cores (Core.tick now) }
  let s2 := ((AMap.keys s1.cores).foldl State.finishCore s1).turnRounds
  { s2 with arb := AMap.keys (s2.cores.filter (fun p => (s2.issuing p.1).isSome)) }

/-- Whether time passes: a core holds a launch, or an instance is ready. -/
def State.runs (s : State) : Bool := s.cores.any (fun p => p.2.launch.isSome) || !(s.readyAll.isEmpty)

/-- What must come before the next cycle. -/
def State.forced (s : State) : List Instr :=
  s.cores.flatMap (fun p => if (s.issuing p.1).isSome then p.2.threads.flatMap (fun q => q.2.forced p.1 q.1) else [])

/-- A move of the machine: a core's turn in the cycle, a slot of its plan, the next cycle, or an event. -/
inductive Move where
  | arb (core : Nat)
  | slot (x : Slot)
  | cycle
  | event (i : Instr)
  deriving DecidableEq, Repr

/-- Whether an event is an input from outside the machine: a host's, an agent's or firmware's, which the machine never makes. -/
def isInput (i : Instr) : Bool :=
  match i with
  | .graphloadLoad .. | .graphloadUnload .. | .triggerWrite .. | .graphstatWrite .. | .pcfg .. | .qmove .. | .quantumOnline ..
  | .memoryRelease .. | .fwupdate .. | .hostCxlMemWrite .. | .hostCxlMemRead .. | .harespResolve .. | .harespAbort ..
  | .harespMakeCopy .. | .harespStartRun .. | .harespDiscardRun .. | .harespPieceDrained .. | .haqheadWrite .. | .clhandlerWrite ..
  | .perfselWrite .. | .pretimersWrite .. | .registerWrite .. | .uncorrectableError .. | .clockStep .. | .getCertificate ..
  | .challenge .. | .getMeasurements .. | .unsupportedRequest .. | .otherHostWrite .. | .controllerDma .. | .nvmeCommand ..
  | .report | .retrain | .pcieLinkError | .deviceReset | .getVersion | .getCapabilities | .negotiateAlgorithms | .getDigests => true
  | _ => false

/-- The inputs still to be taken; anything else in the list is passed over. -/
def State.inputs (s : State) : List Instr := s.agenda.dropWhile (fun i => !(isInput i))

/-- Every move that can come next: power-on before start-up (R405); then the plan of a core to its end, the turns of the other
cores of the cycle, and what must come before the next cycle; then the head of the outside inputs, the next cycle and the events;
in the safe state only outside inputs. -/
def State.moves (s : State) : List Move :=
  match s.boot with
  | .off => [.event (.powerOn (bootOutcome (Config.freeBoot s.draws)))]
  | .safe .. => (s.inputs.take 1).map .event
  | .running =>
    match s.plan with
    | x :: _ => [.slot x]
    | [] =>
      match s.arb with
      | k :: ks => (k :: ks).map .arb
      | [] =>
        match s.forced with
        | i :: _ => [.event i]
        | [] => (s.inputs.take 1).map .event ++ (if s.runs then [.cycle] else []) ++ s.events.map .event

/-- One move. An outside input is taken off the list when it is taken. -/
def doMove (s : State) (m : Move) : Out :=
  match m with
  | .arb core => arbitrate s core
  | .slot x => runSlot { s with plan := s.plan.drop 1 } x
  | .cycle => .next s.cycle
  | .event i =>
    let s1 := { s with cur := { Cur.idle with draw := s.draws }, draws := s.draws + 1 }
    if isInput i then exec i { s1 with agenda := s.inputs.drop 1 } else exec i s1

/-- One step: the only move, or a free choice among the moves; with none the machine stays as it is (log 11). -/
def stepOnce (s : State) : Out :=
  match s.moves with
  | [] => .next s
  | [m] => doMove s m
  | m :: ms =>
    let k := Config.freeNat s.draws % (ms.length + 1)
    doMove { s with draws := s.draws + 1 } (getAt (m :: ms) k m)

/-! ## A program of one word (log 13) -/

/-- A launch header of one role, one warp of 16 lanes, 13 rows, entry at packet 0. -/
def probeHeader : Header where
  codeBase := 0
  codeLen := 2
  feEntry := 0
  feBase := 0
  feLen := 2
  ftrap := 0#3
  scratchKiB := 0
  deadline := 255
  level := 0
  nroles := 1
  shape := 0
  width := 16
  instances := 1
  roles := [(1, 13, 0)]

/-- The lanes of the probe's warp: 13 rows each, on the lane's own slice. -/
def probeRows (lane : Nat) : List Nat := (List.range 13).map (fun i => 1024 * (lane / 4) + 13 * (lane % 4) + i)

/-- Whether a word runs only in front-end code (R46, R85, R198, R199). -/
def frontOnly (w : Word) : Bool :=
  match decodeWord w with
  | some (.dqput ..) => true
  | some (.bufset ..) => true
  | some (.qpush ..) => true
  | _ => false

/-- The machine with start-up done and one launch on core 0 whose next word is `w`, followed by words of 0: a warp of 16
lanes at its first packet, or for a word that runs only there the front end. -/
def State.placeProgram (s : State) (w : Word) : State :=
  let seg : List Word := [w, 0#32, 0#32, 0#32, 0#32, 0#32]
  let front := frontOnly w
  let lanes := List.range 16
  let part : Part :=
    ⟨[], 0, 0, 1#64, [], [], 0#64, 0#64, 0, 0#32, [], 0, 0, 64, 0#64, 0#64, [], 0, none, 0, 0, 0, [], [], 0#16, 0#32, []⟩
  let fe : FrontEnd := ⟨0#32, (List.replicate 64 0#64), 0#8, List.replicate 12 0, 15#4, 15#4, 0#12, 0#32, [], 0, 0, false, false, .run⟩
  let thread (lane : Nat) : Thread :=
    { Thread.blank with tid := BitVec.ofNat 32 lane, lane := lane, gen := launchGen (BitVec.ofNat 32 lane), map := probeRows lane, dl := 255, last := 0 }
  let core : Core :=
    { Core.reset with
      launch := some 0, started := true, clock := 4, warps := [⟨0, 0, 0, 65535#64, false⟩], nextWarp := 1,
      threads := if front then [] else lanes.map (fun l => (uidOf 0 l, thread l)),
      rows := (lanes.flatMap probeRows).map (fun r => (r, { Row.reset with count := 1 })),
      fe := if front then some fe else none }
  { s with
    boot := .running, parts := AMap.put s.parts 0 part, quanta := AMap.put s.quanta 0 ⟨1, some 0, none, .online⟩,
    launches := AMap.put s.launches 0
      { vf := 0, slot := 0, node := 0, hdr := probeHeader, code := seg, fecode := seg, handlers := [], mem := s.mem, poison := s.poison,
        brocade := s.brocade, spawnNext := 0, placed := [(0, 0)], completed := 0, tearing := false },
    cores := [(0, core)], now := 4, arb := [0], plan := [], agenda := [] }

end Sys2Proof.Machine
end

