-- ==== Sys2Proof/WellFormed.lean ====
section
/-! DEFINITION. Which instructions and events are well formed: the field values that R54 calls undefined on the word
alone, and the numbers of the units that an event may name. Each check has a name. -/

namespace Sys2Proof

/-- The checks, by name. -/
inductive WfError where
  /-- EXT.RM 5 to 7 (R50). -/
  | extRounding
  /-- EXT.SR together with a nonzero RM (R50). -/
  | extStochastic
  /-- COND above 11 in ICMP, above 7 in FCMP (R130, R147). -/
  | condition
  /-- An SZ that the word's entry does not define (R174, R197, R218). -/
  | size
  /-- A buffer record number above 31 in BUFSET (R198). -/
  | bufferRecord
  /-- A sub-array mask of zero (R260 to R264). -/
  | subArrays
  /-- A T that the entry does not define (R265, R267). -/
  | matrixType
  /-- N above 3 in HINFO and HEND (R301, R307). -/
  | infoNumber
  /-- N of 0 in RECRUIT (R304). -/
  | count
  /-- PD nonzero with PE 0 (R47). -/
  | predicate
  /-- A unit that the device does not have (R9 to R12). -/
  | unitNumber
  deriving DecidableEq, Repr

/-- Whether the unit that a register belongs to exists. -/
def RegTarget.wf : RegTarget → Bool
  | .ptroot vf => decide (vf < 64)
  | .vfweight vf => decide (vf < 64)
  | .trapbase vf => decide (vf < 64)
  | .ckptctl part => decide (part < 8)
  | .ckptbuf part => decide (part < 8)
  | .ckptrsv part => decide (part < 8)
  | .haqhead part => decide (part < 8)
  | .haqtail part => decide (part < 8)
  | .haresp part => decide (part < 8)
  | .hastat part => decide (part < 8)
  | .drainsel part => decide (part < 8)
  | .faultq core => decide (core < 512)
  | .vocab core => decide (core < 512)
  | .vocabpad core => decide (core < 512)
  | .devcap => true
  | .pretimers vf => decide (vf < 64)
  | .trigger vf => decide (vf < 64)
  | .graphload vf => decide (vf < 64)
  | .graphstat vf slot => decide (vf < 64) && decide (slot < 16)
  | .msix vf half => decide (vf < 64) && decide (half < 8)
  | .pfBar0 offset => decide (offset < 2 ^ 24)
  | .vfBar0 vf offset => decide (vf < 64) && decide (offset < 2 ^ 16)
  | .unlisted => true

/-- The named error where a check fails. -/
def need (e : WfError) (ok : Bool) : List WfError := if ok then [] else [e]

/-- The checks that an instruction fails. -/
def Instr.wfErrors : Instr → List WfError
  | .hdr .. => []
  | .nop .. => []
  | .bra .. => []
  | .brc .. => []
  | .call .. => []
  | .brx .. => []
  | .ret .. => []
  | .exit .. => []
  | .tail .. => []
  | .prio .. => []
  | .sleep .. => []
  | .yield .. => []
  | .dqput .. => []
  | .dqtake .. => []
  | .join .. => []
  | .leave .. => []
  | .gbar .. => []
  | .gfire .. => []
  | .gsig .. => []
  | .movi .. => []
  | .movh .. => []
  | .iaddi .. => []
  | .iadd .. => []
  | .isub .. => []
  | .imul .. => []
  | .imulh .. => []
  | .and .. => []
  | .or .. => []
  | .xor .. => []
  | .andn .. => []
  | .shl .. => []
  | .shr .. => []
  | .sar .. => []
  | .rot .. => []
  | .imin .. => []
  | .imax .. => []
  | .umin .. => []
  | .umax .. => []
  | .popc .. => []
  | .clz .. => []
  | .brev .. => []
  | .iabs .. => []
  | .sel .. => []
  | .lea .. => []
  | .imad .. => []
  | .idivs .. => []
  | .bfx .. => []
  | .bfxs .. => []
  | .bfi .. => []
  | .icmp _ k _ _ _ => need .condition (decide (k.toNat ≤ 11))
  | .fadd .. => []
  | .fsub .. => []
  | .fmul .. => []
  | .ffma .. => []
  | .fmin .. => []
  | .fmax .. => []
  | .fabs .. => []
  | .fcmp _ k _ _ _ => need .condition (decide (k.toNat ≤ 7))
  | .frcp .. => []
  | .frsq .. => []
  | .fsqrt .. => []
  | .fex2 .. => []
  | .flg2 .. => []
  | .ftanh .. => []
  | .fsin .. => []
  | .fcos .. => []
  | .cvtf .. => []
  | .cvtfi .. => []
  | .cvtif .. => []
  | .cvtsr .. => []
  | .hfma2 .. => []
  | .hadd2 .. => []
  | .hmul2 .. => []
  | .hmax2 .. => []
  | .seed .. => []
  | .rand .. => []
  | .ext _ rm sr _ _ _ => need .extRounding (decide (rm.toNat ≤ 4)) ++ need .extStochastic (!(sr && !(rm == 0#3)))
  | .perm .. => []
  | .bcast .. => []
  | .scan .. => []
  | .redl .. => []
  | .vote .. => []
  | .matchLanes .. => []
  | .elect .. => []
  | .lanemask .. => []
  | .ld _ _ _ _ _ sz => need .size (!(sz == 7#3))
  | .st _ _ _ _ _ sz => need .size (!(sz == 7#3 || sz == 1#3 || sz == 3#3))
  | .lds _ _ _ _ _ sz => need .size (!(sz == 7#3))
  | .sts _ _ _ _ _ sz => need .size (!(sz == 7#3 || sz == 1#3 || sz == 3#3))
  | .ldw _ _ _ _ _ sz => need .size (!(sz == 7#3))
  | .stw _ _ _ _ _ sz => need .size (!(sz == 7#3 || sz == 1#3 || sz == 3#3))
  | .pref _ _ _ sz => need .size (decide (sz.toNat < 2))
  | .bufset _ d _ _ => need .bufferRecord (decide (d.toNat < 32))
  | .frec .. => []
  | .frecXlate .. => []
  | .migctlStart .. => []
  | .migctlQuery .. => []
  | .migctlResolve .. => []
  | .migctlAbort .. => []
  | .migctlInvpg .. => []
  | .qpush .. => []
  | .qpop .. => []
  | .atom _ _ _ _ _ sz => need .size (sz == 4#3 || sz == 5#3)
  | .atomAcq _ _ _ _ _ sz => need .size (sz == 4#3 || sz == 5#3)
  | .atomRel _ _ _ _ _ sz => need .size (sz == 4#3 || sz == 5#3)
  | .cas _ _ _ _ _ sz => need .size (sz == 4#3 || sz == 5#3)
  | .atomnr _ _ _ _ _ sz => need .size (sz == 4#3 || sz == 5#3)
  | .satom _ _ _ _ _ sz => need .size (sz == 4#3 || sz == 5#3)
  | .acq .. => []
  | .rel .. => []
  | .fence .. => []
  | .bwait .. => []
  | .binit .. => []
  | .barrive .. => []
  | .bexpect .. => []
  | .btest .. => []
  | .ndef .. => []
  | .nedge .. => []
  | .nfire .. => []
  | .cpy .. => []
  | .gath .. => []
  | .scat .. => []
  | .nwait .. => []
  | .mresv .. => []
  | .mldb _ _ _ k => need .subArrays (!(k == 0#4))
  | .mgath _ _ _ _ k => need .subArrays (!(k == 0#4))
  | .mma _ _ _ _ _ t => need .matrixType (decide (t.toNat ≤ 10))
  | .mtrn _ _ _ _ k => need .subArrays (!(k == 0#4))
  | .mzero _ _ _ k => need .subArrays (!(k == 0#4))
  | .mst _ _ _ _ _ _ t => need .matrixType (decide (t.toNat ≤ 6))
  | .mscale _ _ _ _ _ _ k => need .subArrays (!(k == 0#4))
  | .mfree .. => []
  | .treg .. => []
  | .tdrop .. => []
  | .tfetch .. => []
  | .thalo .. => []
  | .tinv .. => []
  | .tlook .. => []
  | .snap .. => []
  | .rest .. => []
  | .spawn .. => []
  | .spawnFar .. => []
  | .drop .. => []
  | .hinfo _ _ _ n => need .infoNumber (decide (n.toNat < 4))
  | .recruit _ _ _ n => need .count (!(n == 0#4))
  | .offer .. => []
  | .hend _ _ n => need .infoNumber (decide (n.toNat < 4))
  | .hwait .. => []
  | .hkill .. => []
  | .kvnewSeq _ _ _ pd pe => need .predicate (pe || pd == 0#3)
  | .kvnewPool _ _ _ pd pe => need .predicate (pe || pd == 0#3)
  | .kvnewDrop _ _ _ pd pe => need .predicate (pe || pd == 0#3)
  | .kvapp _ _ _ pd pe => need .predicate (pe || pd == 0#3)
  | .kvfork _ _ _ pd pe => need .predicate (pe || pd == 0#3)
  | .kvforkCow _ _ pd pe => need .predicate (pe || pd == 0#3)
  | .kvfree _ _ _ pd pe => need .predicate (pe || pd == 0#3)
  | .kvfreeTrunc _ _ _ pd pe => need .predicate (pe || pd == 0#3)
  | .kvwalk _ _ _ pd pe => need .predicate (pe || pd == 0#3)
  | .kvinvSet _ _ _ pd pe => need .predicate (pe || pd == 0#3)
  | .kvinvClr _ _ _ pd pe => need .predicate (pe || pd == 0#3)
  | .rspan _ _ _ pd pe => need .predicate (pe || pd == 0#3)
  | .xqsend .. => []
  | .xqrecv .. => []
  | .xqrecvDraft .. => []
  | .gstep _ _ _ pd pe => need .predicate (pe || pd == 0#3)
  | .gstepBind _ _ _ pd pe => need .predicate (pe || pd == 0#3)
  | .gmask _ _ _ pd pe => need .predicate (pe || pd == 0#3)
  | .kvquotaRd .. => []
  | .kvquotaWr .. => []
  | .trap .. => []
  | .tretRetry .. => []
  | .tretNext .. => []
  | .tretEnd .. => []
  | .sysrd .. => []
  | .syswr .. => []
  | .perf .. => []
  | .haltctx .. => []
  | .ckptCut .. => []
  | .ckptQuery .. => []
  | .ckptAbort .. => []
  | .ckptRestore .. => []
  | .wdog .. => []
  | .wdogSet .. => []
  | .watchdog core _ => need .unitNumber (decide (core < 512))
  | .sleepWake core _ => need .unitNumber (decide (core < 512))
  | .offerTimeout core _ => need .unitNumber (decide (core < 512))
  | .teardownComplete .. => []
  | .loadDataArrival core _ => need .unitNumber (decide (core < 512))
  | .storeRegistration core _ => need .unitNumber (decide (core < 512))
  | .storeGrant core _ => need .unitNumber (decide (core < 512))
  | .atomicPerformance core _ => need .unitNumber (decide (core < 512))
  | .atomicResultArrival core _ => need .unitNumber (decide (core < 512))
  | .translationWalk core _ => need .unitNumber (decide (core < 512))
  | .migrationLineCopy die _ => need .unitNumber (decide (die < 4))
  | .barrierRecheck core barrier => need .unitNumber (decide (core < 512)) ++ need .unitNumber (decide (barrier < 64))
  | .jacquardWordApply cluster => need .unitNumber (decide (cluster < 128))
  | .engineLaunch cluster => need .unitNumber (decide (cluster < 128))
  | .engineLaunchCompletion cluster slot => need .unitNumber (decide (cluster < 128)) ++ need .unitNumber (decide (slot < 256))
  | .matrixWordApply core => need .unitNumber (decide (core < 512))
  | .matrixPassGrant cluster => need .unitNumber (decide (cluster < 128))
  | .matrixPassComplete cluster => need .unitNumber (decide (cluster < 128))
  | .latchLoadComplete core => need .unitNumber (decide (core < 512))
  | .mstCredit core _ => need .unitNumber (decide (core < 512))
  | .brocadeSweep .. => []
  | .tinvSliceApply core _ slice => need .unitNumber (decide (core < 512)) ++ need .unitNumber (decide (slice < 512))
  | .twillChase die => need .unitNumber (decide (die < 4))
  | .poolLaneOperation vf _ => need .unitNumber (decide (vf < 64))
  | .graphLoadComplete vf slot => need .unitNumber (decide (vf < 64)) ++ need .unitNumber (decide (slot < 16))
  | .runStart vf slot => need .unitNumber (decide (vf < 64)) ++ need .unitNumber (decide (slot < 16))
  | .schedulerDispatch => []
  | .launchComplete .. => []
  | .sliceExpiry vf => need .unitNumber (decide (vf < 64))
  | .graceExpiry vf => need .unitNumber (decide (vf < 64))
  | .killExpiry vf => need .unitNumber (decide (vf < 64))
  | .contextSave vf => need .unitNumber (decide (vf < 64))
  | .contextResume vf => need .unitNumber (decide (vf < 64))
  | .checkpointSweep part => need .unitNumber (decide (part < 8))
  | .pieceReserveCopy part _ => need .unitNumber (decide (part < 8))
  | .checkpointDrain part => need .unitNumber (decide (part < 8))
  | .quantumScrub q => need .unitNumber (decide (q < 32))
  | .powerOn .. => []
  | .unallocatedEncoding _ slot => need .unitNumber (decide (slot < 3))
  | .messageEnqueued core _ => need .unitNumber (decide (core < 512))
  | .graphloadLoad vf slot _ => need .unitNumber (decide (vf < 64)) ++ need .unitNumber (decide (slot < 16))
  | .graphloadUnload vf slot => need .unitNumber (decide (vf < 64)) ++ need .unitNumber (decide (slot < 16))
  | .triggerWrite vf slot _ => need .unitNumber (decide (vf < 64)) ++ need .unitNumber (decide (slot < 16))
  | .graphstatWrite vf slot _ => need .unitNumber (decide (vf < 64)) ++ need .unitNumber (decide (slot < 16))
  | .pcfg part _ => need .unitNumber (decide (part < 8))
  | .qmove q target => need .unitNumber (decide (q < 32)) ++ need .unitNumber (decide (target < 8))
  | .quantumOnline q part => need .unitNumber (decide (q < 32)) ++ need .unitNumber (decide (part < 8))
  | .memoryRelease part _ _ _ => need .unitNumber (decide (part < 8))
  | .fwupdate .. => []
  | .hostCxlMemWrite _ vf _ _ => need .unitNumber (decide (vf < 64))
  | .hostCxlMemRead _ vf _ _ => need .unitNumber (decide (vf < 64))
  | .harespResolve part _ _ => need .unitNumber (decide (part < 8))
  | .harespAbort part _ _ => need .unitNumber (decide (part < 8))
  | .harespMakeCopy part _ _ => need .unitNumber (decide (part < 8))
  | .harespStartRun part _ _ => need .unitNumber (decide (part < 8))
  | .harespDiscardRun part _ _ => need .unitNumber (decide (part < 8))
  | .harespPieceDrained part _ _ => need .unitNumber (decide (part < 8))
  | .haqheadWrite part _ => need .unitNumber (decide (part < 8))
  | .clhandlerWrite core _ _ _ => need .unitNumber (decide (core < 512))
  | .perfselWrite vf n _ => need .unitNumber (decide (vf < 64)) ++ need .unitNumber (decide (n < 8))
  | .pretimersWrite vf _ => need .unitNumber (decide (vf < 64))
  | .registerWrite target _ => need .unitNumber (target.wf)
  | .uncorrectableError .. => []
  | .clockStep .. => []
  | .getCertificate .. => []
  | .challenge .. => []
  | .getMeasurements .. => []
  | .unsupportedRequest .. => []
  | .otherHostWrite .. => []
  | .controllerDma part _ _ => need .unitNumber (decide (part < 8))
  | .nvmeCommand part _ => need .unitNumber (decide (part < 8))
  | .report => []
  | .retrain => []
  | .pcieLinkError => []
  | .deviceReset => []
  | .getVersion => []
  | .getCapabilities => []
  | .negotiateAlgorithms => []
  | .getDigests => []

/-- An instruction is well formed where it fails no check. -/
def Instr.wf (i : Instr) : Bool := i.wfErrors.isEmpty

end Sys2Proof
end

