-- ==== Sys2Proof/Safety.lean ====
section
/-! DEFINITION. What counts as a safe run, in the terms that claims use: how a word ends, when a word may issue, whose
rows are whose, what a word leaves as it was, and the form that every memory of the machine keeps. -/

namespace Sys2Proof.Machine

open Sys2Proof

/-! ## How a word ends -/

/-- The word in hand completed: it neither raised a trap nor waits. -/
def State.completed (s : State) : Prop := s.cur.status = .issued

/-- The word in hand raised this cause. -/
def State.trappedBy (s : State) (c : Cause) : Prop := ∃ t slot, s.cur.status = .trapped t slot ∧ t.cause = c

/-- The outcome is a next state in which the word completed and this holds. -/
def Completes (o : Host.Outcome State Fault Refusal) (p : State → Prop) : Prop := ∃ t, o = .next t ∧ t.completed ∧ p t

/-- The outcome is a next state in which the word raised this cause. -/
def Traps (o : Host.Outcome State Fault Refusal) (c : Cause) : Prop := ∃ t, o = .next t ∧ t.trappedBy c

/-- A step that goes on: it stops for no fault and no refusal. -/
def GoesOn (s : State) : Prop := ∃ t, step s = .next t

/-! ## The form of every memory -/

/-- The scratchpads that a save holds have their one form. -/
def Saved.memoriesWf (x : Saved) : Prop := ∀ c ∈ x.cores, c.core.scratch.wf

/-- Device memory, host memory, the scratchpad of every core, and those that a saved context or a checkpoint's image holds have
their one form. -/
def State.memoriesWf (s : State) : Prop :=
  s.mem.wf ∧ s.hostMem.wf ∧ (∀ p ∈ s.cores, p.2.scratch.wf) ∧ (∀ p ∈ s.saves, p.2.memoriesWf) ∧
  ∀ p ∈ s.images, ∀ q ∈ p.2.saves, q.2.memoriesWf

/-! ## The core, the thread and the front end in hand -/

/-- The core that the word in hand runs on. -/
def State.here (s : State) : Core := s.core s.cur.core

/-- A thread of that core. -/
def State.thread (s : State) (u : Nat) : Thread := s.here.th u

/-! ## Registers and rows -/

/-- The row and word that a register of a thread stands in (R285). -/
def Core.cell (c : Core) (u : Nat) (r : Reg) : Option (Nat × Nat) :=
  (placeOf r).map (fun p => (getAt (c.th u).map p.1 0, p.2))

/-- Each thread of the run is on the core, and the row that register `r` stands in is in use, whole, held once, and no
other thread's of the run (R285, R287). -/
structure Core.Owns (c : Core) (run : List Nat) (r : Reg) : Prop where
  nodup : run.Nodup
  listed : ∀ u ∈ run, AMap.has c.threads u = true
  row : ∀ u ∈ run, ∀ q, c.cell u r = some q → AMap.has c.rows q.1 = true ∧ (c.row q.1).count ≤ 1 ∧ q.2 < (c.row q.1).words.length
  apart : ∀ u ∈ run, ∀ v ∈ run, u ≠ v → ∀ q, c.cell u r = some q → c.cell v r ≠ some q

/-- No earlier short-latency result of register `r` lands in a thread later than one that lands after `delay` (R37). -/
def Core.noLater (c : Core) (run : List Nat) (r : Reg) (delay : Nat) : Prop :=
  ∀ u ∈ run, ∀ e ∈ (c.th u).early, e.outlasts r.toNat (c.clock + delay) = false

/-! ## What a word leaves as it was -/

/-- Every VF is as it was but for its performance counters and what they counted of late (R375, R381). -/
def State.sameVfs (s t : State) : Prop := ∀ v, t.vf v = { (s.vf v) with perfcnt := (t.vf v).perfcnt, perfnew := (t.vf v).perfnew }

/-- Nothing outside the core in hand changed but the issue context and performance counters: no byte of memory, no
poison, cache line, partition, quantum, die, cluster, launch, saved context or queue of the device, and no other core. -/
def State.onlyHere (s t : State) : Prop :=
  s.sameVfs t ∧ (∀ k, k ≠ s.cur.core → t.core k = s.core k) ∧
    { t with cores := s.cores, cur := s.cur, vfs := s.vfs } = s

/-- Only threads and rows of a core changed. -/
def Core.onlyThreads (c d : Core) : Prop := { d with threads := c.threads, rows := c.rows } = c

/-- Of two threads, the second differs in its notes on results on their way alone. -/
def Thread.onlyNotes (t u : Thread) : Prop := { u with early := t.early } = t

/-- The second differs in those notes and in these bits added to FSTAT (R137). -/
def Thread.gained (bits : Word) (t u : Thread) : Prop :=
  { u with early := t.early, fstat := t.fstat } = t ∧ u.fstat = t.fstat ||| bits

/-- A thread once a word of its run has issued: the PC at the next word, and where the word executes one more in YC. -/
def Thread.issued (t : Thread) (executes : Bool) : Thread :=
  { t with pc := t.pc + 4#32, yc := if executes then t.yc + 1 else t.yc }

/-! ## The EXT fields that a word accepts (R51, and the table of each family) -/

/-- The nonzero fields of an EXT are among those named; `sels` lists the nonzero values of SEL. -/
def Ext.within (x : Ext) (c3 rm sr sat g : Bool) (sels : List Nat) : Bool :=
  (c3 || x.c3 == 0#7) && (rm || x.rm == 0#3) && (sr || !x.sr) && (sat || !x.sat) && (g || x.g == 0#4) &&
    (x.sel == 0#4 || sels.contains x.sel.toNat)

/-- Whether a word accepts the fields of an EXT; an event has none. -/
def takes (x : Ext) : Instr → Bool
  | .hdr .. => x.within false false false false false []
  | .nop .. => x.within false false false false false []
  | .bra .. => x.within false false false false true []
  | .brc .. => x.within false false false false true []
  | .call .. => x.within false false false false true []
  | .brx .. => x.within false false false false true []
  | .ret .. => x.within false false false false true []
  | .exit .. => x.within false false false false true []
  | .tail .. => x.within false false false false true []
  | .prio .. => x.within false false false false true []
  | .sleep .. => x.within false false false false true []
  | .yield .. => x.within false false false false false []
  | .dqput .. => x.within false false false false false []
  | .dqtake .. => x.within false false false false false []
  | .join .. => x.within false false false false true []
  | .leave .. => x.within false false false false true []
  | .gbar .. => x.within false false false false true []
  | .gfire .. => x.within false false false false true []
  | .gsig .. => x.within false false false false true []
  | .movi .. => x.within false false false false true []
  | .movh .. => x.within false false false false true []
  | .iaddi .. => if x.sat then x.within false false false true true [1] else x.within false false false false true []
  | .iadd .. => if x.sat then x.within false false false true true [1] else x.within false false false false true []
  | .isub .. => if x.sat then x.within false false false true true [1] else x.within false false false false true []
  | .imul .. => x.within false false false false true []
  | .imulh .. => x.within false false false false true [1, 2]
  | .and .. => x.within false false false false true []
  | .or .. => x.within false false false false true []
  | .xor .. => x.within false false false false true []
  | .andn .. => x.within false false false false true []
  | .shl .. => x.within false false false false true []
  | .shr .. => x.within false false false false true []
  | .sar .. => x.within false false false false true []
  | .rot .. => x.within false false false false true []
  | .imin .. => x.within false false false false true []
  | .imax .. => x.within false false false false true []
  | .umin .. => x.within false false false false true []
  | .umax .. => x.within false false false false true []
  | .popc .. => x.within false false false false true []
  | .clz .. => x.within false false false false true []
  | .brev .. => x.within false false false false true []
  | .iabs .. => x.within false false false true true []
  | .sel .. => x.within false false false false true [1, 2, 3, 4, 5, 6, 7, 8, 9, 10, 11, 12, 13, 14, 15]
  | .lea .. => x.within false false false false true [1, 2, 3, 4, 5, 6, 7, 8, 9, 10, 11, 12, 13, 14, 15]
  | .imad .. => x.within true false false false true []
  | .idivs .. => x.within false false false false true [1, 2, 3]
  | .bfx .. => x.within false false false false true []
  | .bfxs .. => x.within false false false false true []
  | .bfi .. => x.within false false false false true []
  | .icmp .. => x.within false false false false true []
  | .fadd .. => x.within false true false true true []
  | .fsub .. => x.within false true false true true []
  | .fmul .. => x.within false true false true true []
  | .ffma .. => x.within true true false true true []
  | .fmin .. => x.within false false false false true []
  | .fmax .. => x.within false false false false true []
  | .fabs .. => x.within false false false false true []
  | .fcmp .. => x.within false false false false true []
  | .frcp .. => x.within false false false false true []
  | .frsq .. => x.within false false false false true []
  | .fsqrt .. => x.within false false false false true []
  | .fex2 .. => x.within false false false false true []
  | .flg2 .. => x.within false false false false true []
  | .ftanh .. => x.within false false false false true []
  | .fsin .. => x.within false false false false true []
  | .fcos .. => x.within false false false false true []
  | .cvtf .. => if 6 ≤ x.sel.toNat && x.sel.toNat ≤ 10 then x.within false true true true true [6, 7, 8, 9, 10] else x.within false false false false true [1, 2, 3, 4, 5, 11]
  | .cvtfi .. => x.within false true false false true [1, 2, 3]
  | .cvtif .. => x.within false true false false true [1, 2, 3]
  | .cvtsr .. => !(x.sel == 0#4) && (x.within true false false true true [6, 7, 8, 9, 10])
  | .hfma2 .. => x.within true true false true true [1]
  | .hadd2 .. => x.within false true false true true [1]
  | .hmul2 .. => x.within false true false true true [1]
  | .hmax2 .. => x.within false false false false true [1, 2, 3]
  | .seed .. => x.within false false false false true []
  | .rand .. => x.within false false false false true []
  | .ext .. => x.within false false false false false []
  | .perm .. => x.within true false false false true [8, 9, 10, 11, 12, 13, 14, 15]
  | .bcast .. => x.within true false false false true [8, 9, 10, 11, 12, 13, 14, 15]
  | .scan _ _ _ b => if b.toNat % 16 == 8 then x.within true true false false true [] else x.within true false false false true []
  | .redl _ _ _ b => if b.toNat % 16 == 8 then x.within true true false false true [] else x.within true false false false true []
  | .vote .. => x.within true false false false true []
  | .matchLanes .. => x.within true false false false true [1]
  | .elect .. => x.within true false false false true [8, 9, 10, 11, 12, 13, 14, 15]
  | .lanemask .. => x.within true false false false true [1, 2, 3, 4]
  | .ld .. => x.within true false false false true []
  | .st .. => x.within true false false false true []
  | .lds .. => x.within true false false false true []
  | .sts .. => x.within true false false false true []
  | .ldw .. => x.within true false false false true []
  | .stw .. => x.within true false false false true []
  | .pref .. => x.within true false false false true []
  | .bufset .. => x.within false false false false false []
  | .frec .. => x.within false false false false true []
  | .frecXlate .. => x.within false false false false true [1]
  | .migctlStart .. => x.within true false false false true []
  | .migctlQuery .. => x.within true false false false true [1]
  | .migctlResolve .. => x.within true false false false true [2]
  | .migctlAbort .. => x.within true false false false true [3]
  | .migctlInvpg .. => x.within true false false false true [4]
  | .qpush .. => x.within false false false false false []
  | .qpop .. => x.within false false false false false []
  | .atom .. => x.within true false false false true [1, 2, 3, 4, 5, 6, 7, 8, 9, 10, 11]
  | .atomAcq .. => x.within true false false false true [1, 2, 3, 4, 5, 6, 7, 8, 9, 10, 11]
  | .atomRel .. => x.within true false false false true [1, 2, 3, 4, 5, 6, 7, 8, 9, 10, 11]
  | .cas .. => x.within true false false false true [1, 2, 3]
  | .atomnr .. => x.within true false false false true [1, 2, 3, 4, 5, 6, 7, 8, 9, 10, 11]
  | .satom .. => x.within true false false false true [1, 2, 3, 4, 5, 6, 7, 8, 9, 10, 11]
  | .acq .. => x.within false false false false true []
  | .rel .. => x.within false false false false true []
  | .fence .. => x.within false false false false true []
  | .bwait .. => x.within false false false false true []
  | .binit .. => x.within false false false false true []
  | .barrive .. => x.within false false false false true []
  | .bexpect .. => x.within false false false false true []
  | .btest .. => x.within false false false false true []
  | .ndef .. => x.within false false false false true []
  | .nedge .. => x.within false false false false true []
  | .nfire .. => x.within false false false false true []
  | .cpy .. => x.within false false false false true []
  | .gath .. => x.within false false false false true []
  | .scat .. => x.within false false false false true []
  | .nwait .. => x.within false false false false true []
  | .mresv .. => x.within false false false false false []
  | .mldb .. => x.within false false false false false []
  | .mgath .. => x.within false false false false false []
  | .mma .. => x.within false false false false false []
  | .mtrn .. => x.within false false false false false []
  | .mzero .. => x.within false false false false false []
  | .mst .. => x.within false true true true false []
  | .mscale .. => x.within false false false false false [4, 5, 6, 7]
  | .mfree .. => x.within false false false false false []
  | .treg .. => x.within false false false false true []
  | .tdrop .. => x.within false false false false true []
  | .tfetch .. => x.within false false false false true []
  | .thalo .. => x.within false false false false true []
  | .tinv .. => x.within false false false false true []
  | .tlook .. => x.within false false false false true []
  | .snap .. => x.within false false false false true []
  | .rest .. => x.within false false false false true []
  | .spawn _ _ _ n => if n == 0#4 then x.within true false false false true [] else x.within false false false false true []
  | .spawnFar _ _ _ n => if n == 0#4 then x.within true false false false true [] else x.within false false false false true []
  | .drop .. => x.within false false false false true []
  | .hinfo .. => x.within false false false false true []
  | .recruit .. => x.within false false false false true []
  | .offer .. => x.within false false false false true []
  | .hend .. => x.within false false false false true []
  | .hwait .. => x.within false false false false true []
  | .hkill .. => x.within false false false false true []
  | .kvnewSeq .. => x.within false false false false true []
  | .kvnewPool .. => x.within false false false false true [1]
  | .kvnewDrop .. => x.within false false false false true [2]
  | .kvapp .. => x.within false false false false true []
  | .kvfork .. => x.within false false false false true []
  | .kvforkCow .. => x.within false false false false true [1]
  | .kvfree .. => x.within false false false false true []
  | .kvfreeTrunc .. => x.within false false false false true [1]
  | .kvwalk .. => x.within false false false false true []
  | .kvinvSet .. => x.within false false false false true []
  | .kvinvClr .. => x.within false false false false true [1]
  | .rspan .. => x.within false false false false true []
  | .xqsend .. => x.within false false false false true []
  | .xqrecv .. => x.within false false false false true []
  | .xqrecvDraft .. => x.within false false false false true [1]
  | .gstep .. => x.within false false false false true []
  | .gstepBind .. => x.within false false false false true [1]
  | .gmask .. => x.within false false false false true []
  | .kvquotaRd .. => x.within false false false false true []
  | .kvquotaWr .. => x.within false false false false true [1]
  | .trap .. => x.within false false false false true []
  | .tretRetry .. => x.within true false false false true [0, 4, 8, 12] && x.sel.toNat % 4 == 0
  | .tretNext .. => x.within true false false false true [1, 5, 9, 13] && x.sel.toNat % 4 == 1
  | .tretEnd .. => x.within true false false false true [2, 6, 10, 14] && x.sel.toNat % 4 == 2
  | .sysrd .. => x.within false false false false true []
  | .syswr .. => x.within false false false false true []
  | .perf .. => x.within false false false false true [1]
  | .haltctx .. => x.within false false false false true []
  | .ckptCut .. => x.within false false false false true []
  | .ckptQuery .. => x.within false false false false true [1]
  | .ckptAbort .. => x.within false false false false true [2]
  | .ckptRestore .. => x.within false false false false true [3]
  | .wdog .. => x.within false false false false true []
  | .wdogSet .. => x.within false false false false true [1]
  | .watchdog .. => false
  | .sleepWake .. => false
  | .offerTimeout .. => false
  | .teardownComplete .. => false
  | .loadDataArrival .. => false
  | .storeRegistration .. => false
  | .storeGrant .. => false
  | .atomicPerformance .. => false
  | .atomicResultArrival .. => false
  | .translationWalk .. => false
  | .migrationLineCopy .. => false
  | .barrierRecheck .. => false
  | .jacquardWordApply .. => false
  | .engineLaunch .. => false
  | .engineLaunchCompletion .. => false
  | .matrixWordApply .. => false
  | .matrixPassGrant .. => false
  | .matrixPassComplete .. => false
  | .latchLoadComplete .. => false
  | .mstCredit .. => false
  | .brocadeSweep .. => false
  | .tinvSliceApply .. => false
  | .twillChase .. => false
  | .poolLaneOperation .. => false
  | .graphLoadComplete .. => false
  | .runStart .. => false
  | .schedulerDispatch => false
  | .launchComplete .. => false
  | .sliceExpiry .. => false
  | .graceExpiry .. => false
  | .killExpiry .. => false
  | .contextSave .. => false
  | .contextResume .. => false
  | .checkpointSweep .. => false
  | .pieceReserveCopy .. => false
  | .checkpointDrain .. => false
  | .quantumScrub .. => false
  | .powerOn .. => false
  | .unallocatedEncoding .. => false
  | .messageEnqueued .. => false
  | .graphloadLoad .. => false
  | .graphloadUnload .. => false
  | .triggerWrite .. => false
  | .graphstatWrite .. => false
  | .pcfg .. => false
  | .qmove .. => false
  | .quantumOnline .. => false
  | .memoryRelease .. => false
  | .fwupdate .. => false
  | .hostCxlMemWrite .. => false
  | .hostCxlMemRead .. => false
  | .harespResolve .. => false
  | .harespAbort .. => false
  | .harespMakeCopy .. => false
  | .harespStartRun .. => false
  | .harespDiscardRun .. => false
  | .harespPieceDrained .. => false
  | .haqheadWrite .. => false
  | .clhandlerWrite .. => false
  | .perfselWrite .. => false
  | .pretimersWrite .. => false
  | .registerWrite .. => false
  | .uncorrectableError .. => false
  | .clockStep .. => false
  | .getCertificate .. => false
  | .challenge .. => false
  | .getMeasurements .. => false
  | .unsupportedRequest .. => false
  | .otherHostWrite .. => false
  | .controllerDma .. => false
  | .nvmeCommand .. => false
  | .report => false
  | .retrain => false
  | .pcieLinkError => false
  | .deviceReset => false
  | .getVersion => false
  | .getCapabilities => false
  | .negotiateAlgorithms => false
  | .getDigests => false

/-! ## The streams that a word runs in (R52) -/

/-- The stream column of R52; an event is no word. -/
def streamOf : Instr → Option Stream
  | .hdr .. => some .both
  | .nop .. => some .both
  | .bra .. => some .both
  | .brc .. => some .both
  | .call .. => some .both
  | .brx .. => some .both
  | .ret .. => some .both
  | .exit .. => some .both
  | .tail .. => some .warp
  | .prio .. => some .warp
  | .sleep .. => some .warp
  | .yield .. => some .warp
  | .dqput .. => some .front
  | .dqtake .. => some .warp
  | .join .. => some .warp
  | .leave .. => some .warp
  | .gbar .. => some .warp
  | .gfire .. => some .warp
  | .gsig .. => some .warp
  | .movi .. => some .both
  | .movh .. => some .both
  | .iaddi .. => some .both
  | .iadd .. => some .both
  | .isub .. => some .both
  | .imul .. => some .both
  | .imulh .. => some .both
  | .and .. => some .both
  | .or .. => some .both
  | .xor .. => some .both
  | .andn .. => some .both
  | .shl .. => some .both
  | .shr .. => some .both
  | .sar .. => some .both
  | .rot .. => some .both
  | .imin .. => some .both
  | .imax .. => some .both
  | .umin .. => some .both
  | .umax .. => some .both
  | .popc .. => some .both
  | .clz .. => some .both
  | .brev .. => some .both
  | .iabs .. => some .both
  | .sel .. => some .both
  | .lea .. => some .both
  | .imad .. => some .both
  | .idivs .. => some .both
  | .bfx .. => some .both
  | .bfxs .. => some .both
  | .bfi .. => some .both
  | .icmp .. => some .both
  | .fadd .. => some .warp
  | .fsub .. => some .warp
  | .fmul .. => some .warp
  | .ffma .. => some .warp
  | .fmin .. => some .warp
  | .fmax .. => some .warp
  | .fabs .. => some .warp
  | .fcmp .. => some .warp
  | .frcp .. => some .warp
  | .frsq .. => some .warp
  | .fsqrt .. => some .warp
  | .fex2 .. => some .warp
  | .flg2 .. => some .warp
  | .ftanh .. => some .warp
  | .fsin .. => some .warp
  | .fcos .. => some .warp
  | .cvtf .. => some .warp
  | .cvtfi .. => some .warp
  | .cvtif .. => some .warp
  | .cvtsr .. => some .warp
  | .hfma2 .. => some .warp
  | .hadd2 .. => some .warp
  | .hmul2 .. => some .warp
  | .hmax2 .. => some .warp
  | .seed .. => some .warp
  | .rand .. => some .warp
  | .ext .. => some .warp
  | .perm .. => some .warp
  | .bcast .. => some .warp
  | .scan .. => some .warp
  | .redl .. => some .warp
  | .vote .. => some .warp
  | .matchLanes .. => some .warp
  | .elect .. => some .warp
  | .lanemask .. => some .warp
  | .ld .. => some .warp
  | .st .. => some .warp
  | .lds .. => some .warp
  | .sts .. => some .warp
  | .ldw .. => some .warp
  | .stw .. => some .warp
  | .pref .. => some .warp
  | .bufset .. => some .front
  | .frec .. => some .warp
  | .frecXlate .. => some .warp
  | .migctlStart .. => some .warp
  | .migctlQuery .. => some .warp
  | .migctlResolve .. => some .warp
  | .migctlAbort .. => some .warp
  | .migctlInvpg .. => some .warp
  | .qpush .. => some .front
  | .qpop .. => some .warp
  | .atom .. => some .warp
  | .atomAcq .. => some .warp
  | .atomRel .. => some .warp
  | .cas .. => some .warp
  | .atomnr .. => some .warp
  | .satom .. => some .warp
  | .acq .. => some .both
  | .rel .. => some .both
  | .fence .. => some .both
  | .bwait .. => some .both
  | .binit .. => some .both
  | .barrive .. => some .both
  | .bexpect .. => some .both
  | .btest .. => some .both
  | .ndef .. => some .both
  | .nedge .. => some .both
  | .nfire .. => some .both
  | .cpy .. => some .both
  | .gath .. => some .both
  | .scat .. => some .both
  | .nwait .. => some .both
  | .mresv .. => some .warp
  | .mldb .. => some .warp
  | .mgath .. => some .warp
  | .mma .. => some .warp
  | .mtrn .. => some .warp
  | .mzero .. => some .warp
  | .mst .. => some .warp
  | .mscale .. => some .warp
  | .mfree .. => some .warp
  | .treg .. => some .both
  | .tdrop .. => some .both
  | .tfetch .. => some .both
  | .thalo .. => some .both
  | .tinv .. => some .both
  | .tlook .. => some .both
  | .snap .. => some .warp
  | .rest .. => some .warp
  | .spawn .. => some .warp
  | .spawnFar .. => some .warp
  | .drop .. => some .warp
  | .hinfo .. => some .warp
  | .recruit .. => some .warp
  | .offer .. => some .warp
  | .hend .. => some .warp
  | .hwait .. => some .warp
  | .hkill .. => some .warp
  | .kvnewSeq .. => some .warp
  | .kvnewPool .. => some .warp
  | .kvnewDrop .. => some .warp
  | .kvapp .. => some .warp
  | .kvfork .. => some .warp
  | .kvforkCow .. => some .warp
  | .kvfree .. => some .warp
  | .kvfreeTrunc .. => some .warp
  | .kvwalk .. => some .warp
  | .kvinvSet .. => some .warp
  | .kvinvClr .. => some .warp
  | .rspan .. => some .warp
  | .xqsend .. => some .warp
  | .xqrecv .. => some .warp
  | .xqrecvDraft .. => some .warp
  | .gstep .. => some .warp
  | .gstepBind .. => some .warp
  | .gmask .. => some .warp
  | .kvquotaRd .. => some .warp
  | .kvquotaWr .. => some .warp
  | .trap .. => some .both
  | .tretRetry .. => some .both
  | .tretNext .. => some .both
  | .tretEnd .. => some .both
  | .sysrd .. => some .both
  | .syswr .. => some .both
  | .perf .. => some .both
  | .haltctx .. => some .both
  | .ckptCut .. => some .both
  | .ckptQuery .. => some .both
  | .ckptAbort .. => some .both
  | .ckptRestore .. => some .both
  | .wdog .. => some .both
  | .wdogSet .. => some .both
  | .watchdog .. => none
  | .sleepWake .. => none
  | .offerTimeout .. => none
  | .teardownComplete .. => none
  | .loadDataArrival .. => none
  | .storeRegistration .. => none
  | .storeGrant .. => none
  | .atomicPerformance .. => none
  | .atomicResultArrival .. => none
  | .translationWalk .. => none
  | .migrationLineCopy .. => none
  | .barrierRecheck .. => none
  | .jacquardWordApply .. => none
  | .engineLaunch .. => none
  | .engineLaunchCompletion .. => none
  | .matrixWordApply .. => none
  | .matrixPassGrant .. => none
  | .matrixPassComplete .. => none
  | .latchLoadComplete .. => none
  | .mstCredit .. => none
  | .brocadeSweep .. => none
  | .tinvSliceApply .. => none
  | .twillChase .. => none
  | .poolLaneOperation .. => none
  | .graphLoadComplete .. => none
  | .runStart .. => none
  | .schedulerDispatch => none
  | .launchComplete .. => none
  | .sliceExpiry .. => none
  | .graceExpiry .. => none
  | .killExpiry .. => none
  | .contextSave .. => none
  | .contextResume .. => none
  | .checkpointSweep .. => none
  | .pieceReserveCopy .. => none
  | .checkpointDrain .. => none
  | .quantumScrub .. => none
  | .powerOn .. => none
  | .unallocatedEncoding .. => none
  | .messageEnqueued .. => none
  | .graphloadLoad .. => none
  | .graphloadUnload .. => none
  | .triggerWrite .. => none
  | .graphstatWrite .. => none
  | .pcfg .. => none
  | .qmove .. => none
  | .quantumOnline .. => none
  | .memoryRelease .. => none
  | .fwupdate .. => none
  | .hostCxlMemWrite .. => none
  | .hostCxlMemRead .. => none
  | .harespResolve .. => none
  | .harespAbort .. => none
  | .harespMakeCopy .. => none
  | .harespStartRun .. => none
  | .harespDiscardRun .. => none
  | .harespPieceDrained .. => none
  | .haqheadWrite .. => none
  | .clhandlerWrite .. => none
  | .perfselWrite .. => none
  | .pretimersWrite .. => none
  | .registerWrite .. => none
  | .uncorrectableError .. => none
  | .clockStep .. => none
  | .getCertificate .. => none
  | .challenge .. => none
  | .getMeasurements .. => none
  | .unsupportedRequest .. => none
  | .otherHostWrite .. => none
  | .controllerDma .. => none
  | .nvmeCommand .. => none
  | .report => none
  | .retrain => none
  | .pcieLinkError => none
  | .deviceReset => none
  | .getVersion => none
  | .getCapabilities => none
  | .negotiateAlgorithms => none
  | .getDigests => none

/-! ## When a warp word may issue, and what its result leaves -/

/-- The word in hand is a warp word whose EXT fields it accepts (R51), and no thread that executes it is at its deadline
(R69). -/
structure WarpReady (s : State) (i : Instr) : Prop where
  warp : s.cur.fe = false
  whole : s.cur.extBad = false
  takes : takes s.ext i = true
  form : i.wf = true
  budget : ∀ u ∈ s.active, (s.thread u).yc + 1 ≤ 1024 * (s.thread u).dl

/-- Every thread that executes the word may read these registers (R45). -/
def State.reads (s : State) (rs : List Reg) : Prop := ∀ u ∈ s.active, ∀ r ∈ rs, s.here.srcOk u r = true

/-- Register `d` is a destination (R45) in every thread that executes the word, its row is the thread's own in every
thread of the run, and no earlier result for it lands after one of this word's `delay` (R37). -/
structure State.writes (s : State) (d : Reg) (delay : Nat) : Prop where
  named : dstNamed d = true
  allowed : ∀ u ∈ s.active, s.here.dstOk u d = true
  owns : s.here.Owns s.cur.run d
  last : s.here.noLater s.active d delay

/-- What a word of one result leaves: `val` in register `d` of each thread that executes it and in its last-result entry,
the old value of `d` in that entry of a thread that the guard excludes (R44), and nothing else changed; `rel`
says what more may differ in a thread that executes it. -/
structure ResultEffect (s t : State) (p : ResPipe) (d : Reg) (val : Nat → Word) (rel : Nat → Thread → Thread → Prop) : Prop where
  only : s.onlyHere t
  core : s.here.onlyThreads (t.core s.cur.core)
  outside : ∀ u, u ∉ s.cur.run → (t.core s.cur.core).th u = s.thread u
  value : ∀ u ∈ s.active, ∀ q, s.here.cell u d = some q → (t.core s.cur.core).rowWord q.1 q.2 = val u
  words : ∀ r w, (∀ u ∈ s.active, s.here.cell u d ≠ some (r, w)) → (t.core s.cur.core).rowWord r w = s.here.rowWord r w
  active : ∀ u ∈ s.active, rel u (((s.thread u).issued true).fill p (val u)) ((t.core s.cur.core).th u)
  excluded : ∀ u ∈ s.cur.run, u ∉ s.active →
    (t.core s.cur.core).th u = ((s.thread u).issued false).fill p (s.here.readReg s.cur.draw u d)

/-- What a word that writes predicate `p` leaves: `val` in it in each thread that executes the word, and nothing else
changed but what `rel` allows. -/
structure PredEffect (s t : State) (p : Nat) (val : Nat → Bool) (rel : Nat → Thread → Thread → Prop) : Prop where
  only : s.onlyHere t
  core : s.here.onlyThreads (t.core s.cur.core)
  rows : (t.core s.cur.core).rows = s.here.rows
  outside : ∀ u, u ∉ s.cur.run → (t.core s.cur.core).th u = s.thread u
  active : ∀ u ∈ s.active,
    rel u { ((s.thread u).issued true) with pred := setPredBit (s.thread u).pred p (val u) } ((t.core s.cur.core).th u)
  excluded : ∀ u ∈ s.cur.run, u ∉ s.active → (t.core s.cur.core).th u = (s.thread u).issued false

/-- The run's threads are on the core, each once, and no earlier result for predicate `p` lands after one of this word's
`delay`. -/
structure State.writesPred (s : State) (p delay : Nat) : Prop where
  nodup : s.cur.run.Nodup
  listed : ∀ u ∈ s.cur.run, AMap.has s.here.threads u = true
  last : ∀ u ∈ s.active, ∀ e ∈ (s.thread u).early, e.outlasts (predCode p) ((s.thread u).last + delay) = false

/-! ## When a front-end word may issue, and what its result leaves -/

/-- The word in hand is a front-end word with no EXT (R46) on a core whose front-end thread is `f`. -/
structure FrontReady (s : State) (i : Instr) (f : FrontEnd) : Prop where
  front : s.cur.fe = true
  bare : s.cur.ext = none
  whole : s.cur.extBad = false
  form : i.wf = true
  thread : s.here.fe = some f

/-- What a front-end word that changes its own thread alone leaves. -/
structure FrontEffect (s t : State) (f' : FrontEnd) : Prop where
  only : s.onlyHere t
  core : t.core s.cur.core = { s.here with fe := some f' }

/-- The thread after a front-end word of one result: `v` in k register `d`, the PC at the next word. -/
def FrontEnd.resulted (f f' : FrontEnd) (d : Reg) (v : DWord) : Prop :=
  { f' with early := f.early } = { f with pc := f.pc + 4#32, k := if d.toNat < 64 then setAt f.k d.toNat v else f.k }

/-- No earlier short-latency result of k register `d` lands later than one that lands in the cycle `landAt` (R37). -/
def FrontEnd.noLater (f : FrontEnd) (d : Reg) (landAt : Nat) : Prop := ∀ e ∈ f.early, e.outlasts d.toNat landAt = false

end Sys2Proof.Machine
end

