-- ==== Sys2Proof/Certificates/Slice0/Obligations.lean ====
section
/-! DEFINITION. The statements for the provers, with the tables that they read: what a rule of the spec gives as the
result of a word, written from the rule's own formula. -/

namespace Sys2Proof.Claims

open Sys2Proof Sys2Proof.Machine

/-! ## Integer words (R114 to R130) -/

/-- The signed value of W bits. -/
abbrev sval {w : Nat} (x : BitVec w) : Int := x.toInt
/-- The unsigned value of W bits. -/
abbrev uval {w : Nat} (x : BitVec w) : Int := x.toNat
/-- An integer reduced modulo 2^W (R114). -/
abbrev wrap (w : Nat) (n : Int) : BitVec w := BitVec.ofInt w n
/-- The nearest integer from `lo` to `hi`. -/
def clamp (n lo hi : Int) : Int := max lo (min n hi)
/-- The greatest and least signed values of W bits. -/
def top (w : Nat) : Int := 2 ^ (w - 1) - 1
def bottom (w : Nat) : Int := -2 ^ (w - 1)

/-- IADD, ISUB and IADDI (R120): the sum or difference of `x` and a signed and an unsigned reading of the second source. -/
def sumOf (e : Ext) (w : Nat) (a : BitVec w) (s u : Int) : BitVec w :=
  if e.sat = false then wrap w (uval a + s)
  else if e.sel = 0#4 then wrap w (clamp (sval a + s) (bottom w) (top w))
  else wrap w (clamp (uval a + u) 0 (2 ^ w - 1))

/-- IDIVS (R122). -/
def quotient (e : Ext) (w : Nat) (a b : BitVec w) : BitVec w :=
  if e.sel = 0#4 then (if uval b = 0 then wrap w (2 ^ w - 1) else wrap w (uval a / uval b))
  else if e.sel = 1#4 then
    (if sval b = 0 then wrap w (-1) else if sval a = bottom w ∧ sval b = -1 then wrap w (bottom w)
     else wrap w ((sval a).tdiv (sval b)))
  else if e.sel = 2#4 then (if uval b = 0 then a else wrap w (uval a - uval b * (uval a / uval b)))
  else
    (if sval b = 0 then a else if sval a = bottom w ∧ sval b = -1 then 0#w
     else wrap w (sval a - sval b * (sval a).tdiv (sval b)))

/-- The field of R129: its position and its length once clipped to the word. -/
def fieldPos {w : Nat} (b : BitVec w) : Nat := b.toNat % 256
def fieldLen {w : Nat} (b : BitVec w) : Nat := if w ≤ fieldPos b then 0 else min (b.toNat / 256 % 256) (w - fieldPos b)

/-- What an integer word reads, where it writes, and its result from the values read and the predicate it tests. -/
structure IntWord where
  dst : Reg
  srcs : List Reg
  args : List Reg
  result : (w : Nat) → Bool → List (BitVec w) → BitVec w

/-- A word of two sources, and of one. -/
def two (d a b : Reg) (f : (w : Nat) → BitVec w → BitVec w → BitVec w) : Option IntWord :=
  some ⟨d, [a, b], [a, b], fun w _ l => match l with | [x, y] => f w x y | _ => 0#w⟩
def one (d a : Reg) (f : (w : Nat) → BitVec w → BitVec w) : Option IntWord :=
  some ⟨d, [a], [a], fun w _ l => match l with | [x] => f w x | _ => 0#w⟩

/-- The third source of IMAD: the register that C3 names, or without one the destination (R51). -/
def third (e : Ext) (d : Reg) : Reg := if e.c3 = 0#7 then d else e.c3
def thirdRead (e : Ext) : List Reg := if e.c3 = 0#7 then [] else [e.c3]

/-- The integer words of R119 to R129, ICMP apart. -/
def intWordOf (e : Ext) : Instr → Option IntWord
  | .movi _ d m => some ⟨d, [], [], fun w _ _ => wrap w m.toNat⟩
  | .movh _ d m => some ⟨d, [], [d], fun w _ l => match l with
      | [x] => BitVec.ofNat w (x.toNat % 2 ^ 16 + m.toNat * 2 ^ 16 + x.toNat / 2 ^ 32 * 2 ^ 32)
      | _ => 0#w⟩
  | .iaddi _ d a m => one d a (fun w x => sumOf e w x (sval m) (sval m))
  | .iadd _ d a b => two d a b (fun w x y => sumOf e w x (sval y) (uval y))
  | .isub _ d a b => two d a b (fun w x y => sumOf e w x (-sval y) (-uval y))
  | .imul _ d a b => two d a b (fun w x y => wrap w (uval x * uval y))
  | .imulh _ d a b => two d a b (fun w x y =>
      wrap w ((if e.sel = 0#4 then uval x * uval y else if e.sel = 1#4 then sval x * sval y else sval x * uval y) / 2 ^ w))
  | .imad _ d a b => some ⟨d, [a, b] ++ thirdRead e, [a, b, third e d], fun w _ l => match l with
      | [x, y, z] => wrap w (uval x * uval y + uval z)
      | _ => 0#w⟩
  | .idivs _ d a b => two d a b (quotient e)
  | .and _ d a b => two d a b (fun _ x y => x &&& y)
  | .or _ d a b => two d a b (fun _ x y => x ||| y)
  | .xor _ d a b => two d a b (fun _ x y => x ^^^ y)
  | .andn _ d a b => two d a b (fun _ x y => x &&& ~~~y)
  | .shl _ d a b => two d a b (fun w x y => if w ≤ y.toNat then 0#w else wrap w (uval x * 2 ^ y.toNat))
  | .shr _ d a b => two d a b (fun w x y => if w ≤ y.toNat then 0#w else wrap w (uval x / 2 ^ y.toNat))
  | .sar _ d a b => two d a b (fun w x y =>
      if w ≤ y.toNat then (if sval x < 0 then wrap w (-1) else 0#w) else wrap w (sval x / 2 ^ y.toNat))
  | .rot _ d a b => two d a b (fun w x y => wrap w (uval x * 2 ^ (y.toNat % w)) ||| wrap w (uval x / 2 ^ (w - y.toNat % w)))
  | .imin _ d a b => two d a b (fun _ x y => if sval x ≤ sval y then x else y)
  | .imax _ d a b => two d a b (fun _ x y => if sval y ≤ sval x then x else y)
  | .umin _ d a b => two d a b (fun _ x y => if uval x ≤ uval y then x else y)
  | .umax _ d a b => two d a b (fun _ x y => if uval y ≤ uval x then x else y)
  | .popc _ d a => one d a (fun w x => BitVec.ofNat w ((List.range w).filter (fun i => x.getLsbD i)).length)
  | .clz _ d a => one d a (fun w x => BitVec.ofNat w
      ((List.range w).filter (fun i => (List.range w).all (fun j => decide (j < i) || !(x.getLsbD j)))).length)
  | .brev _ d a => one d a (fun _ x => x.reverse)
  | .iabs _ d a => one d a (fun w x =>
      if sval x = bottom w then (if e.sat then wrap w (top w) else x) else wrap w (sval x).natAbs)
  | .sel _ d a b => some ⟨d, [a, b], [a, b], fun w p l => match l with
      | [x, y] => if p != e.sel.getLsbD 3 then x else y
      | _ => 0#w⟩
  | .lea _ d a b => two d a b (fun w x y => wrap w (uval x + uval y * 2 ^ e.sel.toNat))
  | .bfx _ d a b => two d a b (fun w x y => wrap w (uval x / 2 ^ fieldPos y % 2 ^ fieldLen y))
  | .bfxs _ d a b => two d a b (fun w x y =>
      let t := uval x / 2 ^ fieldPos y % 2 ^ fieldLen y
      if fieldLen y = 0 then 0#w else if 2 ^ (fieldLen y - 1) ≤ t then wrap w (t - 2 ^ fieldLen y) else wrap w t)
  | .bfi _ d a b => some ⟨d, [a, b], [a, b, d], fun w _ l => match l with
      | [x, y, z] =>
        let m : BitVec w := wrap w ((2 ^ fieldLen y - 1) * 2 ^ fieldPos y)
        (z &&& ~~~m) ||| (wrap w (uval x * 2 ^ fieldPos y) &&& m)
      | _ => 0#w⟩
  | _ => none

/-- ICMP's conditions (R130). -/
def intCompare (k : BitVec 4) {w : Nat} (a b : BitVec w) : Bool :=
  match k.toNat with
  | 0 => decide (a = b)
  | 1 => decide (a ≠ b)
  | 2 => decide (sval a < sval b)
  | 3 => decide (sval a ≤ sval b)
  | 4 => decide (sval a > sval b)
  | 5 => decide (sval a ≥ sval b)
  | 6 => decide (uval a < uval b)
  | 7 => decide (uval a ≤ uval b)
  | 8 => decide (uval a > uval b)
  | 9 => decide (uval a ≥ uval b)
  | 10 => decide (a &&& b ≠ 0#w)
  | _ => decide (a &&& b = 0#w)

/-! ## Float words (R131 to R156) -/

/-- What a float word reads, where it writes, on which pipe, and its result and FSTAT bits in a thread. -/
structure FloatWord where
  dst : Reg
  srcs : List Reg
  pipe : ResPipe
  val : Core → Nat → Nat × Nat

/-- A word of the form of FADD (R145): operands read as FP32, combined exactly, rounded once. -/
def sumWord (s : State) (d a b : Reg) (op : Mode → Machine.Num → Machine.Num → Machine.Num × Nat) : Option FloatWord :=
  some ⟨d, [a, b], .x, fun c u => fp32.arith s.mode s.ext.sat
    (op s.mode (fp32.value (c.readF s.cur.draw u fp32 a)) (fp32.value (c.readF s.cur.draw u fp32 b)))⟩

/-- A packed word (R155): the same in each half, the low half first. -/
def halvesWord (s : State) (d a b : Reg) (op : Mode → Machine.Num → Machine.Num → Machine.Num × Nat) : Option FloatWord :=
  let f := s.half
  let half (c : Core) (u h : Nat) : Nat × Nat := f.arith s.mode s.ext.sat
    (op s.mode (f.value (elem 16 h (c.readF s.cur.draw u f a))) (f.value (elem 16 h (c.readF s.cur.draw u f b))))
  some ⟨d, [a, b], .x, fun c u => ((half c u 0).1 + 65536 * (half c u 1).1, orBits (half c u 0).2 (half c u 1).2)⟩

/-- A special function of pipe Y (R148). -/
def functionWord (s : State) (d a : Reg) (k : Special) : Option FloatWord :=
  some ⟨d, [a], .y, fun c u => k.eval (BitVec.ofNat 32 (c.readF s.cur.draw u fp32 a))⟩

/-- The float words of R145, R148 and R155. -/
def floatWordOf (s : State) : Instr → Option FloatWord
  | .fadd _ d a b => sumWord s d a b addNum
  | .fsub _ d a b => sumWord s d a b (fun m x y => addNum m x y.neg)
  | .fmul _ d a b => sumWord s d a b (fun _ x y => mulNum x y)
  | .ffma _ d a b => some ⟨d, [a, b] ++ thirdRead s.ext, .x, fun c u => fp32.arith s.mode s.ext.sat
      (fmaNum s.mode (fp32.value (c.readF s.cur.draw u fp32 a)) (fp32.value (c.readF s.cur.draw u fp32 b))
        (fp32.value (c.readF s.cur.draw u fp32 (third s.ext d))))⟩
  | .frcp _ d a => functionWord s d a .rcp
  | .frsq _ d a => functionWord s d a .rsq
  | .fsqrt _ d a => functionWord s d a .sqrt
  | .fex2 _ d a => functionWord s d a .ex2
  | .flg2 _ d a => functionWord s d a .lg2
  | .ftanh _ d a => functionWord s d a .tanh
  | .fsin _ d a => functionWord s d a .sin
  | .fcos _ d a => functionWord s d a .cos
  | .hadd2 _ d a b => halvesWord s d a b addNum
  | .hmul2 _ d a b => halvesWord s d a b (fun _ x y => mulNum x y)
  | .hfma2 _ d a b =>
      let f := s.half
      let half (c : Core) (u h : Nat) : Nat × Nat := f.arith s.mode s.ext.sat
        (fmaNum s.mode (f.value (elem 16 h (c.readF s.cur.draw u f a))) (f.value (elem 16 h (c.readF s.cur.draw u f b)))
          (f.value (elem 16 h (c.readF s.cur.draw u f (third s.ext d)))))
      some ⟨d, [a, b] ++ thirdRead s.ext, .x,
        fun c u => ((half c u 0).1 + 65536 * (half c u 1).1, orBits (half c u 0).2 (half c u 1).2)⟩
  | .hmax2 _ d a b =>
      let f := s.half
      let half (c : Core) (u h : Nat) : Nat × Nat :=
        f.pick (!(s.ext.sel.getLsbD 1)) (elem 16 h (c.readF s.cur.draw u f a)) (elem 16 h (c.readF s.cur.draw u f b))
      some ⟨d, [a, b], .x, fun c u => ((half c u 0).1 + 65536 * (half c u 1).1, orBits (half c u 0).2 (half c u 1).2)⟩
  | _ => none

/-- FP32 by its bits (R131): a NaN, a signalling NaN, an infinity, a zero. -/
def isNan (x : Nat) : Bool := x / 2 ^ 23 % 256 == 255 && !(x % 2 ^ 23 == 0)
def isSnan (x : Nat) : Bool := isNan x && x / 2 ^ 22 % 2 == 0
def isInf (x : Nat) : Bool := x % 2 ^ 31 == 0x7F800000
def isZero (x : Nat) : Bool := x % 2 ^ 31 == 0

/-- FP32 in the order that puts −0 below +0 (R146), and in the order in which zeros are equal (R147). -/
def floatKey (x : Nat) : Int := if 2 ^ 31 ≤ x then -(x % 2 ^ 31 : Nat) - 1 else (x % 2 ^ 31 : Nat)
def floatOrder (x : Nat) : Int := if 2 ^ 31 ≤ x then -(x % 2 ^ 31 : Nat) else (x % 2 ^ 31 : Nat)

/-- The NV bit of FSTAT where a condition holds (R136). -/
def nvIf (b : Bool) : Word := if b then 0x10#32 else 0#32

/-- FMIN and FMAX (R146). -/
def pickOf (max : Bool) (a b : Nat) : Nat :=
  if isNan a && isNan b then 0x7FC00000
  else if isNan a then b
  else if isNan b then a
  else if (if max then floatKey b ≤ floatKey a else floatKey a ≤ floatKey b) then a else b

/-- FCMP's conditions, and whether the condition sets NV (R147). -/
def floatCompare (k : BitVec 4) (a b : Nat) : Bool × Bool :=
  let un := isNan a || isNan b
  let x := floatOrder a
  let y := floatOrder b
  let quiet := isSnan a || isSnan b
  match k.toNat with
  | 0 => (!un && decide (x = y), quiet)
  | 1 => (un || decide (x ≠ y), quiet)
  | 2 => (!un && decide (x < y), un)
  | 3 => (!un && decide (x ≤ y), un)
  | 4 => (!un && decide (x > y), un)
  | 5 => (!un && decide (x ≥ y), un)
  | 6 => (un, quiet)
  | _ => (!un, quiet)

/-- The width of the element that a conversion merges into its destination, and the element (R150 to R154). -/
def mergesInto (s : State) : Instr → Option (Nat × (Nat → Nat))
  | .cvtf _ _ _ b =>
      let w := if s.ext.sel.toNat = 10 then 4 else if s.ext.sel.toNat ≤ 7 then 16 else 8
      if 6 ≤ s.ext.sel.toNat then some (w, fun u => (s.here.readReg s.cur.draw u b).toNat % (32 / w)) else none
  | .cvtsr _ _ _ _ =>
      let w := if s.ext.sel.toNat = 10 then 4 else if s.ext.sel.toNat ≤ 7 then 16 else 8
      some (w, fun u => if s.ext.c3 = 0#7 then 0 else (s.here.readReg s.cur.draw u s.ext.c3).toNat % (32 / w))
  | .cvtfi _ _ _ b =>
      if 2 ≤ s.ext.sel.toNat then some (8, fun u => (s.here.readReg s.cur.draw u b).toNat % 4) else none
  | _ => none

/-- The destination and sources of a conversion. -/
def convertOf (s : State) : Instr → Option (Reg × List Reg)
  | .cvtf _ d a b => some (d, [a, b])
  | .cvtsr _ d a b => some (d, [a, b] ++ thirdRead s.ext)
  | .cvtfi _ d a b => if 2 ≤ s.ext.sel.toNat then some (d, [a, b]) else if b = 0#7 then some (d, [a]) else none
  | .cvtif _ d a b => if 2 ≤ s.ext.sel.toNat then some (d, [a, b]) else if b = 0#7 then some (d, [a]) else none
  | _ => none

/-- One step of a thread's generator G and the value it draws (R138), in integers. -/
def nextG (g : DWord) : DWord := BitVec.ofNat 64 (g.toNat * 0xD1342543DE82EF95 + 1)
def drawnOf (g : DWord) : Word := BitVec.ofNat 32 (((nextG g).toNat ^^^ ((nextG g).toNat / 2 ^ 27)) / 2 ^ 32)

/-! ## Cross-lane words (R157 to R169) -/

/-- The warp width, a lane's thread, and the lane of a thread. -/
def lanesOf (s : State) : Nat := s.width s.cur.core
def inLane (s : State) (i : Nat) : Nat := uidOf s.cur.warp i
def laneOf (s : State) (u : Nat) : Nat := (s.thread u).lane

/-- Whether lane `i` holds a live thread, and one that is not parked by OFFER. -/
def live (s : State) (i : Nat) : Bool := AMap.has s.here.threads (inLane s i)
def present (s : State) (i : Nat) : Bool :=
  match AMap.look s.here.threads (inLane s i) with
  | some t => (match t.hold with | .parked .. => false | _ => true)
  | none => false

/-- What register `r` reads in a thread, and in a lane. -/
def reads (s : State) (u : Nat) (r : Reg) : Word := s.here.readReg s.cur.draw u r
def readsIn (s : State) (i : Nat) (r : Reg) : Word := reads s (inLane s i) r

/-- Whether lane `i` is in the member set that C3 names (R157). -/
def inSet (s : State) (i : Nat) : Bool :=
  if s.ext.c3 = 0#7 then true
  else if s.ext.c3 = 108#7 then s.cur.run.any (fun u => laneOf s u == i)
  else match s.active with
    | [] => false
    | u :: _ => if i < 32 then (reads s u s.ext.c3).getLsbD i else (reads s u (s.ext.c3 + 1#7)).getLsbD (i - 32)

/-- The active members, ascending. -/
def members (s : State) : List Nat :=
  (List.range (lanesOf s)).filter (fun i => inSet s i && s.active.any (fun u => laneOf s u == i))

/-- A mask register is named as R157 allows, read alike in every thread that executes the word, and names no lane beyond
the width. -/
structure MaskRead (s : State) : Prop where
  named : if lanesOf s = 64 then s.ext.c3.toNat < 95 ∨ (96 ≤ s.ext.c3.toNat ∧ s.ext.c3.toNat < 103) else s.ext.c3.toNat < 104
  readable : s.reads (if lanesOf s = 64 then [s.ext.c3, s.ext.c3 + 1#7] else [s.ext.c3])
  alike : ∀ u ∈ s.active, ∀ v ∈ s.active, reads s u s.ext.c3 = reads s v s.ext.c3 ∧
    (lanesOf s = 64 → reads s u (s.ext.c3 + 1#7) = reads s v (s.ext.c3 + 1#7))
  within : ∀ u ∈ s.active, lanesOf s < 64 → (reads s u s.ext.c3).toNat < 2 ^ lanesOf s

/-- A collective may issue (the last row of R65): its run is the head run, every lane in which it executes is a member,
and every live member is in the run. A run-scoped set needs none of this. The run's threads stand in their lanes and are
no helpers. -/
structure Converged (s : State) : Prop where
  placed : ∀ u ∈ s.cur.run, u = inLane s (laneOf s u) ∧ laneOf s u < lanesOf s ∧ (s.thread u).helper = none
  set : s.ext.c3 = 0#7 ∨ s.ext.c3 = 108#7 ∨ MaskRead s
  head : s.ext.c3 ≠ 108#7 → s.cur.head = true
  covers : s.ext.c3 ≠ 108#7 → ∀ u ∈ s.active, inSet s (laneOf s u) = true
  here : s.ext.c3 ≠ 108#7 → ∀ i < lanesOf s, inSet s i = true → present s i = true → inLane s i ∈ s.cur.run

/-- A cross-lane word: destination, sources, value, predicate and its value, FSTAT bits, and what else it needs. -/
structure CrossWord where
  dst : Reg
  srcs : List Reg
  val : Nat → Word
  pred : Option (Nat × (Nat → Bool)) := none
  bits : Nat → Nat := fun _ => 0
  needs : Prop := True

/-- 32 lanes as a word, from lane 32 × h. -/
def lanesWord (h : Nat) (p : Nat → Bool) : Word :=
  BitVec.ofNat 32 (((List.range 32).filter (fun i => p (32 * h + i))).map (2 ^ ·)).sum

/-- The predicate that SEL names (R160). -/
def namedPred (s : State) (v : Nat → Bool) : Option (Nat × (Nat → Bool)) :=
  if s.ext.sel.getLsbD 3 then some (s.ext.sel.toNat % 8, v) else none

/-- What a lane of the run, or another lane, gives as a source (R169), and whether it may be read. -/
def gives (s : State) (i : Nat) (r : Reg) : Word :=
  if inLane s i ∈ s.cur.run then readsIn s i r else s.here.peekReg s.cur.draw (inLane s i) r
def givesOk (s : State) (i : Nat) (r : Reg) : Bool :=
  if inLane s i ∈ s.cur.run then s.here.srcOk (inLane s i) r else s.here.peekOk (inLane s i) r

/-- PERM and BCAST: the value of a source lane, where it holds a thread that is not parked; A is read in that lane alone, B in
the thread that names it (R162). -/
def moveOf (s : State) (d a b : Reg) (namer : Nat → Nat) : CrossWord :=
  let src (u : Nat) : Nat := (reads s (namer u) b).toNat
  let on (u : Nat) : Bool := decide (src u < lanesOf s) && present s (src u)
  { dst := d, srcs := [], val := fun u => if on u then gives s (src u) a else 0#32,
    pred := namedPred s (fun u => !(on u)),
    needs := ∀ u ∈ s.active, s.here.srcOk (namer u) b = true ∧ (on u = true → givesOk s (src u) a = true) }

/-- The cross-lane words of R162 and R165 to R168. -/
def crossOf (s : State) : Instr → Option CrossWord
  | .perm _ d a b => some (moveOf s d a b (fun u => u))
  | .bcast _ d a b => some (moveOf s d a b (fun _ => s.active.headD 0))
  | .vote _ d a b =>
      let yes (i : Nat) : Bool := (members s).contains i && !(readsIn s i a == 0#32)
      some { dst := d, srcs := [a], val := fun _ => match b.toNat with
        | 0 => if (members s).any yes then 1#32 else 0#32
        | 1 => if (members s).all yes then 1#32 else 0#32
        | 2 => lanesWord 0 yes
        | 3 => lanesWord 1 yes
        | _ => BitVec.ofNat 32 ((members s).filter yes).length }
  | .matchLanes _ d a =>
      some { dst := d, srcs := [a], val := fun u =>
        lanesWord s.ext.sel.toNat (fun i => (members s).contains i && readsIn s i a == reads s u a) }
  | .elect _ d =>
      let won (u : Nat) : Bool := (members s).contains (laneOf s u) && (members s).all (fun i => decide (laneOf s u ≤ i))
      some { dst := d, srcs := [], val := fun u => if won u then 1#32 else 0#32, pred := namedPred s won }
  | .lanemask _ d a =>
      some { dst := d, srcs := [a], val := fun u => lanesWord ((reads s u a).toNat % 2) (fun i => decide (i < lanesOf s) &&
        match s.ext.sel.toNat with
        | 0 => s.cur.run.any (fun v => laneOf s v == i)
        | 1 => live s i
        | 2 => (members s).contains i && decide (i < laneOf s u)
        | 3 => (members s).contains i && decide (laneOf s u < i)
        | _ => !(live s i)) }
  | _ => none

/-- The operations of R161: value and FSTAT bits. -/
def opOf (s : State) (k : Nat) (x y : Word) : Word × Nat :=
  match k with
  | 0 => (x + y, 0)
  | 1 => (if x.toInt ≤ y.toInt then x else y, 0)
  | 2 => (if y.toInt ≤ x.toInt then x else y, 0)
  | 3 => (if x.toNat ≤ y.toNat then x else y, 0)
  | 4 => (if y.toNat ≤ x.toNat then x else y, 0)
  | 5 => (x &&& y, 0)
  | 6 => (x ||| y, 0)
  | 7 => (x ^^^ y, 0)
  | 8 => let r := fp32.arith s.mode false (addNum s.mode (fp32.value x.toNat) (fp32.value y.toNat)); (BitVec.ofNat 32 r.1, r.2)
  | 9 => (BitVec.ofNat 32 (pickOf false x.toNat y.toNat), if isSnan x.toNat || isSnan y.toNat then 16 else 0)
  | _ => (BitVec.ofNat 32 (pickOf true x.toNat y.toNat), if isSnan x.toNat || isSnan y.toNat then 16 else 0)

/-- The identities of R161. -/
def unitOf (k : Nat) : Word :=
  match k with
  | 1 => 0x7FFFFFFF#32
  | 2 => 0x80000000#32
  | 3 => 0xFFFFFFFF#32
  | 5 => 0xFFFFFFFF#32
  | 8 => 0x80000000#32
  | 9 => 0x7F800000#32
  | 10 => 0xFF800000#32
  | _ => 0#32

/-- An operand of SCAN or REDL in a lane: of a float operation, a constant reads as that float (R45). -/
def combined (s : State) (k : Nat) (a : Reg) (i : Nat) : Word :=
  if 8 ≤ k then BitVec.ofNat 32 (s.here.readF s.cur.draw (inLane s i) fp32 a) else readsIn s i a

/-- One operation more, with its bits. -/
def andOp (s : State) (k : Nat) (r : Word × Nat) (x : Word × Nat) : Word × Nat :=
  let q := opOf s k r.1 x.1
  (q.1, orBits (orBits r.2 x.2) q.2)

/-- SCAN's value at a lane (R163): the members below it in order, and itself unless exclusive. -/
def scanOf (s : State) (k : Nat) (excl : Bool) (a : Reg) (lane : Nat) : Word × Nat :=
  ((members s).filter (fun i => if excl then decide (i < lane) else decide (i ≤ lane))).foldl
    (fun r i => andOp s k r (combined s k a i, 0)) (unitOf k, 0)

/-- REDL's tree over 2^n lanes from lane `lo` (R164). -/
def redlOf (s : State) (k : Nat) (a : Reg) : Nat → Nat → Word × Nat
  | 0, lo => (if (members s).contains lo then combined s k a lo else unitOf k, 0)
  | n + 1, lo => andOp s k (redlOf s k a n lo) (redlOf s k a n (lo + 2 ^ n))

/-- SCAN and REDL; the B immediate names the operation and whether a scan is exclusive. -/
def combineOf (s : State) : Instr → Option CrossWord
  | .scan _ d a b =>
      if b.toNat % 16 ≤ 10 ∧ b.toNat < 32 then
        let r (u : Nat) : Word × Nat := scanOf s (b.toNat % 16) (b.getLsbD 4) a (laneOf s u)
        some { dst := d, srcs := [a], val := fun u => (r u).1, bits := fun u => (r u).2 }
      else none
  | .redl _ d a b =>
      if b.toNat ≤ 10 then
        let r : Word × Nat := redlOf s b.toNat a (if lanesOf s = 16 then 4 else if lanesOf s = 32 then 5 else 6) 0
        some { dst := d, srcs := [a], val := fun _ => r.1, bits := fun _ => r.2 }
      else none
  | _ => none

/-- What a cross-lane word leaves: its value, its predicate and its FSTAT bits in the lanes that execute it. -/
def CrossEffect (s t : State) (x : CrossWord) : Prop :=
  ResultEffect s t .y x.dst x.val (fun u y z =>
    { z with early := y.early, fstat := y.fstat, pred := y.pred } = y ∧ z.fstat = y.fstat ||| BitVec.ofNat 32 (x.bits u) ∧
    z.pred = match x.pred with | some q => setPredBit y.pred q.1 (q.2 u) | none => y.pred)

/-! ## How a word's run moves on (R68, R78) -/

/-- The run's threads are on the core, each once. -/
structure Listed (s : State) : Prop where
  nodup : s.cur.run.Nodup
  listed : ∀ u ∈ s.cur.run, AMap.has s.here.threads u = true

/-- A word has issued: the core is `c` but for its threads, each thread that executes the word is changed by `f` once its
PC and YC have moved on, a thread that the guard excludes has its PC moved on, and nothing else changed. -/
structure Moved (s t : State) (c : Core) (f : Nat → Thread → Thread) : Prop where
  only : s.onlyHere t
  core : { (t.core s.cur.core) with threads := c.threads } = c
  threads : ∀ u, (t.core s.cur.core).th u =
    if u ∈ s.active then f u ((s.thread u).issued true) else if u ∈ s.cur.run then (s.thread u).issued false else s.thread u

/-- A word of one result that fills no last-result entry: `val` in register `d` of each thread that executes it, those
threads changed by `f` too, and nothing else changed. -/
structure Plain (s t : State) (d : Reg) (val : Nat → Word) (f : Nat → Thread → Thread) : Prop where
  only : s.onlyHere t
  core : s.here.onlyThreads (t.core s.cur.core)
  outside : ∀ u, u ∉ s.cur.run → (t.core s.cur.core).th u = s.thread u
  value : ∀ u ∈ s.active, ∀ q, s.here.cell u d = some q → (t.core s.cur.core).rowWord q.1 q.2 = val u
  words : ∀ r w, (∀ u ∈ s.active, s.here.cell u d ≠ some (r, w)) → (t.core s.cur.core).rowWord r w = s.here.rowWord r w
  active : ∀ u ∈ s.active, Thread.onlyNotes (f u ((s.thread u).issued true)) ((t.core s.cur.core).th u)
  excluded : ∀ u ∈ s.cur.run, u ∉ s.active → (t.core s.cur.core).th u = (s.thread u).issued false

/-! ## Branches (R49, R66, R79 to R81) -/

/-- A thread sent to a packet: the last-result entries are unwritten and the redirect takes a cycle more (R44, R66). -/
def sentTo (p : Int) (t : Thread) : Thread :=
  { t with pc := BitVec.ofNat 32 (12 * p.toNat), y0 := [], y1 := [], y2 := [], y3 := [], last := t.last + 1 }

/-- The same of the front end. -/
def frontTo (p : Int) (f : FrontEnd) : FrontEnd := { f with pc := BitVec.ofNat 32 (12 * p.toNat), last := f.last + 1 }

/-- The target of a direct branch: its own packet and the signed offset. -/
def offsetTo (s : State) (off : BitVec 19) : Int := (s.cur.pc.toNat / 12 : Nat) + off.toInt

/-- A target lies in the segment. -/
def inSegment (s : State) (p : Int) : Prop := 0 ≤ p ∧ p < s.segLen

/-- A branch: what it reads, where it is taken, its target, and whether the target is the same in every lane. -/
structure Branch where
  srcs : List Reg
  taken : Nat → Bool
  target : Nat → Int
  direct : Bool

/-- The branches in warp code. -/
def branchOf (s : State) : Instr → Option Branch
  | .bra _ off => some ⟨[], fun _ => true, fun _ => offsetTo s off, true⟩
  | .brc _ p n off => some ⟨[], fun u => (s.thread u).predAt s.cur.draw u p.toNat != n, fun _ => offsetTo s off, true⟩
  | .brx _ a => some ⟨[a], fun _ => true, fun u => ((s.here.readReg s.cur.draw u a).toNat : Int), false⟩
  | .ret _ a => some ⟨[a], fun _ => true, fun u => ((s.here.readReg s.cur.draw u a).toNat : Int), false⟩
  | _ => none

/-- The branches in front-end code. -/
def frontBranchOf (s : State) (f : FrontEnd) : Instr → Option Branch
  | .bra _ off => some ⟨[], fun _ => true, fun _ => offsetTo s off, true⟩
  | .brc _ p n off => some ⟨[], fun _ => f.predAt s.cur.draw p.toNat != n, fun _ => offsetTo s off, true⟩
  | .brx _ a => some ⟨[a], fun _ => true, fun _ => ((f.read s.cur.draw a).toNat : Int), false⟩
  | .ret _ a => some ⟨[a], fun _ => true, fun _ => ((f.read s.cur.draw a).toNat : Int), false⟩
  | _ => none

/-! ## Clauses, yields and ends of threads (R39 to R43, R77 to R84) -/

/-- A thread's long-latency work and its helpers have ended (R82, R83). -/
def atRest (s : State) (u : Nat) : Prop := (∀ n ∈ (s.thread u).flags, n = 0) ∧ s.here.teamDone u = true

/-- YIELD's effect on a thread (R82): the new deadline, YC 0, the last-result entries unwritten, and a pending soft request
halts it. -/
def yielded (s : State) (deadline : Nat) (t : Thread) : Thread :=
  { t with
    dl := if deadline = 0 then s.deadline s.cur.core else deadline, yc := 0, lastYield := deadline,
    y0 := [], y1 := [], y2 := [], y3 := [],
    hold := if s.soft s.cur.core then .halted else t.hold, early := if s.soft s.cur.core then [] else t.early }

/-- A thread after HDR has opened its clause. -/
def opened (w : BitVec 12) (a b : BitVec 4) (t : Thread) : Thread :=
  { t with pc := t.pc + 4#32, setA := a, setB := b, wait := w, y0 := [], y1 := [], y2 := [], y3 := [] }

/-- No thread of the run is a helper. -/
def noHelpers (s : State) : Prop := ∀ u ∈ s.cur.run, (s.thread u).helper = none

/-- Whether a thread is a member of a group of a core. -/
def isMember (c : Core) (g u : Nat) : Bool := match AMap.look c.groups g with | some x => AMap.has x.members u | none => false

/-- Every BUFSET of the core is 4 cycles old (R193). -/
def bufsStand (s : State) : Prop := ∀ e ∈ s.here.bufOld, e.2.2 + 4 ≤ s.here.clock

/-! ## Groups (R104 to R113) -/

/-- The arrival mark of a member. -/
def markOf (c : Core) (g u : Nat) : Option Word := match AMap.look c.groups g with | some x => AMap.lookD x.members u none | none => none

/-- The phase count of a group. -/
def phaseCount (c : Core) (g : Nat) : Word := match AMap.look c.groups g with | some x => x.phase | none => 0#32

/-- Whether a thread has stores that are not registered or loads that are not complete (R107, R209). -/
def unreleased (c : Core) (u : Nat) : Prop := ∃ r ∈ c.reqs, r.ofThread u = true ∧ (r.unregistered = true ∨ r.unread = true)

/-- The group table as it stands in a run: each number once, members once, no group empty, and no phase complete already. -/
structure GroupsStand (c : Core) : Prop where
  once : (AMap.keys c.groups).Nodup
  members : ∀ p ∈ c.groups, (AMap.keys p.2.members).Nodup ∧ p.2.members ≠ []
  pending : ∀ p ∈ c.groups, (∃ m ∈ p.2.members, m.2 ≠ some p.2.phase) ∨ ∃ l ∈ p.2.late, c.awaits l.2 = true

/-- The group that a thread's A names, and whether the thread is a member of it. -/
def groupOf (s : State) (a : Reg) (u : Nat) : Nat := (s.here.readReg s.cur.draw u a).toNat
def inGroup (s : State) (a : Reg) : Prop := ∀ u ∈ s.active, isMember s.here (groupOf s a u) u = true

/-- JOIN's group for a thread that asks for a new one: the lowest free number (R109). -/
def newGroup (s : State) : Option Nat := (List.range 64).find? (fun g => !(AMap.has s.here.groups g))

/-- The threads of the run before `u` that asked for a new group. -/
def askedBefore (s : State) (a : Reg) (u : Nat) : Bool :=
  (s.active.takeWhile (fun v => !(v == u))).any (fun v => s.here.readReg s.cur.draw v a == 0xFFFFFFFF#32)

/-- JOIN's result (R109). -/
def joined (s : State) (a : Reg) (u : Nat) : Word :=
  let g := s.here.readReg s.cur.draw u a
  if g = 0xFFFFFFFF#32 then (match newGroup s with | some n => BitVec.ofNat 32 n | none => 0xFFFFFFFF#32)
  else if g.toNat < 64 ∧ (AMap.has s.here.groups g.toNat = true ∨ (newGroup s = some g.toNat ∧ askedBefore s a u = true)) then g
  else 0xFFFFFFFE#32

/-- The threads that JOIN puts into a group. -/
def enters (s : State) (a : Reg) (g u : Nat) : Bool := s.active.contains u && decide (g < 64) && joined s a u == BitVec.ofNat 32 g

/-- An arrival of the word in hand completes its group's phase (R106, R107): every other member bears the mark or arrives
too, and nobody's release is outstanding. -/
def fills (s : State) (a : Reg) (g : Nat) : Prop :=
  (∀ v, isMember s.here g v = true → markOf s.here g v = some (phaseCount s.here g) ∨
    (v ∈ s.active ∧ groupOf s a v = g ∧ ¬ unreleased s.here v)) ∧
  ∀ x, AMap.look s.here.groups g = some x → ∀ l ∈ x.late, s.here.awaits l.2 = false

/-- A thread that waits in GBAR for a phase that the word in hand completes goes on after its word; every other is as it was (R106,
R111). -/
structure Woken (s : State) (a : Reg) (x y : Thread) : Prop where
  goes : ∀ g p next back, x.hold = .gbar g p next back → (∃ u ∈ s.active, groupOf s a u = g) → fills s a g →
    p = phaseCount s.here g → y = { x with hold := .run, pc := next }
  stays : (∀ g p next back, x.hold = .gbar g p next back →
    ¬ ((∃ u ∈ s.active, groupOf s a u = g) ∧ fills s a g ∧ p = phaseCount s.here g)) → y = x

/-- The phase count of each group after the word's arrivals: one more where they complete its phase (R106). -/
def phasesMove (s t : State) (a : Reg) : Prop :=
  (∀ u ∈ s.active, fills s a (groupOf s a u) →
    phaseCount (t.core s.cur.core) (groupOf s a u) = phaseCount s.here (groupOf s a u) + 1#32) ∧
  ∀ g, (∀ u ∈ s.active, groupOf s a u = g → ¬ fills s a g) → phaseCount (t.core s.cur.core) g = phaseCount s.here g

/-- The PC at which a wait in the word in hand is recorded by a forced halt, where the word is the only one of its group (R74, log
88). -/
def comesBack (s : State) : Option Word :=
  if s.cur.glen = 1 ∨ (s.cur.glen = 2 ∧ s.cur.ext.isSome) then some s.cur.gpc else none

/-! ## Blocks of registers -/

/-- Register `k` of a block. -/
def nth (d : Reg) (k : Nat) : Reg := d + BitVec.ofNat 7 k

/-- A block of `n` registers is a destination in every thread that executes the word. -/
structure WritesBlock (s : State) (d : Reg) (n delay : Nat) : Prop where
  block : ∀ u ∈ s.active, s.here.blockOk u d n = true
  each : ∀ k < n, s.writes (nth d k) delay

/-- A word that writes a block of registers and fills no last-result entry: nothing else changed. -/
structure Blocks (s t : State) (d : Reg) (n : Nat) (val : Nat → Nat → Word) (f : Thread → Thread := fun y => y) : Prop where
  only : s.onlyHere t
  core : s.here.onlyThreads (t.core s.cur.core)
  outside : ∀ u, u ∉ s.cur.run → (t.core s.cur.core).th u = s.thread u
  value : ∀ u ∈ s.active, ∀ k < n, ∀ q, s.here.cell u (nth d k) = some q → (t.core s.cur.core).rowWord q.1 q.2 = val u k
  words : ∀ r w, (∀ u ∈ s.active, ∀ k < n, s.here.cell u (nth d k) ≠ some (r, w)) →
    (t.core s.cur.core).rowWord r w = s.here.rowWord r w
  active : ∀ u ∈ s.active, Thread.onlyNotes (f ((s.thread u).issued true)) ((t.core s.cur.core).th u)
  excluded : ∀ u ∈ s.cur.run, u ∉ s.active → (t.core s.cur.core).th u = (s.thread u).issued false

/-- A state whose core in hand is replaced. -/
def withHere (s : State) (c : Core) : State := { s with cores := AMap.put s.cores s.cur.core c }

/-! ## Memory words (R170 to R175, R181, R195, R196, R218 to R222) -/

/-- What a memory word asks of each lane: what it does, the spaces it may name, its buffer, index, width and flag select,
the registers it writes, its data, whether it is a write and whether a release. -/
structure Asked where
  kind : ReqKind
  spaces : List Nat
  buf : BitVec 5
  idx : Reg
  width : Nat
  flag : Bool
  dst : Reg
  ndst : Nat
  data : Nat → List Byte
  more : Nat → List Byte
  write : Bool
  release : Bool
  readable : Nat → Bool

/-- Bytes of an SZ, and registers (R195). -/
def widthOf (sz : BitVec 3) : Nat := match sz.toNat with | 0 | 1 => 1 | 2 | 3 => 2 | 4 => 4 | 5 => 8 | _ => 16
def regsOf (sz : BitVec 3) : Nat := match sz.toNat with | 5 => 2 | 6 => 4 | _ => 1

/-- A load and a store. -/
def loadOf (s : State) (space : Nat) (d : Reg) (b : BitVec 5) (x : Reg) (f : Bool) (sz : BitVec 3) : Asked :=
  ⟨.load sz, [space], b, x, widthOf sz, f, d, regsOf sz, fun _ => [], fun _ => [], false, false,
    fun u => d == 108#7 || s.here.blockOk u d (regsOf sz)⟩
def storeOf (s : State) (space : Nat) (d : Reg) (b : BitVec 5) (x : Reg) (f : Bool) (sz : BitVec 3) : Asked :=
  ⟨.store, [space], b, x, widthOf sz, f, 108#7, 0, fun u => s.here.dataBytes s.cur.draw u d (regsOf sz) (widthOf sz), fun _ => [],
    true, false,
    fun u => d == 108#7 || (decide (112 ≤ d.toNat) && decide (widthOf sz ≤ 4)) || s.here.blockOk u d (regsOf sz)⟩

/-- The operations that SEL names (R219). -/
def opNamed (sel : BitVec 4) : AtomOp :=
  match sel.toNat with
  | 0 => .add | 1 => .min | 2 => .max | 3 => .umin | 4 => .umax | 5 => .and | 6 => .or | 7 => .xor
  | 8 => .fadd | 9 => .fmin | 10 => .fmax | _ => .xchg

/-- An atomic; the float operations are 32 bits wide, and their constants are floats. -/
def atomicOf (s : State) (spaces : List Nat) (returns acq rel : Bool) (d : Reg) (b : BitVec 5) (x : Reg) (f : Bool) (sz : BitVec 3) :
    Option Asked :=
  let float := decide (8 ≤ s.ext.sel.toNat) && decide (s.ext.sel.toNat ≤ 10)
  if float ∧ sz = 5#3 then none
  else some ⟨.atomic (opNamed s.ext.sel) (sz == 5#3) returns acq, spaces, b, x, widthOf sz, f, d, if returns then regsOf sz else 0,
    fun u => if float then leBytes (s.here.readF s.cur.draw u fp32 d) 4 else s.here.dataBytes s.cur.draw u d (regsOf sz) (widthOf sz),
    fun _ => [], true, rel,
    fun u => d == 108#7 || (!returns && decide (112 ≤ d.toNat) && decide (regsOf sz = 1)) || s.here.blockOk u d (regsOf sz)⟩

/-- The memory words. -/
def askedOf (s : State) : Instr → Option Asked
  | .ld _ d b x f sz => some (loadOf s 0 d b x f sz)
  | .lds _ d b x f sz => some (loadOf s 1 d b x f sz)
  | .ldw _ d b x f sz => some (loadOf s 2 d b x f sz)
  | .st _ d b x f sz => some (storeOf s 0 d b x f sz)
  | .sts _ d b x f sz => some (storeOf s 1 d b x f sz)
  | .stw _ d b x f sz => some (storeOf s 2 d b x f sz)
  | .atom _ d b x f sz => atomicOf s [0] true false false d b x f sz
  | .atomAcq _ d b x f sz => atomicOf s [0] true true false d b x f sz
  | .atomRel _ d b x f sz => atomicOf s [0] true false true d b x f sz
  | .atomnr _ d b x f sz => atomicOf s [0] false false false d b x f sz
  | .satom _ d b x f sz => atomicOf s [1, 2] true false false d b x f sz
  | .cas _ d b x f sz =>
      some ⟨.atomic .cas (sz == 5#3) true (s.ext.sel.getLsbD 0), [0], b, x, widthOf sz, f, d, regsOf sz,
        fun u => s.here.dataBytes s.cur.draw u d (regsOf sz) (widthOf sz),
        fun u => s.here.dataBytes s.cur.draw u (nth d (regsOf sz)) (regsOf sz) (widthOf sz), true, s.ext.sel.getLsbD 1,
        fun u => s.here.blockOk u d (2 * regsOf sz)⟩
  | _ => none

/-- The record that a word reads, and the access of a lane (R173): the element that its index names, with C3's offset. -/
def recordOf (s : State) (m : Asked) : BufRec := s.here.buf s.cur.draw m.buf.toNat
def accessOf (s : State) (m : Asked) (u : Nat) : Access :=
  s.form s.cur.core (s.vfOf s.cur.core) (recordOf s m)
    ((s.here.readReg s.cur.draw u m.idx).toNat + if s.ext.c3 = 0#7 then 0 else (s.here.readReg s.cur.draw u s.ext.c3).toNat)
    m.width m.write

/-- The flag that a thread's word of this select uses, where there is one (R41). -/
def flagUsed (s : State) (u : Nat) (f : Bool) : Option Nat :=
  let n := (if f then (s.thread u).setB else (s.thread u).setA).toNat
  if n < 12 then some n else none

/-- Every thread that executes the word has room in the flag that it raises (R42). -/
def flagsRoom (s : State) (f : Bool) : Prop := ∀ u ∈ s.active, ∀ n, flagUsed s u f = some n → getAt (s.thread u).flags n 0 < 15

/-- Flags with the one that a word uses raised by one. -/
def raised (s : State) (u : Nat) (f : Bool) : List Nat :=
  match flagUsed s u f with
  | some n => setAt (s.thread u).flags n (getAt (s.thread u).flags n 0 + 1)
  | none => (s.thread u).flags

/-- A memory word may issue (R42, R173, R176, R195): its registers are readable and its destination its own, its record is
of a space it names, pipe M accepts it, the flag has room, no lane faults with its TRAP bit set, and no peer is still to start. -/
structure MayAccess (s : State) (m : Asked) : Prop where
  registers : ∀ u ∈ s.active, m.readable u = true
  index : s.reads (if s.ext.c3 = 0#7 then [m.idx] else [m.idx, s.ext.c3])
  space : bSpace (recordOf s m) ∈ m.spaces
  accepted : bSpace (recordOf s m) = 0 → ∀ r ∈ s.here.reqs, r.stage ≠ .stuck
  flag : flagsRoom s m.flag
  quiet : ∀ u ∈ s.active, ∀ n, (accessOf s m u).fault = some n → (s.ftrapAt s.cur.core).getLsbD (n - 1) = false
  peers : ∀ u ∈ s.active, (accessOf s m u).waits = false
  listed : Listed s
  owns : ∀ k < m.ndst, s.here.Owns s.cur.run (nth m.dst k)
  last : ∀ u ∈ s.active, ∀ k < m.ndst, ∀ q, s.here.cell u (nth m.dst k) = some q → s.here.flying q.1 q.2 s.here.clock = false
  alone : ∀ u ∈ s.active, ∀ k < m.ndst, ∀ q, s.here.cell u (nth m.dst k) = some q →
    ∀ p ∈ s.here.threads, p.1 ≠ u → q.1 ∉ p.2.map
  numbered : ∀ p ∈ s.here.pend, p.1 < s.here.nextPend

/-- The request that carries a lane's access (R175): the word's kind and width, the line or scratchpad unit, the lane's
element, address and data. -/
def Carries (s : State) (m : Asked) (u : Nat) (r : Req) : Prop :=
  let a := accessOf s m u
  r.kind = m.kind ∧ r.width = m.width ∧ r.space = bSpace (recordOf s m) ∧ r.pc = s.cur.pc ∧
  (r.space = 0 → r.stage = .walk ∧ r.key = s.keyOf (s.vfOf s.cur.core) (recordOf s m) a.index a.off a.addr) ∧
  (m.release = true → ∀ v ∈ s.active, ∀ n ∈ s.here.pendingOf v, n ∈ r.after) ∧
  (r.space ≠ 0 → r.stage = .ready ∧ r.target = (scratchPlace s.cur.core (recordOf s m) a.addr).1) ∧
  ∃ l ∈ r.lanes, l.uid = u ∧ l.lane = (s.thread u).lane ∧ l.tid = (s.thread u).tid ∧ l.index = a.index ∧ l.addr = a.addr ∧
    l.data = m.data u ∧ l.data2 = m.more u ∧ l.faulted = false

/-! ## Barrier objects (R213, R214) -/

/-- check(b), expect(b, m) and arrive(b) with the phase returned, on the fields. -/
def checked (b : Bar) : Bar :=
  if b.count ≠ 0 ∧ b.left = 0 ∧ b.pending = 0 then
    { b with phase := b.phase + 1#32, left := b.count - min b.early b.count, early := b.early - min b.early b.count }
  else b
def expected (m : Nat) (b : Bar) : Bar := checked { b with pending := (b.pending + m) % 2 ^ 48 }
def arrived (b : Bar) : Bar :=
  if b.count = 0 then b
  else if b.left = 0 then { b with early := min (b.early + 1) 65535 }
  else checked { b with left := b.left - 1 }
def arrivalPhase (b : Bar) : Word :=
  if b.count ≠ 0 ∧ b.left = 0 then b.phase + 1#32 + BitVec.ofNat 32 (b.early / b.count) else b.phase
def initiated (count : Nat) (b : Bar) : Bar := { b with count := count, left := count, early := 0, pending := 0 }

/-- One thread after another acts on the barrier it names; `us` are the threads so far. -/
def barsAfter (s : State) (a : Reg) (f : Nat → Bar → Bar) (us : List Nat) (n : Nat) : Bar :=
  us.foldl (fun b u => if (s.here.readReg s.cur.draw u a).toNat = n then f u b else b) (s.here.bar n)

/-- The barrier that a thread's A names, and its front end's. -/
def barOf (s : State) (a : Reg) (u : Nat) : Nat := (s.here.readReg s.cur.draw u a).toNat
def frontBar (s : State) (f : FrontEnd) (a : Reg) : Nat := (f.read s.cur.draw a).toNat % 2 ^ 32

/-- Whether a number names a barrier of the core's scratchpad claim (R217). -/
def isBarrier (s : State) (n : Nat) : Prop := 16 * n + 15 < s.claimBytes s.cur.core

/-- A phase has completed where its distance from the count lies in 1 to 2^31 (R227). -/
def passed (phase q : Word) : Bool := decide (1 ≤ (phase.toNat + 2 ^ 32 - q.toNat) % 2 ^ 32) && decide ((phase.toNat + 2 ^ 32 - q.toNat) % 2 ^ 32 ≤ 2 ^ 31)

/-- The core after the barriers' bytes alone changed, and their place among those to be checked again. -/
def onlyBars (c d : Core) (named : Nat → Prop) : Prop :=
  ∀ a, (∀ n, named n → a < 16 * n ∨ 16 * n + 16 ≤ a) → d.scratch.read a = c.scratch.read a

/-! ## Fault service and migration words (R201, R202) -/

/-- The run is of the cluster's handler role: its launch holds CLHANDLER and its threads are of role 0 (R179, R354). -/
def isHandler (s : State) : Prop :=
  ∀ u ∈ s.cur.run, ∃ h l, (s.cluster (clusterOf s.cur.core)).handler = some h ∧ s.here.launch = some l ∧ h.2 = l ∧ (s.thread u).role = 0

/-- The run is at the level of system software (R353). -/
def atLevelOne (s : State) : Prop := ∀ u ∈ s.cur.run, (s.thread u).pl = true

/-- Words 0 to 7 of a translation request. -/
def requestWords (s : State) (e : Nat) (x : XEntry) : List Word :=
  [BitVec.ofNat 32 (e + 256 * x.gen.toNat), BitVec.ofNat 32 (x.vf + 256 * x.write.toNat + 512 * x.protect.toNat),
   BitVec.ofNat 32 (x.page % 2 ^ 16 * 2 ^ 16), BitVec.ofNat 32 (x.page / 2 ^ 16),
   BitVec.ofNat 32 (min 65535 (max 1 (s.attached (clusterOf s.cur.core) e))), 0#32, 0#32, 0#32]

/-- The lowest lane in which a word executes, and what it reads there; C3 without an EXT reads 0 (R202). -/
def leadReads (s : State) (r : Reg) : Nat := (s.here.readReg s.cur.draw (s.active.headD 0) r).toNat
def leadC3 (s : State) : Nat := if s.ext.c3 = 0#7 then 0 else leadReads s s.ext.c3

/-- The page that A and x name, and the frame that B and x name. -/
def pageNamed (s : State) (a : Reg) : Nat := leadReads s a + leadC3 s % 16 * 2 ^ 32
def frameNamed (s : State) (b : Reg) : Nat := (leadReads s b + leadC3 s / 16 % 16 * 2 ^ 32) * 65536

/-- The migration of a page of a VF, where one is open. -/
def moving (s : State) (page : Nat) : Option Migration :=
  (s.dies.flatMap (fun d => d.2.mig)).find? (fun m => m.vf == s.vfOf s.cur.core && m.page == page)

/-- A frame may take a page: aligned, of its tier, and the partition's own. -/
def frameGood (s : State) (pa tier : Nat) : Prop :=
  pa % 65536 = 0 ∧ tier < 2 ∧ (tier = 0 ↔ pa < 2 ^ 48) ∧ s.vfOwns (s.vfOf s.cur.core) pa = true

/-- MIGCTL.start's result and the migration it opens. -/
inductive Start (s : State) (page pa tier : Nat) : Word → Option (Nat × Migration) → Prop where
  | already (m : Migration) : moving s page = some m → Start s page pa tier 1#32 none
  | unmapped : moving s page = none → s.leafOf (s.vfOf s.cur.core) (page * 65536) = none → Start s page pa tier 2#32 none
  | wrong (l : Leaf) : moving s page = none → s.leafOf (s.vfOf s.cur.core) (page * 65536) = some l →
      (l.size ≠ 65536 ∨ ¬ frameGood s pa tier) → Start s page pa tier 2#32 none
  | full (l : Leaf) : moving s page = none → s.leafOf (s.vfOf s.cur.core) (page * 65536) = some l → l.size = 65536 →
      frameGood s pa tier → 32 ≤ (s.die (dieOfFrame l.pa)).mig.length → Start s page pa tier 3#32 none
  | started (l : Leaf) : moving s page = none → s.leafOf (s.vfOf s.cur.core) (page * 65536) = some l → l.size = 65536 →
      frameGood s pa tier → (s.die (dieOfFrame l.pa)).mig.length < 32 →
      Start s page pa tier 0#32 (some (dieOfFrame l.pa, ⟨s.vfOf s.cur.core, page, l.pa, pa, tier, 0, l.entry⟩))

/-- The cluster's table as it stands in a run: an entry's generation is the last used, and no grammar word waits. -/
structure Serviceable (s : State) : Prop where
  generations : ∀ e x, AMap.look (s.cluster (clusterOf s.cur.core)).xtab e = some x →
    AMap.lookD (s.cluster (clusterOf s.cur.core)).xgen e 0#8 = x.gen
  grammar : ∀ i < 4, ∀ p ∈ (s.core (4 * clusterOf s.cur.core + i)).threads, ∀ w e pl, p.2.hold ≠ .grammar w e pl

/-- Whether an entry of the cluster's table is open under a generation. -/
def entryOpen (s : State) (n : Nat) : Prop :=
  ∃ x, AMap.look (s.cluster (clusterOf s.cur.core)).xtab (n % 256) = some x ∧ x.gen = BitVec.ofNat 8 (n / 256)

/-! ## Engine words (R232 to R244) -/

/-- The results and flags that a word opens in its lanes, in order: the lane's thread, the rows of its `n` destinations, and
the flag that it raises (R41). -/
def tickets (s : State) (f : Bool) (d : Reg) (n : Nat) : AMap Pend :=
  s.active.zipIdx.map (fun p => (s.here.nextPend + p.2,
    ⟨p.1, d.toNat, (List.range n).map (fun k => (s.here.cell p.1 (nth d k)).toList), flagUsed s p.1 f, [.thread p.1], s.here.clock⟩))

/-- The numbers of those. -/
def ticketIds (s : State) : List Nat := (List.range s.active.length).map (fun k => s.here.nextPend + k)

/-- A word has been posted: each thread that executes it has its flag raised, its results are open, and nothing else
changed on the core but what `c` says. -/
def Posted (s t : State) (c : Core) (f : Bool) (d : Reg) (n : Nat) : Prop :=
  Moved s t { c with pend := s.here.pend ++ tickets s f d n, nextPend := s.here.nextPend + s.active.length }
    (fun u y => { y with flags := raised s u f })

/-- An engine word: its flag select and slot, the register read, the block read, the destination, its operation where its
operands allow one, and whether it follows the thread's stores. -/
structure Engine where
  flag : Bool
  slot : Nat
  src : List Reg
  block : List Reg
  dst : Option Reg
  op : Option EngineOp
  follows : Bool

/-- A slot of the cluster belongs to the instance of the core in hand (R230). -/
def slotInside (s : State) (slot : Nat) : Bool :=
  let owner := s.core (4 * clusterOf s.cur.core + slot / 64)
  s.here.launch.isSome && s.here.launch == owner.launch && s.here.inst == owner.inst

/-- The command of a descriptor (R237): bit 15 and bit 30 clear, and for a copy bits 14 to 10; both records of one element
size; for a gather or scatter a row length and an index record of 4-byte elements that is no window; the barrier in the
claim of the slot's core. -/
def commandOf (s : State) (kind slot : Nat) (buf : Nat → BufRec) (d : Nat) : Option EngineOp :=
  let src := buf (d % 32)
  let dst := buf (d / 2 ^ 5 % 32)
  let idx := buf (d / 2 ^ 10 % 32)
  if d / 2 ^ 15 % 2 = 0 ∧ d / 2 ^ 30 % 2 = 0 ∧ (kind = 1 → d / 2 ^ 10 % 32 = 0) ∧ bEsize src = bEsize dst ∧
      (kind ≠ 1 → d / 2 ^ 64 % 2 ^ 16 ≠ 0 ∧ bEsize idx = 2 ∧ bSpace idx ≠ 2) ∧
      (d / 2 ^ 31 % 2 = 0 → 16 * (d / 2 ^ 16 % 2 ^ 14) + 15 < s.claimBytes (4 * clusterOf s.cur.core + slot / 64)) then
    some (.load kind ⟨BitVec.ofNat 128 d, src, dst, idx⟩)
  else none

/-- The engine words, from the values of A and of the descriptor at A. -/
def engineOf (s : State) (val : Reg → Nat) (buf : Nat → BufRec) (desc : Reg → Nat) : Instr → Option Engine
  | .ndef _ f n a => some ⟨f, n.toNat, [a], [], none, if val a < 2 then some (.ndef (val a == 1)) else none, false⟩
  | .nedge _ f n a =>
      some ⟨f, n.toNat, [a], [], none,
        if (val a < 256 ∨ (2 ^ 31 ≤ val a ∧ val a < 2 ^ 31 + 256)) ∧ slotInside s (val a % 256) = true then
          some (.nedge (val a % 256) (decide (2 ^ 31 ≤ val a))) else none, false⟩
  | .nfire _ f n => some ⟨f, n.toNat, [], [], none, some .nfire, true⟩
  | .cpy _ f n a => some ⟨f, n.toNat, [], [a], none, commandOf s 1 n.toNat buf (desc a), false⟩
  | .gath _ f n a => some ⟨f, n.toNat, [], [a], none, commandOf s 2 n.toNat buf (desc a), false⟩
  | .scat _ f n a => some ⟨f, n.toNat, [], [a], none, commandOf s 3 n.toNat buf (desc a), false⟩
  | .nwait _ f n a => some ⟨f, n.toNat, [], [], some a, some (.nwait a.toNat), false⟩
  | _ => none

/-- In warp code the operands are those of the lowest active lane, the descriptor in four registers; in front-end code
the descriptor stands in two. -/
def warpEngine (s : State) (i : Instr) : Option Engine :=
  engineOf s (leadReads s) (s.here.buf s.cur.draw)
    (fun a => leadReads s a + 2 ^ 32 * leadReads s (nth a 1) + 2 ^ 64 * leadReads s (nth a 2) + 2 ^ 96 * leadReads s (nth a 3)) i
def frontEngine (s : State) (f : FrontEnd) (i : Instr) : Option Engine :=
  engineOf s (fun a => (f.read s.cur.draw a).toNat) (fun n => AMap.lookD s.here.bufs n 0#128)
    (fun a => (f.read s.cur.draw a).toNat + 2 ^ 64 * (f.read s.cur.draw (nth a 1)).toNat) i

/-- An engine word may be issued as far as its registers, its slot and its flag go. -/
structure MayPost (s : State) (x : Engine) : Prop where
  reads : s.reads x.src
  block : ∀ a ∈ x.block, ∀ u ∈ s.active, s.here.blockOk u a 4 = true
  writes : ∀ a, x.dst = some a → dstNamed a = true ∧ (∀ u ∈ s.active, s.here.dstOk u a = true) ∧ s.here.Owns s.cur.run a
  inside : slotInside s x.slot = true
  flag : flagsRoom s x.flag
  listed : Listed s
  helpers : noHelpers s

/-- The clusters after a word has been queued at the unit of the core's own cluster. -/
def queued (s t : State) (w : Option EngineWord) : Prop :=
  ∀ k, t.cluster k = if k = clusterOf s.cur.core then { (s.cluster k) with jwords := (s.cluster k).jwords ++ w.toList } else s.cluster k

/-- The flag that a front-end word raises, its flags after it, and the result that it opens. -/
def frontFlag (f : FrontEnd) (sel : Bool) : Option Nat :=
  let n := (if sel then f.setB else f.setA).toNat
  if n < 12 then some n else none
def frontRaised (f : FrontEnd) (sel : Bool) : FrontEnd :=
  { f with pc := f.pc + 4#32
           flags := match frontFlag f sel with | some n => setAt f.flags n (getAt f.flags n 0 + 1) | none => f.flags }
def frontTicket (s : State) (f : FrontEnd) (sel : Bool) (d : Reg) : Nat × Pend :=
  (s.here.nextPend, ⟨feUid, d.toNat, [], frontFlag f sel, [.frontEnd], s.here.clock⟩)
def frontRoom (f : FrontEnd) (sel : Bool) : Prop := ∀ n, frontFlag f sel = some n → getAt f.flags n 0 < 15

/-! ## Matrix words (R245 to R267) -/

/-- Every lane of the warp is live and in the run, which is the head run (R65, R256). -/
structure WholeWarp (s : State) : Prop where
  placed : ∀ u ∈ s.cur.run, u = inLane s (laneOf s u) ∧ laneOf s u < lanesOf s ∧ (s.thread u).helper = none
  head : s.cur.head = true
  all : ∀ i < lanesOf s, inLane s i ∈ s.cur.run
  listed : Listed s

/-- What the lowest lane of the run reads. -/
def lowReads (s : State) (r : Reg) : Nat := (s.here.readReg s.cur.draw (s.cur.run.headD 0) r).toNat

/-- A descriptor's record, first element, pitch and barrier (R258). -/
def descRec (s : State) (a : Reg) : BufRec := s.here.buf s.cur.draw (lowReads s (nth a 1) / 2 ^ 16 % 32)
def descIdx (s : State) (a : Reg) : Nat := lowReads s a
def descPitch (s : State) (a : Reg) : Nat := lowReads s (nth a 1) % 2 ^ 16
def descBar (s : State) (a : Reg) : Nat := lowReads s (nth a 2)

/-- A descriptor with no reserved bit and a pitch, in `n` registers of a block. -/
structure GoodDesc (s : State) (a : Reg) (n : Nat) : Prop where
  block : ∀ u ∈ s.active, s.here.blockOk u a n = true
  high : lowReads s (nth a 1) < 2 ^ 21
  pitch : 0 < descPitch s a
  bar : descBar s a < 2 ^ 14

/-- Source row `j` of a latch load passes its checks: `len` bytes at a multiple of `align`. -/
def rowGood (s : State) (a : Reg) (len align j : Nat) : Prop :=
  s.rowCheck s.cur.core (descRec s a) ((descIdx s a + j * descPitch s a) * 2 ^ bEsize (descRec s a)) len align = (none, false)

/-- A latch load's descriptor. -/
structure GoodLoad (s : State) (a : Reg) (n : Nat) : Prop extends GoodDesc s a n where
  nobar : descBar s a = 0
  space : bSpace (descRec s a) ≠ 0

/-- The rows that the lanes give (R261): lanes below 32, the upper half of the latch with HALF on a warp of 16. -/
def rowsGiven (s : State) (half : Bool) (r : Reg) : List (Nat × Word) :=
  (s.active.filter (fun u => decide (laneOf s u < 32))).map (fun u =>
    ((if lanesOf s = 16 ∧ half = true then 16 else 0) + laneOf s u, reads s u r))

/-- The warp holds an accumulator index (R246). -/
def holds (s : State) (acc : BitVec 3) : Bool := (s.cluster (clusterOf s.cur.core)).claim acc.toNat == ⟨1, s.cur.core, s.cur.warp⟩

/-- A matrix word that is posted: its flag select, the operation with what it read at issue, whether it follows the warp's
stores, whether it is counted until its bytes are written, what it needs, and the steps that each thread's generator takes. -/
structure Matrix where
  flag : Bool
  op : MatrixOp
  load : Bool
  store : Bool
  needs : Prop
  steps : Nat → Nat

/-- Bytes of an output element (R266). -/
def outWidth (o : BitVec 4) : Nat := match o.toNat with | 0 | 5 => 4 | 1 | 2 => 2 | _ => 1

/-- Rows and columns of an output, and the sub-array and cell of an output element (R247). -/
def outRows (mode : BitVec 2) : Nat := match mode.toNat with | 0 => 32 | 1 => 64 | _ => 128
def outCols (mode : BitVec 2) : Nat := match mode.toNat with | 0 => 128 | 1 => 64 | _ => 32

/-- The posted matrix words. -/
def matrixOf (s : State) : Instr → Option Matrix
  | .mldb _ f a k => some ⟨f, .mldb k (descRec s a) (descIdx s a) (descPitch s a), true, false,
      GoodLoad s a 3 ∧ ∀ j < 32, rowGood s a 512 16 j, fun _ => 0⟩
  | .mgath _ f a h k => some ⟨f, .mgath k (descRec s a) (descIdx s a) (descPitch s a)
        ((rowsGiven s h (nth a 3)).map (fun p => (p.1, p.2.toNat))), true, false,
      GoodLoad s a 4 ∧ (h = true → lanesOf s = 16) ∧
        ∀ p ∈ rowsGiven s h (nth a 3), p.2 ≠ 0xFFFFFFFF#32 → rowGood s a 512 16 p.2.toNat, fun _ => 0⟩
  | .mtrn _ f a e k => some ⟨f, .mtrn k e (descRec s a) (descIdx s a) (descPitch s a), true, false,
      GoodLoad s a 3 ∧ bEsize (descRec s a) = (if e then 1 else 0) ∧
        ∀ j < (if e then 256 else 512), rowGood s a (if e then 64 else 32) (if e then 2 else 1) j, fun _ => 0⟩
  | .mscale _ g f a e h k => some ⟨f, .mscale e k g.toNat s.ext.sel.toNat (rowsGiven s h a), false, false,
      s.reads [a] ∧ (h = true → lanesOf s = 16), fun _ => 0⟩
  | .mzero _ acc f k => some { flag := f, op := .mzero k acc.toNat, load := false, store := false, needs := holds s acc = true, steps := fun _ => 0 }
  | .mma _ acc mode f z t => some ⟨f, .mma acc.toNat mode.toNat z t.toNat, false, false,
      holds s acc = true ∧ (t = 10#4 → s.devcap.getLsbD (4 + dieOf s.cur.core) = true) ∧
        (s.here.mwords.filter (fun w => w.isMma)).length < 4, fun _ => 0⟩
  | .mst _ acc mode f a l t => some
      { flag := f, load := false, store := true,
        op := .mst acc.toNat mode.toNat l t.toNat (descRec s a) (descIdx s a) (descPitch s a) (descBar s a)
          s.ext.rm s.ext.sr s.ext.sat (if s.ext.sr then s.active.map (fun u => (s.thread u).gen) else []),
        steps := fun u => if s.ext.sr then ((List.range (outRows mode * outCols mode)).filter
          (fun i => i % s.active.length == s.active.idxOf u)).length else 0,
        needs := holds s acc = true ∧ GoodDesc s a 3 ∧ 16 * descBar s a + 15 < s.claimBytes s.cur.core ∧ 2 ^ bEsize (descRec s a) = outWidth t ∧
          outCols mode ≤ descPitch s a ∧
          (t = 0#4 ∨ 5 ≤ t.toNat → s.ext.rm = 0#3 ∧ s.ext.sr = false) ∧ (t = 0#4 ∨ t = 5#4 → s.ext.sat = false) ∧
          ∀ r < outRows mode, ∀ c < outCols mode,
            (s.form s.cur.core (s.vfOf s.cur.core) (descRec s a) (descIdx s a + r * descPitch s a + c) (outWidth t) true).fault = none ∧
            (s.form s.cur.core (s.vfOf s.cur.core) (descRec s a) (descIdx s a + r * descPitch s a + c) (outWidth t) true).waits = false }
  | _ => none

/-- The counts that an MST opens until its bytes are written, after the tickets of its flag. -/
def lateTickets (s : State) : AMap Pend :=
  s.active.zipIdx.map (fun p => (s.here.nextPend + s.active.length + p.2, ⟨p.1, 108, [], none, [], s.here.clock⟩))

/-- The stores of the warp's threads that a latch load follows (R268). -/
def warpStored (s : State) : List Nat :=
  (AMap.keys (s.here.threads.filter (fun p => p.2.warp == s.cur.warp))).flatMap
    (fun u => (s.here.reqs.filter (fun r => r.ofThread u && r.unregistered)).map (fun r => r.id))

/-- A word on an accumulator. -/
def onAcc (acc : BitVec 3) : MatrixOp → Bool
  | .mma a .. => a == acc.toNat
  | .mzero _ a => a == acc.toNat
  | .mst a .. => a == acc.toNat
  | _ => false

/-- Work that the warp has posted on an accumulator is still to apply. -/
def accPosted (s : State) (acc : BitVec 3) : Prop :=
  (∃ w ∈ s.here.mwords, w.warp = s.cur.warp ∧ onAcc acc w.op = true) ∨
    ∃ p, ((s.cluster (clusterOf s.cur.core)).pass = some p ∨ (s.cluster (clusterOf s.cur.core)).ending = some p) ∧ p.core = s.cur.core ∧ p.word.warp = s.cur.warp ∧ p.acc = acc.toNat

/-! ## Tensors (R269 to R282) -/

/-- The VF in hand. -/
def myVf (s : State) : Nat := s.vfOf s.cur.core

/-- The entry that a descriptor's words describe (R277), and the ID it asks for. -/
def described (w : Nat → Nat) (e : Tensor) (id : Nat) : Prop :=
  w 1 / 2 ^ 20 = 0 ∧ w 3 / 2 ^ 20 = 0 ∧ w 5 / 2 ^ 24 = 0 ∧ w 6 / 2 ^ 24 = 0 ∧ w 7 / 2 ^ 12 = 0 ∧
  e.state = 1 ∧ e.vbase = w 0 + 2 ^ 32 * w 1 ∧ e.pbase = w 2 + 2 ^ 32 * w 3 ∧ e.rows = w 4 ∧ e.stride = w 5 % 2 ^ 16 ∧
  e.tr = w 5 / 2 ^ 16 ∧ e.tc = w 6 % 2 ^ 16 ∧ e.esize = w 6 / 2 ^ 16 % 16 ∧ e.format = w 6 / 2 ^ 20 ∧ id = w 7

/-- The conditions of R270 on an entry. -/
structure GoodTensor (e : Tensor) : Prop where
  format : e.format ≤ 1
  base : e.vbase % 64 = 0
  stride : e.stride * 2 ^ e.esize % 64 = 0
  cols : e.tc * 2 ^ e.esize % 64 = 0
  tile : 1 ≤ e.tr ∧ 1 ≤ e.tc ∧ e.tc ≤ e.stride ∧ 1 ≤ e.rows ∧ e.tr * e.tc * 2 ^ e.esize ≤ 65536
  fits : e.vbase + e.rows * e.stride * 2 ^ e.esize ≤ 2 ^ 52
  plain : e.format = 0 → e.pbase = 0 ∧ e.esize ≤ 4
  packed : e.format = 1 → e.esize = 0 ∧ e.pbase % 64 = 0

/-- TREG's result, and the entry that it fills (R277). -/
inductive Registers (s : State) (w : Nat → Nat) : Word → Option (Nat × Tensor) → Prop where
  | bad : (∀ e id, described w e id → ¬ GoodTensor e) → Registers s w 0xFFFFFFFE#32 none
  | full (e : Tensor) : described w e 0 → GoodTensor e → (∀ n, 1 ≤ n → n < 4096 → (s.tensor (myVf s) n).state ≠ 0) →
      Registers s w 0xFFFFFFFF#32 none
  | taken (e : Tensor) (id : Nat) : described w e id → GoodTensor e → id ≠ 0 → (s.tensor (myVf s) id).state ≠ 0 →
      Registers s w 0xFFFFFFFD#32 none
  | filled (e : Tensor) (id n : Nat) : described w e id → GoodTensor e → (id ≠ 0 → n = id) →
      (id = 0 → 1 ≤ n ∧ n < 4096 ∧ ∀ m, 1 ≤ m → m < n → (s.tensor (myVf s) m).state ≠ 0) → (s.tensor (myVf s) n).state = 0 →
      e.gen = ((s.tensor (myVf s) n).gen + 1) % 4096 → e.late = (s.tensor (myVf s) n).late →
      Registers s w (BitVec.ofNat 32 n) (some (n, e))

/-- No slice still holds a line of the entry to be filled under its next generation (R273). -/
def noWrap (s : State) (w : Nat → Nat) : Prop :=
  ∀ r n e, Registers s w r (some (n, e)) → ∀ l ∈ s.brocade, l.key.vf = myVf s → l.key.t = n → l.gen ≠ e.gen

/-- One entry of the VF's tensor table set, and no other part of a VF changed. -/
def tensorsSet (s t : State) (x : Option (Nat × Tensor)) : Prop :=
  (∀ v n, t.tensor v n = match x with
    | some p => if v = myVf s ∧ n = p.1 then p.2 else s.tensor v n
    | none => s.tensor v n) ∧
  ∀ v, { (t.vf v) with perfcnt := (s.vf v).perfcnt, perfnew := (s.vf v).perfnew, tensors := (s.vf v).tensors } = s.vf v

/-- Every core with the L1 lines of a tensor dropped. -/
def droppedLines (s : State) (x : Option (Nat × Tensor)) : AMap Core :=
  match x with
  | some p => s.cores.map (fun c => (c.1, { c.2 with l1 := c.2.l1.filter (fun l => !(l.key.vf == myVf s && l.key.t == p.1)) }))
  | none => s.cores

/-- What the front end's registers or the lowest lane's give as descriptor words. -/
def frontWord (s : State) (f : FrontEnd) (a : Reg) (j : Nat) : Nat :=
  (f.read s.cur.draw (nth a (j / 2))).toNat / 2 ^ (32 * (j % 2)) % 2 ^ 32

/-- The tensor words' operand of a front end: its low 32 bits. -/
def frontLow (s : State) (f : FrontEnd) (a : Reg) : Nat := (f.read s.cur.draw a).toNat % 2 ^ 32

/-- Line `n` of a tile lies in the tile and the tensor, at this address (R173, R319). -/
def lineAt (s : State) (n trow tcol line va : Nat) : Prop :=
  let e := s.tensor (myVf s) n
  if e.format = 2 then
    ∃ p, s.pool (myVf s) n = some p ∧ line < 1024 ∧ 64 * (1024 * tcol + line) < p.pageBytes ∧ trow < e.rows ∧
      va = e.vbase + trow * p.pageBytes + 64 * (1024 * tcol + line)
  else
    let per := e.tc * 2 ^ e.esize / 64
    let r := trow * e.tr + line / per
    let c := tcol * e.tc + line % per * (64 / 2 ^ e.esize)
    0 < per ∧ line < e.tr * per ∧ r < e.rows ∧ c < e.stride ∧ va = e.vbase + (r * e.stride + c) * 2 ^ e.esize

/-- A line that TFETCH's operands name (R279). -/
def fetches (s : State) (a b : Nat) (k : Key) (va : Nat) (l1 : Bool) : Prop :=
  k.vf = myVf s ∧ k.t = a % 65536 ∧ k.t ≠ 0 ∧ (s.tensor (myVf s) k.t).state = 1 ∧ l1 = decide (a / 2 ^ 23 % 2 = 1) ∧
  (b % 65536 ≤ k.trow ∨ (a / 2 ^ 22 % 2 = 1 ∧ b % 65536 ≤ k.trow + a / 2 ^ 16 % 8)) ∧ k.trow ≤ b % 65536 + a / 2 ^ 16 % 8 ∧
  (b / 65536 ≤ k.tcol ∨ (a / 2 ^ 22 % 2 = 1 ∧ b / 65536 ≤ k.tcol + a / 2 ^ 19 % 8)) ∧ k.tcol ≤ b / 65536 + a / 2 ^ 19 % 8 ∧
  lineAt s k.t k.trow k.tcol k.line va

/-- Cores with prefetches added and nothing else changed. -/
def pushed (s s' : State) (allowed : Nat → Req → Prop) : Prop :=
  { s' with cores := s.cores } = s ∧ ∀ k, { (s'.core k) with reqs := (s.core k).reqs, nextReq := (s.core k).nextReq } = s.core k ∧
    ∃ new, (s'.core k).reqs = (s.core k).reqs ++ new ∧ ∀ r ∈ new, r.lanes = [] ∧ allowed k r

/-- TFETCH's fills: only those named, and all whose translation the core holds. -/
def fetched (s s' : State) (ops : List (Nat × Nat)) : Prop :=
  pushed s s' (fun k r => k = s.cur.core ∧ ∃ o ∈ ops, ∃ l1, r.kind = .prefetch l1 ∧ fetches s o.1 o.2 r.key r.va l1) ∧
  ∀ o ∈ ops, ∀ k va l1, fetches s o.1 o.2 k va l1 → (s.here.heldLines s k.vf (s.linesOf k va)).isSome = true →
    ∃ r ∈ (s'.core s.cur.core).reqs, r.kind = .prefetch l1 ∧ r.key = k ∧ r.va = va

/-- A line of a tensor, by row and by line within the row, holds an element of a tile's halo (R280). -/
def inHalo (e : Tensor) (trow tcol hr hc r q : Nat) : Bool :=
  (List.range (64 / 2 ^ e.esize)).any (fun i =>
    let c := q * (64 / 2 ^ e.esize) + i
    decide (c < e.stride) && decide (trow * e.tr ≤ r + hr) && decide (r < (trow + 1) * e.tr + hr) &&
      decide (tcol * e.tc ≤ c + hc) && decide (c < (tcol + 1) * e.tc + hc) &&
      !(decide (trow * e.tr ≤ r) && decide (r < (trow + 1) * e.tr) && decide (tcol * e.tc ≤ c) && decide (c < (tcol + 1) * e.tc)))

/-- How many lines a halo has; 0 of a tensor that is not registered. -/
def haloCount (s : State) (a b : Nat) : Nat :=
  let e := s.tensor (myVf s) (a % 65536)
  if a % 65536 = 0 ∨ e.state ≠ 1 then 0
  else ((List.range e.rows).map (fun r => ((List.range (e.stride * 2 ^ e.esize / 64)).filter
    (fun q => inHalo e (b % 65536) (b / 65536) (a / 2 ^ 16 % 16) (a / 2 ^ 20 % 16) r q)).length)).sum

/-- THALO's operand names cores of the cluster that belong to the instance, and a tensor, where registered, of a valid
layout, or a pool, whose entry has no rows of tiles. -/
structure GoodHalo (s : State) (a : Nat) : Prop where
  high : a / 2 ^ 28 = 0
  some : a / 2 ^ 24 % 16 ≠ 0
  mine : ∀ i < 4, a / 2 ^ (24 + i) % 2 = 1 → (s.core (4 * clusterOf s.cur.core + i)).launch = s.here.launch ∧
    (s.core (4 * clusterOf s.cur.core + i)).inst = s.here.inst
  valid : (s.tensor (myVf s) (a % 65536)).state = 1 → GoodTensor (s.tensor (myVf s) (a % 65536)) ∨ (s.tensor (myVf s) (a % 65536)).stride = 0

/-- The cores that THALO's A names, and a line of the halo that its operands name, at its address (R280). -/
def namedCores (s : State) (a : Nat) : List Nat :=
  ((List.range 4).filter (fun i => a / 2 ^ (24 + i) % 2 == 1)).map (fun i => 4 * clusterOf s.cur.core + i)
def haloLine (s : State) (a b : Nat) (k : Key) (va : Nat) : Prop :=
  let e := s.tensor (myVf s) (a % 65536)
  k.vf = myVf s ∧ k.t = a % 65536 ∧ k.t ≠ 0 ∧ e.state = 1 ∧ lineAt s k.t k.trow k.tcol k.line va ∧
    ∃ r < e.rows, ∃ q, inHalo e (b % 65536) (b / 65536) (a / 2 ^ 16 % 16) (a / 2 ^ 20 % 16) r q = true ∧
      va = e.vbase + (r * e.stride + q * (64 / 2 ^ e.esize)) * 2 ^ e.esize

/-- THALO's lines: each line of the halo whose translation the core holds is read once and goes to every core that A names, and
no other line does. -/
def haloed (s s' : State) (a b : Nat) : Prop :=
  { s' with cores := s.cores } = s ∧ (∀ k, k ≠ s.cur.core → s'.core k = s.core k) ∧
  { (s'.core s.cur.core) with reqs := s.here.reqs, nextReq := s.here.nextReq } = s.here ∧
  ∃ new, (s'.core s.cur.core).reqs = s.here.reqs ++ new ∧ (new.map (fun r => r.key)).Nodup ∧
    (∀ r ∈ new, r.lanes = [] ∧ r.kind = .push (namedCores s a) ∧ haloLine s a b r.key r.va) ∧
    ∀ k va, haloLine s a b k va → (s.here.heldLines s k.vf (s.linesOf k va)).isSome = true → ∃ r ∈ new, r.key = k ∧ r.va = va

/-- TLOOK's answer (R282). -/
def looked (s : State) (a b : Nat) (w : Word) : Prop :=
  let t := a % 65536
  let e := s.tensor (myVf s) t
  let k : Key := ⟨myVf s, t, b % 65536, b / 65536, a / 65536⟩
  ((t = 0 ∨ e.state ≠ 1 ∨ ∀ va, ¬ lineAt s t k.trow k.tcol k.line va) → w = 0x80000000#32) ∧
  (t ≠ 0 → e.state = 1 → (∃ va, lineAt s t k.trow k.tcol k.line va) → e.gen < 4096 →
    w.toNat / 2 ^ 16 = e.gen ∧ w.toNat / 2 ^ 8 % 2 ^ 8 = s.home k ∧
    ((∀ l ∈ s.brocade, ¬ (l.key = k ∧ l.gen = e.gen)) → w.toNat % 2 ^ 8 = 0) ∧
    (∀ l, s.brocade.find? (fun l => l.key == k && l.gen == e.gen) = some l → w.toNat % 2 ^ 8 =
      0xF1 + (if l.poison = 0#4 then 0 else 4) + (if l.dirty = 0#4 then 0 else 2)))

/-- The cores once TDROP has marked the requests for an entry that are held in an operand log or a request queue: they fault at
replay (R278). -/
def goneMarked (s : State) (n : Nat) : AMap Core :=
  s.cores.map (fun c => (c.1, { c.2 with reqs := c.2.reqs.map (fun r =>
    if decide (r.key.vf = myVf s ∧ r.key.t = n ∧ r.space = 0) && (match r.stage with | .stuck => true | .faulted _ => true | _ => false)
    then { r with gone := true } else r) }))

/-- A thread that waits, with its run, for the home slices. -/
def sliced (s : State) (job : SliceJob) (n u : Nat) (y : Thread) : Thread :=
  { y with hold := if some u = s.active.head? then .slices job n false [] else .follow (s.active.headD 0) }

/-! ## Snapshots (R284 to R301) -/

/-- The word that a register of a thread's, or of an entry's, allotment holds. -/
def regWord (c : Core) (u : Nat) (r : Reg) : Option Word :=
  match placeOf r with
  | some p => if p.1 < (c.th u).map.length then some (c.rowWord (getAt (c.th u).map p.1 0) p.2) else none
  | none => none
def entryWord (c : Core) (e : Nat) (r : Reg) : Option Word :=
  match placeOf r with
  | some p => if p.1 < (c.entry e).map.length then some (c.rowWord (getAt (c.entry e).map p.1 0) p.2) else none
  | none => none

/-- The rows that threads, helpers' reserves and entries hold, once for each holder. -/
def heldRows (c : Core) : List Nat :=
  c.threads.flatMap (fun p => p.2.map ++ (match p.2.helper with | some h => h.reserved | none => [])) ++
    c.damask.flatMap (fun p => if p.2.state = 0 then [] else p.2.map)

/-- The row store as it stands in a run (R285, R287, R305): every row's count is the number of its holders, a reserved row has
one, rows are whole and allotments at most 13, and each thread, row and entry is listed once. -/
structure RowsCounted (c : Core) : Prop where
  counts : ∀ r, (c.row r).count = (heldRows c).count r
  reserved : ∀ p ∈ c.threads, ∀ h, p.2.helper = some h → ∀ r ∈ h.reserved, (heldRows c).count r = 1
  sizes : (∀ p ∈ c.threads, p.2.map.length ≤ 13) ∧ ∀ p ∈ c.damask, p.2.map.length ≤ 13
  whole : ∀ p ∈ c.rows, p.2.words.length = 8
  threads : (AMap.keys c.threads).Nodup
  rows : (AMap.keys c.rows).Nodup
  entries : (AMap.keys c.damask).Nodup

/-- Every slice has 16 rows to spare for each of these threads that stands in it. -/
def rowsToSpare (c : Core) (us : List Nat) : Prop :=
  ∀ slice, 16 * (us.filter (fun u => c.sliceTh (c.th u) == slice || (c.th u).map.any (fun r => sliceOf r == slice))).length ≤
    c.freeRows slice

/-- The handle of an entry (R284). -/
def handleFor (c : Core) (e : Nat) : Word := BitVec.ofNat 32 ((c.entry e).gen.toNat * 2 ^ 24 + c.bind.toNat * 2 ^ 12 + e)

/-- The entry that a handle names, and whether the handle passes in a thread (R286, R358). -/
def entryNamed (h : Word) : Nat := h.toNat % 4096
def handleGood (c : Core) (u : Nat) (h : Word) : Prop :=
  h ≠ 0#32 ∧ h.toNat / 2 ^ 12 % 2 ^ 9 = c.bind.toNat ∧ h.toNat / 2 ^ 21 % 8 = 0 ∧ (c.entry (entryNamed h)).state = 1 ∧
    (∀ d ∈ c.drops, d.1 = entryNamed h → c.clock ≤ d.2) ∧
    (c.entry (entryNamed h)).gen.toNat = h.toNat / 2 ^ 24 ∧ ((c.entry (entryNamed h)).trapEntry = true → (c.th u).pl = true)

/-- The register that an entry's SNAP named is none of the row store, or is in the entry's allotment. -/
def resumes (c : Core) (e : Nat) : Prop := placeOf (c.entry e).resume = none ∨ (entryWord c e (c.entry e).resume).isSome = true

/-- A register of the thread's block, once, with no earlier result that lands later. -/
structure OneReg (s : State) (d : Reg) : Prop where
  block : ∀ u ∈ s.active, s.here.blockOk u d 1 = true
  last : s.here.noLater s.active d 4

/-- Threads, rows, entries and results on their way apart, the core is as it was; the rows it copied are counted. -/
def rowsOnly (c d : Core) : Prop :=
  { d with threads := c.threads, rows := c.rows, damask := c.damask, pend := c.pend, copies := c.copies } = c ∧ c.copies ≤ d.copies

/-- A thread with other rows and notes. -/
def rowsMoved (t u : Thread) : Prop := { u with map := t.map, early := t.early } = t

/-- The cycle in which a word of R294 completes that takes `n` cycles and two for each row it copies. -/
def doneAt (c d : Core) (n : Nat) : Nat := c.clock + n + 2 * (d.copies - c.copies)

/-- Registers, but of the threads and registers named, and what live entries hold are as they were. -/
def valuesKept (c d : Core) (but : Nat → Reg → Prop) : Prop :=
  (∀ u, AMap.has c.threads u = true → ∀ r, ¬ but u r → regWord d u r = regWord c u r) ∧
  ∀ e, (c.entry e).state ≠ 0 → d.entry e = c.entry e ∧ ∀ r, entryWord d e r = entryWord c e r

/-- What SNAP freezes of a thread, in an entry that was free (R296). -/
structure Frozen (s t : State) (d a : Reg) (u e : Nat) : Prop where
  free : e < 4096 ∧ (s.here.entry e).state = 0
  entry : let x := (s.thread u).issued true
    (t.core s.cur.core).entry e = { (s.here.entry e) with
      state := 1, map := ((t.core s.cur.core).entry e).map, resume := d, pc := s.cur.pc + 4#32, pred := x.pred, flags := x.flags,
      setA := x.setA, setB := x.setB, fstat := x.fstat, genG := x.gen, yc := x.yc, dl := x.dl, maker := x.tid, role := x.role,
      trapEntry := false }
  frozen : ∀ r, entryWord (t.core s.cur.core) e r = if r = a then some (handleFor (t.core s.cur.core) e) else regWord s.here u r
  live : regWord (t.core s.cur.core) u a = some (handleFor (t.core s.cur.core) e) ∧ regWord (t.core s.cur.core) u d = some 0#32

/-! ## Siblings (R298, R299) -/

/-- The cycle in which SPAWN completes: 8 cycles, two for each row copied and four for each warp made (R294). -/
def spawnDone (c d : Core) : Nat := doneAt c d 8 + 4 * (d.nextWarp - c.nextWarp)

/-- A thread that SPAWN has started: number `k` of a thread's siblings, the `i`-th of the word. -/
structure Sibling (s t : State) (l : Launch) (slice : Option Nat) (u e k i v : Nat) : Prop where
  fresh : AMap.has s.here.threads v = false
  there : AMap.has (t.core s.cur.core).threads v = true
  thread : let x := s.here.entry e
    let y := (t.core s.cur.core).th v
    y.tid = BitVec.ofNat 32 (2 ^ 31 + l.spawnNext + i) ∧ y.sib = BitVec.ofNat 32 k ∧ y.role = x.role ∧ y.pred = x.pred ∧
    y.flags = x.flags ∧ y.setA = x.setA ∧ y.setB = x.setB ∧ y.pc = x.pc ∧ y.fstat = x.fstat ∧
    y.gen = x.genG ^^^ (y.tid.setWidth 64 * 0x9E3779B97F4A7C15#64) ∧ y.yc = x.yc ∧ y.dl = x.dl ∧ y.helper = none ∧ y.team = none ∧
    y.inHandler = false ∧ y.pl = s.isSys l.vf ∧
    y.busy = spawnDone s.here (t.core s.cur.core) + 2
  place : ((t.core s.cur.core).th v).lane % 4 = k % 4 ∨ slice = none
  slice : ∀ sl, slice = some sl → (t.core s.cur.core).sliceTh ((t.core s.cur.core).th v) = sl
  values : ∀ r, regWord (t.core s.cur.core) v r = if r = (s.here.entry e).resume ∧ (entryWord s.here e r).isSome then
      some (BitVec.ofNat 32 (k + 1)) else entryWord s.here e r
  groups : ∀ g, isMember (t.core s.cur.core) g v = isMember s.here g u

/-- Warps and threads are numbered below the next warp. -/
structure WarpsNumbered (c : Core) : Prop where
  threads : ∀ p ∈ c.threads, p.1 / 128 < c.nextWarp
  warps : ∀ w ∈ c.warps, w.id < c.nextWarp
  groups : ∀ g u, isMember c g u = true → AMap.has c.threads u = true

/-- How many siblings a lane asks for (R298). -/
def asked (s : State) (n : BitVec 4) (u : Nat) : Nat := if n = 0#4 then min 128 (reads s u s.ext.c3).toNat else n.toNat

/-- The slice of an entry's operand row, where SPAWN starts. -/
def entrySlice (s : State) (a : Reg) (u : Nat) : Nat := sliceOf (getAt (s.here.entry (entryNamed (reads s u a))).map 0 0)

/-- A slice has contexts, and rows for their registers, for so many siblings more. -/
def roomIn (c : Core) (slice total : Nat) : Prop := (∀ j < 4, c.contexts slice j + total ≤ 32) ∧ 16 * total < c.freeRows slice

/-! ## Helpers (R302 to R310) -/

/-- A lane of a warp may serve: it helps nobody, and holds no live thread or a parked one. -/
def mayServe (c : Core) (w i : Nat) : Bool :=
  !(AMap.has c.threads (128 * w + 64 + i)) &&
    (match AMap.look c.threads (uidOf w i) with
     | some t => (match t.hold with | .parked .. => true | _ => false)
     | none => true)

/-- A helper that RECRUIT has started: number `j` of a recruiter's, as the recruiter stood (R304, R305). -/
structure Started (s t : State) (packet u j v : Nat) : Prop where
  fresh : AMap.has s.here.threads v = false
  there : AMap.has (t.core s.cur.core).threads v = true
  lane : ∃ w i, v = 128 * w + 64 + i ∧ mayServe s.here w i = true ∧ ((t.core s.cur.core).th v).warp = w ∧ ((t.core s.cur.core).th v).lane = i
  thread : let x := s.thread u
    let y := (t.core s.cur.core).th v
    y.tid = x.tid ∧ y.sib = BitVec.ofNat 32 j ∧ y.role = x.role ∧ y.pred = x.pred ∧ y.flags = x.flags ∧ y.setA = x.setA ∧
    y.setB = x.setB ∧ y.fstat = x.fstat ∧ y.pc = BitVec.ofNat 32 (12 * packet) ∧ y.yc = 0 ∧ y.dl = x.dl ∧
    y.gen = x.gen ^^^ (BitVec.ofNat 64 (j + 1) * 0x9E3779B97F4A7C15#64) ∧ y.hold = .run ∧
    y.busy = doneAt s.here (t.core s.cur.core) 10 + 2
  helper : ∃ h, ((t.core s.cur.core).th v).helper = some h ∧ h.recruiter = u ∧ h.index = j ∧ h.fresh = 0 ∧ h.reserved.length = 4
  values : ∀ r, regWord (t.core s.cur.core) v r = regWord s.here u r

/-- What RECRUIT answers a thread that got `got` of `n` helpers (R304). -/
def recruited (s : State) (n got u : Nat) (w : Word) : Prop :=
  got ≤ n ∧ ((s.thread u).team.isSome = true → got = 0 ∧ w = 0x400#32) ∧
  ((s.thread u).team = none → got = n → w = BitVec.ofNat 32 n) ∧
  ((s.thread u).team = none → got < n → w = BitVec.ofNat 32 (got + 0x100) ∨ w = BitVec.ofNat 32 (got + 0x200) ∨ (got = 0 ∧ w = 0x300#32))

/-- Contexts, rows and an entry for one thread's team. -/
def roomForTeam (c : Core) : Prop :=
  (∃ e < 4096, (c.entry e).state = 0) ∧ (∀ slice j, c.contexts slice j ≤ 16) ∧ (∀ slice, 288 ≤ c.freeRows slice)

/-- The helpers that execute the word, with their teams (R307). -/
structure InTeams (s : State) (n : Nat) : Prop where
  helpers : ∀ u ∈ s.cur.run, ∃ h x, (s.thread u).helper = some h ∧ AMap.has s.here.threads h.recruiter = true ∧
    (s.thread h.recruiter).team = some x ∧ (x.op = none ∨ x.op = some n) ∧ h.recruiter ∉ s.cur.run ∧
    u = 128 * (s.thread u).warp + 64 + (s.thread u).lane ∧ (s.thread u).lane < 64
  once : ∀ u ∈ s.active, ∀ v ∈ s.active, ∀ h g, (s.thread u).helper = some h → (s.thread v).helper = some g →
    h.recruiter = g.recruiter → h.index = g.index → u = v
  rested : ∀ u ∈ s.active, (∀ n ∈ (s.thread u).flags, n = 0) ∧ s.here.released u = true

/-- A thread that is parked holds its destination's row alone. -/
def parkedOwn (c : Core) : Prop :=
  ∀ u n d, (c.th u).hold = .parked n d → ∀ q, c.cell u d = some q → (c.row q.1).count ≤ 1

/-- A lane's parked thread goes on once a helper in it has ended. -/
def lanePark (s : State) (u : Nat) : Nat := uidOf (s.thread u).warp (s.thread u).lane
def isParked (c : Core) (u : Nat) : Prop := ∃ n d, (c.th u).hold = .parked n d

/-- The values with which a team's helpers ended, by HEND, in order; and the lanes' bits. -/
def endedBy (x : Team) (j : Nat) : Option Word := match AMap.look x.ends j with | some (.value v) => some v | _ => none
def teamBits (x : Team) : Word := lanesWord 0 (fun j => decide (j < 16) && (endedBy x j).isSome)

/-- Their combination under the team's operation (R161, R308). -/
def teamValue (s : State) (x : Team) : Word :=
  let k := match x.op with | some 3 => 6 | some k => k | none => 0
  match (List.range 16).filterMap (endedBy x) with
  | [] => 0#32
  | v :: vs => vs.foldl (fun a b => (opOf s k a b).1) v

/-- A team is done, and none of its helpers died by a trap. -/
def teamGood (x : Team) : Prop := x.n ≤ x.ends.length ∧ ∀ j < 16, ∀ i p, AMap.look x.ends j ≠ some (.trap i p)

/-- The threads of a core with the teams of these closed. -/
def closed (c : Core) (us : List Nat) : AMap Thread := c.threads.map (fun p => (p.1, if us.contains p.1 then { p.2 with team := none } else p.2))

/-- The helpers of a thread that have not ended. -/
def helpersOf (c : Core) (u : Nat) : List Nat :=
  AMap.keys (c.threads.filter (fun p => match p.2.helper with | some h => h.recruiter == u | none => false))

/-! ## Pool words (R322 to R338) -/

/-- A pool word: its destination, the registers from A that it reads, its predicate, and the operation that their values
name. -/
structure PoolWord where
  dst : Reg
  src : Reg
  args : Nat
  pred : Option Nat
  op : (Nat → Nat) → Option PoolOp

/-- The predicate of a form with PD and PE. -/
def predNamed (pd : BitVec 3) (pe : Bool) : Option Nat := if pe then some pd.toNat else none

/-- The pool words that act in each lane (R330 to R337). -/
def poolWordOf : Instr → Option PoolWord
  | .kvnewSeq _ d a pd pe => some ⟨d, a, 2, predNamed pd pe, fun x => some (.newSeq (BitVec.ofNat 32 (x 1)))⟩
  | .kvapp _ d a pd pe => some ⟨d, a, 3, predNamed pd pe, fun x => if x 2 < 16 then some (.app (x 1) (x 2)) else none⟩
  | .kvfork _ d a pd pe => some ⟨d, a, 2, predNamed pd pe, fun x => some (.fork (x 1))⟩
  | .kvfree _ d a pd pe => some ⟨d, a, 2, predNamed pd pe, fun x => some (.free (x 1))⟩
  | .kvfreeTrunc _ d a pd pe => some ⟨d, a, 3, predNamed pd pe, fun x => some (.trunc (x 1) (x 2))⟩
  | .kvwalk _ d a pd pe => some ⟨d, a, 3, predNamed pd pe, fun x => some (.walk (x 1) (BitVec.ofNat 32 (x 2)))⟩
  | .kvinvSet _ d a pd pe =>
      some ⟨d, a, 4, predNamed pd pe, fun x => if x 3 < 65536 then some (.inv true (x 1) (x 2) (BitVec.ofNat 16 (x 3))) else none⟩
  | .kvinvClr _ d a pd pe =>
      some ⟨d, a, 4, predNamed pd pe, fun x => if x 3 < 65536 then some (.inv false (x 1) (x 2) (BitVec.ofNat 16 (x 3))) else none⟩
  | .rspan _ d a pd pe => some ⟨d, a, 3, predNamed pd pe, fun x => if x 2 < 16 then some (.rspan (x 1) (x 2)) else none⟩
  | _ => none

/-- Register A + j of a thread, as a number. -/
def blockArg (s : State) (a : Reg) (u j : Nat) : Nat := (reads s u (nth a j)).toNat

/-- A registered entry of FORMAT 2 of the VF in hand, with its pool. -/
def isPool (s : State) (n : Nat) : Prop :=
  n ≠ 0 ∧ n < 4096 ∧ (s.tensor (myVf s) n).state = 1 ∧ (s.tensor (myVf s) n).format = 2 ∧ (s.pool (myVf s) n).isSome = true

/-- The pools changed, and no other part of a VF. -/
def poolsSet (s t : State) (f : Nat → Nat → Pool → Pool) : Prop :=
  (∀ v n, t.pool v n = (s.pool v n).map (f v n)) ∧
    ∀ v, { (t.vf v) with perfcnt := (s.vf v).perfcnt, perfnew := (s.vf v).perfnew, pools := (s.vf v).pools } = s.vf v

/-- The lane operation that a pool word asks in a thread. -/
def laneAsked (s : State) (x : PoolWord) (u : Nat) : Option PoolLane :=
  (x.op (blockArg s x.src u)).map (fun op =>
    ⟨s.cur.core, s.here.nextPool, u, laneOf s u, op, x.dst, x.pred, ⟨s.cur.pc, s.cur.gpc, s.cur.glen⟩, none, false⟩)

/-- A thread's predicate as a form leaves it: bit `p` where one is named. -/
def marked (p : Option Nat) (v : Bool) (y : Thread) : Thread :=
  match p with | some q => { y with pred := setPredBit y.pred q v } | none => y

/-- A word that acts once for its run and writes the same words and predicate in each lane that executes it. -/
structure RunResults (s t : State) (d : Reg) (vals : List Word) (f : Thread → Thread) : Prop where
  only : s.onlyHere t
  core : s.here.onlyThreads (t.core s.cur.core)
  outside : ∀ u, u ∉ s.cur.run → (t.core s.cur.core).th u = s.thread u
  value : ∀ u ∈ s.active, ∀ k < vals.length, ∀ q, s.here.cell u (nth d k) = some q →
    (t.core s.cur.core).rowWord q.1 q.2 = getAt vals k 0#32
  words : ∀ r w, (∀ u ∈ s.active, ∀ k < vals.length, s.here.cell u (nth d k) ≠ some (r, w)) →
    (t.core s.cur.core).rowWord r w = s.here.rowWord r w
  active : ∀ u ∈ s.active, Thread.onlyNotes (f ((s.thread u).issued true)) ((t.core s.cur.core).th u)
  excluded : ∀ u ∈ s.cur.run, u ∉ s.active → (t.core s.cur.core).th u = (s.thread u).issued false

/-- No earlier result for a named predicate lands after one of this word's. -/
def predLast (s : State) (p : Option Nat) : Prop :=
  ∀ q, p = some q → ∀ u ∈ s.active, ∀ e ∈ (s.thread u).early, e.outlasts (predCode q) (s.here.clock + 4) = false

/-- A pool descriptor in eight words (R331): the pool it describes, its base and its ID. -/
def describesPool (w : Nat → Nat) (p : Pool) (vbase id : Nat) : Prop :=
  p = ⟨w 2, w 3, w 4 % 256, w 5 + w 6 % 2 ^ 20 * 2 ^ 32, w 7 / 4096, [], [], [], []⟩ ∧
    vbase = w 0 + w 1 % 2 ^ 20 * 2 ^ 32 ∧ id = w 7 % 4096

/-- A descriptor is valid (R331). -/
structure GoodPool (w : Nat → Nat) (p : Pool) (vbase : Nat) : Prop where
  reserved : w 1 / 2 ^ 20 = 0 ∧ w 4 / 256 = 0 ∧ w 6 / 2 ^ 20 = 0
  aligned : vbase % 64 = 0 ∧ p.seqbase % 64 = 0
  pages : 1 ≤ p.npages ∧ p.npages ≤ 0xFFFFFFFE ∧ p.nhbm ≤ p.npages
  payload : 1 ≤ p.pay ∧ p.pay ≤ 128
  records : 1 ≤ p.nseq
  ends : vbase + p.npages * (64 + 8192 * p.pay) ≤ 2 ^ 52 ∧ p.seqbase + 64 * p.nseq ≤ 2 ^ 52

/-- How KVNEW.pool fails: its REASON (R324, R331). -/
inductive NoPool (s : State) (w : Nat → Nat) : Word → Prop where
  | bad (p : Pool) (vb id : Nat) : describesPool w p vb id → ¬ GoodPool w p vb → NoPool s w 5#32
  | taken (p : Pool) (vb id : Nat) : describesPool w p vb id → id ≠ 0 → (s.tensor (myVf s) id).state ≠ 0 → NoPool s w 5#32
  | full (p : Pool) (vb : Nat) : describesPool w p vb 0 → GoodPool w p vb →
      (∀ n, 1 ≤ n → n < 4096 → (s.tensor (myVf s) n).state ≠ 0) → NoPool s w 3#32

/-- The entry that KVNEW.pool takes: that of the ID, or the lowest free one, with no line of its next generation left. -/
def takesEntry (s : State) (id n : Nat) : Prop :=
  (id ≠ 0 → n = id) ∧ (id = 0 → 1 ≤ n ∧ n < 4096 ∧ ∀ m, 1 ≤ m → m < n → (s.tensor (myVf s) m).state ≠ 0) ∧
    (s.tensor (myVf s) n).state = 0 ∧
    ∀ l ∈ s.brocade, l.key.vf = myVf s → l.key.t = n → l.gen ≠ ((s.tensor (myVf s) n).gen + 1) % 4096

/-- The entry of a pool. -/
def poolEntry (s : State) (n vbase npages : Nat) : Tensor :=
  { Tensor.reset with state := 1, vbase := vbase, rows := npages, format := 2, gen := ((s.tensor (myVf s) n).gen + 1) % 4096
                      late := (s.tensor (myVf s) n).late }

/-! ## Queues between dies, the grammar unit, quotas (R338, R342 to R349) -/

/-- A control value names a die that is present and holds a quantum of the partition, with its reserved bits clear (R343). -/
structure GoodControl (s : State) (c : Nat) : Prop where
  reserved : c / 8 % 2 ^ 13 = 0
  present : s.devcap.getLsbD (24 + c % 4) = true
  held : ∃ p j, s.partOfVf (myVf s) = some p ∧ j < 8 ∧ (s.quantum (8 * (c % 4) + j)).part = some p

/-- A SYSWR wrote the register that a word of the core in hand meets: the core's own, the cluster's, the partition's or the VF's. -/
def sharedSys (s : State) (e : SysOld) (n : Nat) : Prop :=
  e.reg = n ∧
    (if n ≤ 3 then e.core = s.cur.core
     else if n = 0x0F then clusterOf e.core = clusterOf s.cur.core
     else if n = 0x0E ∨ n = 0x22 ∨ n = 0x23 then s.partOfVf e.vf = s.partOfVf (myVf s)
     else e.vf = myVf s)

/-- What a word of a thread meets of a register that stands at `now`: that, or what stood there before a SYSWR of another thread
less than 4 cycles ago (R380). -/
def meetsSys (s : State) (uid n : Nat) (now got : DWord) : Prop :=
  got = now ∨ ∃ e ∈ s.sysOld, sharedSys s e n ∧ s.now < e.cycle + 4 ∧ ¬ (e.core = s.cur.core ∧ e.uid = uid) ∧ got = e.old

/-- A thread that waits with its run in one of the queue words. -/
def queueing (s : State) (h : Hold) (u : Nat) (y : Thread) : Thread :=
  { y with hold := if some u = s.active.head? then h else .follow (s.active.headD 0) }

/-- A byte at a virtual address of a VF, as the device's agents see it; none where no page maps it. -/
def vaByte (s : State) (v va : Nat) : Option Byte :=
  match s.walk v (va / 64 * 64) false with
  | .ok pa => some (s.physByte (pa + va % 64))
  | .fault _ => none

/-- Little-endian bytes at a virtual address, 0 where unmapped. -/
def vaNum (s : State) (v va : Nat) : Nat → Nat
  | 0 => 0
  | n + 1 => ((vaByte s v va).getD 0#8).toNat + 256 * vaNum s v (va + 1) n

/-- Bytes can be read: mapped, and in no poisoned sector. -/
def vaGood (s : State) (v va n : Nat) : Prop :=
  ∀ i < n, ∃ pa, s.walk v ((va + i) / 64 * 64) false = .ok pa ∧ s.physPoison (pa + (va + i) % 64) = false

/-- Brocade stands as its rules keep it (R273): lines whole, each key and each physical line once, a line under a flat key at
its own translation, and the clean sectors of a line equal to memory. -/
structure Coherent (s : State) : Prop where
  keys : s.brocade.Pairwise (fun l m => l.key ≠ m.key ∨ l.gen ≠ m.gen)
  places : s.brocade.Pairwise (fun l m => l.pa = none ∨ l.pa ≠ m.pa)
  whole : ∀ l ∈ s.brocade, l.data.length = 64 ∧ ∀ pa, l.pa = some pa → pa % 64 = 0
  flat : ∀ l ∈ s.brocade, ∀ v va pa, va % 64 = 0 → l.key = ⟨v, 0, 0, va / 4096, va / 64 % 64⟩ → s.walk v va false = .ok pa →
    l.gen = 0 ∧ l.pa = some pa
  clean : ∀ l ∈ s.brocade, ∀ pa, l.pa = some pa → ∀ i < 64, l.dirty.getLsbD (i / 16) = false →
    getAt l.data i 0#8 = s.mem.read (pa + i) ∧ l.poison.getLsbD (i / 16) = (AMap.look s.poison ((pa + i) / 16)).isSome

/-- The parts of a state block (R347). -/
def blockWord (s : State) (a : Reg) (u : Nat) : Nat := blockArg s a u 0
def gState (s : State) (a : Reg) (u : Nat) : Nat := blockWord s a u % 2 ^ 16
def gDepth (s : State) (a : Reg) (u : Nat) : Nat := blockWord s a u / 2 ^ 16 % 16
def gEntry (s : State) (a : Reg) (u i : Nat) : Nat := blockArg s a u (1 + i / 2) / 2 ^ (16 * (i % 2)) % 2 ^ 14
def gTop (s : State) (a : Reg) (u : Nat) : Nat := if gDepth s a u = 0 then 0 else gEntry s a u (gDepth s a u - 1)

/-- The block of a lane is a legal one, on a slot bound to the VF (R347). -/
structure GoodBlock (s : State) (a : Reg) (u : Nat) (g : GrammarSlot) : Prop where
  slot : AMap.look (s.die (dieOf s.cur.core)).grammar (blockWord s a u / 2 ^ 28) = some g ∧ g.vf = myVf s
  reserved : blockWord s a u / 2 ^ 20 % 2 ^ 8 = 0 ∧ ∀ j, 1 ≤ j → j ≤ 4 → blockArg s a u j / 2 ^ 14 % 4 = 0 ∧ blockArg s a u j / 2 ^ 30 = 0
  state : gState s a u < g.nstates
  depth : gDepth s a u ≤ 8

/-- The address of an action word, and its fields NEXT, OP and PUSHSYM, for a token (R347). -/
def actionAt (s : State) (g : GrammarSlot) (q y tok : Nat) : Nat :=
  g.va + g.trans + 4 * ((q * g.nsym + y) * g.nclass + vaNum s g.vf (g.va + g.classmap + 2 * tok) 2)
def actionOf (s : State) (g : GrammarSlot) (q y tok : Nat) : Nat × Nat × Nat :=
  let x := vaNum s g.vf (actionAt s g q y tok) 4
  (x % 2 ^ 16, x / 2 ^ 16 % 4, x / 2 ^ 18)

/-- The bytes that a token's action needs can be read. -/
def actionGood (s : State) (g : GrammarSlot) (q y tok : Nat) : Prop :=
  vaGood s g.vf (g.va + g.classmap + 2 * tok) 2 ∧ vaGood s g.vf (actionAt s g q y tok) 4

/-- allowed(q, y, tok) of R348, at a depth. -/
def tokenAllowed (s : State) (g : GrammarSlot) (q y depth tok : Nat) : Bool :=
  let x := actionOf s g q y tok
  decide (tok < g.ntok) && !(x.2.1 == 3) && decide (x.1 < g.nstates) && !(x.2.1 == 2 && depth == 0) && !(x.2.1 == 1 && x.2.2 == 0)

/-- Whether a lane's token is allowed, the lane's new depth and state, and whether it would push at depth 8. -/
def laneAllows (s : State) (d a : Reg) (u : Nat) (g : GrammarSlot) : Bool :=
  tokenAllowed s g (gState s d u) (gTop s d u) (gDepth s d u) (reads s u a).toNat
def laneAction (s : State) (d a : Reg) (u : Nat) (g : GrammarSlot) : Nat × Nat × Nat :=
  actionOf s g (gState s d u) (gTop s d u) (reads s u a).toNat

/-- The new block of a lane as registers give it: state and depth in the first, and for a push the symbol in its place. -/
structure NewBlock (s : State) (d a : Reg) (u : Nat) (g : GrammarSlot) (w : Nat → Nat) : Prop where
  first : w 0 = blockWord s d u / 2 ^ 28 * 2 ^ 28 + (laneAction s d a u g).1 +
    2 ^ 16 * (match (laneAction s d a u g).2.1 with | 1 => gDepth s d u + 1 | 2 => gDepth s d u - 1 | _ => gDepth s d u)
  stack : ∀ i < 8, w (1 + i / 2) / 2 ^ (16 * (i % 2)) % 2 ^ 14 =
    if (laneAction s d a u g).2.1 = 1 ∧ i = gDepth s d u then (laneAction s d a u g).2.2 else gEntry s d u i

/-- A grammar word issued: rows of the run's threads, threads and Brocade apart nothing of the core or of memory changed. -/
structure TableRead (s t : State) : Prop where
  dies : ∀ k, { (t.die k) with chunks := (s.die k).chunks, sums := (s.die k).sums } = s.die k
  memory : ∀ pa, t.physByte pa = s.physByte pa
  others : ∀ k, k ≠ s.cur.core → { (t.core k) with l1 := (s.core k).l1 } = s.core k
  core : { (t.core s.cur.core) with threads := s.here.threads, rows := s.here.rows, l1 := s.here.l1 } = s.here
  only : s.sameVfs t ∧
    { t with cores := s.cores, cur := s.cur, vfs := s.vfs, brocade := s.brocade, mem := s.mem, poison := s.poison, dies := s.dies } = s

/-- What a die's mask cache holds under a key. -/
def heldMask {α : Type} (k : MaskKey) (l : List (MaskKey × α)) : Option α := (l.find? (fun x => decide (x.1 = k))).map (fun x => x.2)

/-! ## System registers (R355, R380) -/

/-- The partition of the VF in hand, and its record. -/
def myPart (s : State) : Option Part := match s.partOfVf (myVf s) with | some p => AMap.look s.parts p | none => none

/-- CKPTCTL as it reads (R369). -/
def ckptctlOf (p : Part) : Word := BitVec.ofNat 32 (p.ckState * 2 ^ 28 + p.ckErr * 2 ^ 24 + p.ckRate * 2 ^ 12)

/-- What a register that is no thread's reads as (R3, R103, R136, R183, R345, R354, R355, R360, R363, R364, R369, R375). -/
def registerOf (s : State) (n : Nat) : DWord :=
  let x := s.vf (myVf s)
  let part (f : Part → DWord) : DWord := match myPart s with | some p => f p | none => 0#64
  match n with
  | 0x01 => BitVec.ofNat 64 (min 65535 s.here.lost * 2 ^ 16 + s.here.faultq.length * 2 ^ 8 + s.here.ftrap.toNat * 4)
  | 0x02 => s.here.vocab.setWidth 64
  | 0x03 => s.here.vocabpad.setWidth 64
  | 0x04 => s.devcap.setWidth 64
  | 0x05 => match s.partOfVf (myVf s) with | some p => if (AMap.look s.parts p).isSome then BitVec.ofNat 64 (p % 8) else 0#64 | none => 0#64
  | 0x06 => BitVec.ofNat 64 (myVf s % 64)
  | 0x0C => part (fun p => p.funcmode.setWidth 64)
  | 0x0D => x.pretimers.setWidth 64
  | 0x0E => part (fun p => (ckptctlOf p).setWidth 64)
  | 0x0F => match (s.cluster (clusterOf s.cur.core)).handler with | some h => BitVec.ofNat 64 (2 ^ 31 + h.1 % 4) | none => 0#64
  | 0x10 => x.lasttrap.r0.setWidth 64
  | 0x11 => x.lasttrap.r1.setWidth 64
  | 0x12 => x.lasttrap.r2.setWidth 64
  | 0x13 => x.lasttrap.r3.setWidth 64
  | 0x20 => if x.trapbase.toNat / 2 ^ 53 = 0 then x.trapbase &&& 0xFFFFFFFFFFFFFFFE#64 else x.trapbase
  | 0x22 => part (fun p => p.ckBuf)
  | 0x23 => part (fun p => p.ckRsv)
  | n => if 0x18 ≤ n ∧ n ≤ 0x1F then (AMap.lookD x.perfsel (n - 0x18) 0#32).setWidth 64 else 0#64

/-- What a register of one thread reads as: FSTAT, TSTAT and the trap record. -/
def threadRegister (s : State) (u n : Nat) : Word :=
  let t := s.thread u
  match n with
  | 0x00 => t.fstat &&& 0xFF#32
  | 0x07 => BitVec.ofNat 32 ((if t.pl then 1 else 0) + (if t.intrap then 2 else 0))
  | 0x08 => t.trapRec.r0
  | 0x09 => t.trapRec.r1
  | 0x0A => t.trapRec.r2
  | _ => t.trapRec.r3

/-- The fields of a register that a SYSWR writes beside fields that change by themselves (R183, R369). -/
def writtenFields (n : Nat) : DWord := if n = 0x01 then 0xFFFF001C#64 else if n = 0x0E then 0x00FFF000#64 else 0xFFFFFFFFFFFFFFFF#64

/-- What SYSRD of a thread reads of a register that is no thread's: the register, or in the fields that a SYSWR writes what stood
there before another thread's write less than 4 cycles ago (R380); TRAPBASE with LEN64 = 0 reads with EN = 0 (R360). -/
def seesRegister (s : State) (uid n : Nat) (got : DWord) : Prop :=
  ∃ v, meetsSys s uid n (registerOf s n) v ∧
    let w := (registerOf s n &&& ~~~writtenFields n) ||| (v &&& writtenFields n)
    got = if n = 0x20 ∧ w.toNat / 2 ^ 53 = 0 then w &&& 0xFFFFFFFFFFFFFFFE#64 else w

/-- What SYSWR leaves of the value that a register stood at, for other threads' words of the next cycles (R380): with it the count
that a PERFSEL write clears; notes that are 4 cycles old may go. -/
structure Remembered (s t : State) (uid n : Nat) : Prop where
  noted : ∃ e ∈ t.sysOld, e = ⟨n, s.cur.core, myVf s, uid, if n = 0x20 then (s.vf (myVf s)).trapbase else registerOf s n, s.now⟩
  kept : ∀ e ∈ s.sysOld, s.now < e.cycle + 4 → e ∈ t.sysOld
  only : ∀ e ∈ t.sysOld, e ∈ s.sysOld ∨ (e.core = s.cur.core ∧ e.vf = myVf s ∧ e.uid = uid ∧ e.cycle = s.now ∧
    ((e.reg = n ∧ e.old = if n = 0x20 then (s.vf (myVf s)).trapbase else registerOf s n) ∨
     (0x18 ≤ n ∧ n ≤ 0x1F ∧ e.reg = 0x100 + n ∧ e.old = AMap.lookD (s.vf (myVf s)).perfcnt (n - 0x18) 0#64)))

/-- A number of the table of R355, and which of them are a thread's, reserved to PL1 for reading, and for writing. -/
def isRegister (n : Nat) : Prop := n ≤ 0x13 ∨ (0x18 ≤ n ∧ n ≤ 0x23)
def isThreads (n : Nat) : Prop := n = 0x00 ∨ (0x07 ≤ n ∧ n ≤ 0x0B)
def readsAtOne (n : Nat) : Prop := (0x08 ≤ n ∧ n ≤ 0x0B) ∨ n = 0x0E ∨ (0x10 ≤ n ∧ n ≤ 0x13) ∨ n = 0x20 ∨ n = 0x22 ∨ n = 0x23
def writesAtOne (n : Nat) : Prop := n = 0x01 ∨ n = 0x0D ∨ n = 0x0E ∨ n = 0x0F ∨ n = 0x20 ∨ n = 0x22 ∨ n = 0x23
def writesIgnored (n : Nat) : Prop := (0x04 ≤ n ∧ n ≤ 0x0C) ∨ (0x10 ≤ n ∧ n ≤ 0x13)

/-- The selector of KVQUOTA: VF, tier and register, in its bounds (R328, R338). -/
structure GoodSelector (s : State) (x : Nat) (wr : Bool) : Prop where
  reserved : x / 2 ^ 7 % 2 = 0 ∧ x / 2 ^ 10 = 0
  inside : s.partOfVf (x % 64) = s.partOfVf (myVf s) ∨ (wr = true ∧ x / 256 % 4 = 3)
def quotaOf (s : State) (x : Nat) : Nat :=
  let v := s.vf (x % 64)
  let tier := x / 64 % 2
  match x / 256 % 4 with
  | 0 => AMap.lookD v.quota tier 0xFFFFFFFF
  | 1 => AMap.lookD v.borrow tier 0
  | 2 => AMap.lookD v.used tier 0
  | _ => match myPart s with | some p => AMap.lookD p.lowmark tier 0 | none => 0

/-- One VF is changed by `f`, but for its counters, and no other. -/
def vfSet (s t : State) (v : Nat) (f : VF → VF) : Prop :=
  ∀ w, { (t.vf w) with perfcnt := (s.vf w).perfcnt, perfnew := (s.vf w).perfnew } =
    if w = v then { (f (s.vf w)) with perfcnt := (s.vf w).perfcnt, perfnew := (s.vf w).perfnew } else s.vf w

/-- The partition of the VF in hand is changed by `f`, and no other. -/
def partSet (s t : State) (f : Part → Part) : Prop :=
  ∀ p, AMap.look t.parts p = if s.partOfVf (myVf s) = some p then (AMap.look s.parts p).map f else AMap.look s.parts p

/-- PRETIMERS and RATE as a write stores them (R364, R369). -/
def pretimersOf (w : Nat) : Word :=
  BitVec.ofNat 32 (w % 2 ^ 22 + 2 ^ 22 * (if 100 * (w / 2 ^ 22) ≤ w / 2 ^ 10 % 2 ^ 12 then w / 2 ^ 10 % 2 ^ 12 / 100 + 1 else w / 2 ^ 22))
def rateOf (w : Nat) : Nat := if w / 2 ^ 12 % 2 ^ 12 = 0 then 1 else w / 2 ^ 12 % 2 ^ 12

/-- What a write of CLHANDLER does to the cluster (R354). -/
def claimed (s : State) (l : Nat) (w : Word) (c : Cluster) : Option (Nat × Nat) :=
  if w.getLsbD 31 then
    (if (c.handler = none ∨ ∃ h, c.handler = some h ∧ h.2 = l) ∧ s.isSys (myVf s) then some (s.cur.core, l) else c.handler)
  else (match c.handler with | some h => if h.2 = l then none else some h | none => none)

/-! ## Traps and their returns (R357 to R363, R378, R379) -/

/-- The code of a TRAP, and the word's slot in its packet. -/
def trapCode (s : State) (a : Reg) : Nat := leadReads s a % 2 ^ 16
def wordSlot (s : State) : Nat := s.cur.pc.toNat / 4 % 3

/-- The lowest lane of the run. -/
def lowestLane (s : State) : Nat := laneOf s (s.cur.run.headD 0)

/-- TRAPREC0 and LASTTRAP0 of a USER_TRAP of warp code, with the bits NEST, NOVEC and VALID (R359, R363). -/
def userRecord (s : State) (nest novec valid : Bool) : Word :=
  BitVec.ofNat 32 (15 + 2 ^ 13 * valid.toNat + 2 ^ 14 * novec.toNat + 2 ^ 15 * nest.toNat + 2 ^ 17 * wordSlot s +
    2 ^ 24 * s.cur.glen + 2 ^ 26 * lowestLane s)

/-- TRAPBASE lets a trap be vectored (R358, R360). -/
def vectors (b : DWord) : Prop := b.toNat % 2 = 1 ∧ b.toNat / 2 ^ 53 ≠ 0

/-- A thread of a trapped run in its handler, frozen into entry `e` with the PC of the group's first word (R358). -/
structure Vectored (s t : State) (a : Reg) (base : DWord) (u e : Nat) : Prop where
  free : e < 4096 ∧ (s.here.entry e).state = 0
  entry : let x := s.thread u
    (t.core s.cur.core).entry e = { (s.here.entry e) with
      state := 1, map := ((t.core s.cur.core).entry e).map, resume := 108#7, pc := s.cur.gpc, pred := x.pred, flags := x.flags,
      setA := x.setA, setB := x.setB, fstat := x.fstat, genG := x.gen, yc := x.yc, dl := x.dl, maker := x.tid, role := x.role,
      trapEntry := true }
  frozen : ∀ r, entryWord (t.core s.cur.core) e r = regWord s.here u r
  kept : ∀ r, regWord (t.core s.cur.core) u r = regWord s.here u r
  thread : rowsMoved { (s.thread u) with
      map := ((t.core s.cur.core).th u).map, pc := BitVec.ofNat 32 (12 * (4 * 15)), pl := true, intrap := true, trapEntry := some e,
      trapRec := ⟨userRecord s false false false, s.cur.pc, BitVec.ofNat 32 (trapCode s a), handleFor (t.core s.cur.core) e⟩,
      yc := 0, dl := 255, y0 := [], y1 := [], y2 := [], y3 := [], wait := 0#12, hold := .run, inHandler := true,
      trapNo := ((t.core s.cur.core).th u).trapNo,
      handlerBase := base } ((t.core s.cur.core).th u)

/-- What a trap of the word in hand meets of TRAPBASE (R360). -/
def meetsBase (s : State) (b : DWord) : Prop := meetsSys s noUid 0x20 (s.vf (myVf s)).trapbase b

/-- A launch ends with a record for its VF (R362, R363), and nothing else changes yet. -/
structure LaunchEnds (s t : State) (l : Nat) (x : Launch) (r : TrapRec) : Prop where
  launch : ∀ k, t.launch k = if k = l then some { x with tearing := true } else s.launch k
  record : ∀ v, t.vf v = if v = x.vf then { (s.vf v) with lasttrap := r } else s.vf v
  only : { t with launches := s.launches, vfs := s.vfs, cur := s.cur } = s

/-- A thread may return from its handler (R379): it is in one, and A names its own trap entry, which no other thread of the word
has. -/
structure MayReturn (s : State) (a : Reg) : Prop where
  inside : ∀ u ∈ s.active, (s.thread u).intrap = true ∧ (s.thread u).trapEntry = some (entryNamed (reads s u a)) ∧
    reads s u a = (s.thread u).trapRec.r3 ∧ handleGood s.here u (reads s u a)
  apart : ∀ u ∈ s.active, ∀ v ∈ s.active, u ≠ v → entryNamed (reads s u a) ≠ entryNamed (reads s v a)

/-- GLEN of a thread's trap record, and the number of results that SEL asks for. -/
def groupWords (s : State) (u : Nat) : Nat := (s.thread u).trapRec.r0.toNat / 2 ^ 24 % 4
def resultsAsked (s : State) : Nat := s.ext.sel.toNat / 4 + 1

/-! ## Counters, contexts, checkpoints and deadlines (R370, R375, R381 to R384) -/

/-- The cycles that a thread has left before WATCHDOG (R384). -/
def unitsOf (y : Thread) : Word := BitVec.ofInt 32 ((y.dl * 1024 : Nat) - (y.yc : Int))

/-- The events of a counter that are less than 64 cycles old. -/
def freshEvents (s : State) (n : Nat) : Nat :=
  (((AMap.lookD (s.vf (myVf s)).perfnew n []).filter (fun e => decide (s.now < e.1 + 64))).map (fun e => e.2)).sum

/-- The counter's EVENT is one that the model counts in full: instances, not cycles or transfers of the memory system (log 47). -/
def countedEvent (w : Word) : Prop :=
  w.toNat / 2 ^ 31 = 0 ∨ w.toNat % 256 ∈ [0, 1, 2, 3, 7, 8, 0x0C, 0x0D, 0x0E, 0x0F]

/-- What PERF reads of a counter, and leaves of it when it clears it: the count but for some of the events of the last 64 cycles,
or the count before a PERFSEL write less than 4 cycles ago (R380, R381). -/
def counted (s t : State) (n : Nat) (v : DWord) : Prop :=
  let count := (AMap.lookD (s.vf (myVf s)).perfcnt n 0#64).toNat
  countedEvent (AMap.lookD (s.vf (myVf s)).perfsel n 0#32) → freshEvents s n ≤ count →
    ∃ raw : DWord, meetsSys s noUid (0x118 + n) raw v ∧ raw.toNat ≤ count ∧ count ≤ raw.toNat + freshEvents s n ∧
      (s.ext.sel = 1#4 → (AMap.lookD (t.vf (myVf s)).perfcnt n 0#64).toNat + raw.toNat ≤ count + 1)

/-- The run is system software of the system VF (R377). -/
def ofSystem (s : State) : Prop := atLevelOne s ∧ s.isSys (myVf s) = true

/-- One value in register `d` of each lane that executes a word, which takes so many cycles. -/
structure OneValue (s t : State) (d : Reg) (w : Word) (cycles : Nat) : Prop where
  value : ∀ u ∈ s.active, ∀ q, s.here.cell u d = some q → (t.core s.cur.core).rowWord q.1 q.2 = w
  active : ∀ u ∈ s.active, Thread.onlyNotes { ((s.thread u).issued true) with busy := s.here.clock + cycles } ((t.core s.cur.core).th u)

/-- The run of a CKPT word is held until it completes, 40 cycles after its issue (R383); `mid` says that a restore still reads as in
progress then. -/
def ckptHeld (s t : State) (d : Reg) (mid : Bool) : Prop :=
  ∀ u ∈ s.active, (t.core s.cur.core).th u = queueing s (.later (s.here.clock + 40) (.ckpt d mid)) u ((s.thread u).issued true)

/-- The selector of HALTCTX: a VF of the partition that is not the system's, and a step (R382). -/
structure GoodContext (s : State) (x : Nat) : Prop where
  reserved : x / 2 ^ 6 % 4 = 0 ∧ x < 2 ^ 10
  inside : (∃ p, s.partOfVf (x % 64) = some p) ∧ s.partOfVf (x % 64) = s.partOfVf (myVf s)
  other : s.isSys (x % 64) = false

/-- How a context stands: its state and the rung of the ladder it has reached. -/
def stands (s : State) (v : Nat) : Nat × Nat := ((s.vf v).ctx, (s.vf v).rung)

/-- Where HALTCTX takes a context (R365, R382). -/
def haltedTo (s : State) (v step : Nat) : Nat × Nat :=
  let x := s.vf v
  match step with
  | 0 => if x.ctx = 1 then (2, if x.pretimers.toNat / 2 ^ 10 % 2 ^ 12 = 0 then 2 else 1) else stands s v
  | 1 => if x.ctx = 1 ∨ (x.ctx = 2 ∧ x.rung < 2) then (2, 2) else stands s v
  | 2 => if x.ctx ≠ 0 ∧ x.rung < 3 then (2, 3) else stands s v
  | _ => stands s v

/-- A VF that a checkpoint of the partition covers (R370). -/
def coveredBy (x : Part) (v : Nat) : Bool := decide (v < 64) && x.vfmask.getLsbD v && !(x.sysvf == v)

/-! ## Requests in flight (R175 to R181, R184, R189, R205 to R209) -/

/-- The number that `n` bytes from a place spell, lowest first (R6). -/
def numAt (f : Nat → Byte) (a : Nat) : Nat → Nat
  | 0 => 0
  | n + 1 => (f a).toNat + 256 * numAt f (a + 1) n

/-- The words that a load of an SZ takes from the bytes at a place (R195). -/
def loaded (sz : BitVec 3) (f : Nat → Byte) (a : Nat) : List Word :=
  match sz.toNat with
  | 0 => [BitVec.ofNat 32 (f a).toNat]
  | 1 => [(f a).signExtend 32]
  | 2 => [BitVec.ofNat 32 (numAt f a 2)]
  | 3 => [(BitVec.ofNat 16 (numAt f a 2)).signExtend 32]
  | n => (List.range (if n = 4 then 1 else if n = 5 then 2 else 4)).map (fun k => BitVec.ofNat 32 (numAt f (a + 4 * k) 4))

/-- Bytes with a list written over them from a place. -/
def written (f : Nat → Byte) (a : Nat) (bs : List Byte) (x : Nat) : Byte :=
  if a ≤ x ∧ x < a + bs.length then getAt bs (x - a) 0#8 else f x

/-- The new value of an atomic from the old and the operand, of `w` bytes (R207, R219). -/
def renewed (op : AtomOp) (w o d : Nat) : Nat :=
  let sgn (x : Nat) : Int := (BitVec.ofNat (8 * w) x).toInt
  match op with
  | .add => (o + d) % 2 ^ (8 * w)
  | .min => if sgn o ≤ sgn d then o else d
  | .max => if sgn d ≤ sgn o then o else d
  | .umin => min o d
  | .umax => max o d
  | .and => o &&& d
  | .or => o ||| d
  | .xor => o ^^^ d
  | .fadd => (fp32.arith .rne false (addNum .rne (fp32.value o) (fp32.value d))).1
  | .fmin => pickOf false o d
  | .fmax => pickOf true o d
  | _ => d

/-- The bytes after one lane of an atomic on `w` bytes at a place (R219, R222). -/
def performed (op : AtomOp) (w : Nat) (at_ : Nat) (l : LaneReq) (f : Nat → Byte) : Nat → Byte :=
  let d := numAt (fun i => getAt l.data i 0#8) 0 w
  if op = .cas then (if numAt f at_ w = d then written f at_ l.data2 else f)
  else written f at_ ((List.range w).map (fun i => BitVec.ofNat 8 (renewed op w (numAt f at_ w) d / 256 ^ i)))

/-- A request by its number. -/
def requestOf (s : State) (k n : Nat) : Option Req := (s.core k).reqs.find? (fun r => r.id == n)

/-- A request that asks to write. -/
def asksWrite (r : Req) : Bool := match r.kind with | .load _ => false | .prefetch _ => false | .push _ => false | _ => true

/-- No earlier request of one of its threads, to the same line or the same scratchpad, is still to take effect (R189, R191,
R192). -/
def inTurn (c : Core) (r : Req) : Prop :=
  ∀ e ∈ c.reqs, e.id < r.id → e.stage ≠ .done → (∃ l ∈ e.lanes, ∃ m ∈ r.lanes, l.uid = m.uid) →
    if r.space = 0 then e.space ≠ 0 ∨ e.va ≠ r.va ∨ e.key.vf ≠ r.key.vf else e.space = 0 ∨ e.target ≠ r.target

/-- No group of the core waits for a request alone: a member of each has yet to arrive. -/
def groupsOpen (c : Core) : Prop := ∀ p ∈ c.groups, ∃ m ∈ p.2.members, m.2 ≠ some p.2.phase

/-- A request's line is plain, translated to `pa`, and stands in Brocade under its own key at that place, if at all. -/
structure PlainLine (s : State) (r : Req) (pa : Nat) : Prop where
  space : r.space = 0
  translated : r.pas = [pa] ∧ pa % 64 = 0
  format : r.key.t = 0 ∨ (s.tensor r.key.vf r.key.t).format ≠ 1
  alone : ∀ l ∈ s.brocade, l.key = r.key ∨ l.pa = some pa → l.key = r.key ∧ l.gen = s.genAt r.key ∧ l.pa = some pa
  coherent : Coherent s
  inside : ∀ l ∈ r.lanes, l.addr % 64 + r.width ≤ 64
  data : ∀ l ∈ r.lanes, asksWrite r = true → l.data.length = r.width ∧ (r.kind = .store ∨ l.data2.length = r.width ∨ l.data2 = [])

/-- The results and flags of a request's lanes are pending, each once, in places of their own, and no short-latency result is on its
way to one of those places (R37, R291). -/
structure Returns (c : Core) (ids : List Nat) : Prop where
  nodup : ids.Nodup
  pending : ∀ n ∈ ids, ∃ p, AMap.look c.pend n = some p ∧ p.uid ≠ feUid ∧ Holder.frontEnd ∉ p.holders
  places : ∀ n ∈ ids, ∀ p, AMap.look c.pend n = some p → ∀ ps ∈ p.dests, ps.Nodup ∧ ∀ q ∈ ps, q.2 < (c.row q.1).words.length
  apart : ∀ n ∈ ids, ∀ m ∈ ids, ∀ p q, AMap.look c.pend n = some p → AMap.look c.pend m = some q →
    ∀ i j x, x ∈ p.dests.getD i [] → x ∈ q.dests.getD j [] → n = m ∧ i = j
  last : ∀ n ∈ ids, ∀ p, AMap.look c.pend n = some p → ∀ ps ∈ p.dests, ∀ q ∈ ps, ∀ f ∈ (c.row q.1).fly, f.1 = q.2 → f.2.2 < c.clock

/-- How often the named results count flag `n` for a holder (R292). -/
def countsFor (c : Core) (ids : List Nat) (h : Holder) (n : Nat) : Nat :=
  (ids.map (fun i => match AMap.look c.pend i with | some p => if p.flag = some n then p.holders.count h else 0 | none => 0)).sum

/-- The named results have landed: each word in its places, each flag lowered wherever it is counted, and nothing else
changed on core `c` (R42, R291, R292). -/
structure Landed (c d : Core) (ids : List Nat) (vals : Nat → List Word) : Prop where
  gone : ∀ n, AMap.look d.pend n = if n ∈ ids then none else AMap.look c.pend n
  words : ∀ n ∈ ids, ∀ p, AMap.look c.pend n = some p → ∀ j w, (vals n)[j]? = some w → ∀ q ∈ p.dests.getD j [],
    1 ≤ (c.row q.1).count → d.rowWord q.1 q.2 = w
  kept : ∀ r w, 1 ≤ (c.row r).count →
    (∀ n ∈ ids, ∀ p, AMap.look c.pend n = some p → ∀ j < (vals n).length, (r, w) ∉ p.dests.getD j []) →
    d.rowWord r w = c.rowWord r w
  threads : ∀ u, { (d.th u) with early := (c.th u).early } =
    { (c.th u) with flags := (c.th u).flags.zipIdx.map (fun x => x.1 - countsFor c ids (.thread u) x.2) }
  entries : ∀ e, d.entry e = { (c.entry e) with flags := (c.entry e).flags.zipIdx.map (fun x => x.1 - countsFor c ids (.entry e) x.2) }
  rest : { d with pend := c.pend, rows := c.rows, threads := c.threads, damask := c.damask } = c

/-- The pending results of a request's lanes. -/
def laneIds (r : Req) : List Nat := r.lanes.map (fun l => l.pend)

/-- What lane `n` of a request gets, by the number of its pending result. -/
def byLane (r : Req) (f : LaneReq → List Word) (n : Nat) : List Word :=
  match r.lanes.find? (fun l => l.pend == n) with | some l => f l | none => []

/-- The byte of a request's line that a load on the core sees (R184): the L1's where the word is valid, else the home
slice's. -/
def seenByte (s : State) (k : Nat) (r : Req) (pa i : Nat) : Byte :=
  match (s.core k).l1.find? (fun l => l.key == r.key) with
  | some l => if l.valid.getLsbD (i / 4) then getAt l.data i 0#8 else s.physByte (pa + i)
  | none => s.physByte (pa + i)

/-- A sector of a request's line is valid in the core's L1. -/
def sectorHeld (s : State) (k : Nat) (r : Req) (i : Nat) : Prop :=
  ∃ l, (s.core k).l1.find? (fun l => l.key == r.key) = some l ∧ ∀ j < 4, l.valid.getLsbD (4 * i + j) = true

/-- Only core `k`, the lines in Brocade and performance counters changed. -/
def onlyCore (s t : State) (k : Nat) : Prop :=
  (∀ j, j ≠ k → t.core j = s.core j) ∧ s.sameVfs t ∧ { t with cores := s.cores, brocade := s.brocade, vfs := s.vfs } = s

/-- The words of a line that a request's lanes touch. -/
def touches (r : Req) (i : Nat) : Bool := r.lanes.any (fun l => decide (4 * i < l.addr % 64 + r.width) && decide (l.addr % 64 < 4 * i + 4))

/-- The fault record of a lane (R182). -/
def faultWords (r : Req) (l : LaneReq) (cause : Nat) : List Word :=
  let sz := match r.kind with
    | .load z => z.toNat
    | _ => match r.width with | 1 => 0 | 2 => 2 | 4 => 4 | 8 => 5 | _ => 6
  [l.tid, r.pc,
   BitVec.ofNat 32 (cause + 2 ^ 8 * sz + 2 ^ 11 * (if r.kind = .store ∧ r.space ≠ 1 then 1 else 0) + 2 ^ 12 * l.lane + 2 ^ 18 * ((r.nruns - 1) % 64) + 2 ^ 24 * r.buf),
   BitVec.ofNat 32 l.index, BitVec.ofNat 32 l.addr, BitVec.ofNat 32 (l.addr / 2 ^ 32 % 2 ^ 20),
   r.runMask.setWidth 32, (r.runMask >>> 32).setWidth 32]

/-- The requests of a core with one replaced. -/
def reqsWith (c : Core) (n : Nat) (f : Req → Req) : List Req := c.reqs.map (fun r => if r.id = n then f r else r)

/-- A single line's request may walk: it waits for its translation for the first time, or for room, and its tensor was not
dropped meanwhile. -/
def walking (s : State) (r : Req) : Prop :=
  (r.stage = .walk ∨ r.stage = .stuck) ∧ r.gone = false ∧ (r.key.t = 0 ∨ (s.tensor r.key.vf r.key.t).format ≠ 1)

/-- The translation cache of a core has no entry for a request. -/
def cacheMisses (s : State) (k : Nat) (r : Req) : Prop :=
  ∀ e ∈ (s.core k).tlb, e.vf = r.key.vf → e.va ≤ r.va → r.va < e.va + e.size → e.w = false ∧ asksWrite r = true

/-- A request's walk faults (R178), and whether on a leaf with W = 0. -/
def walkFaults (s : State) (r : Req) (protect : Bool) : Prop :=
  (s.leafOf r.key.vf r.va = none ∧ protect = false) ∨
    ∃ l, s.leafOf r.key.vf r.va = some l ∧ l.w = false ∧ asksWrite r = true ∧ protect = true

/-- The operand log has room for a request's word (R178): fewer than 64 faulting words, or its own among them. -/
def logHasRoom (c : Core) (r : Req) : Prop :=
  (∃ x ∈ c.reqs, x.word = r.word ∧ ∃ e, x.stage = .faulted e) ∨
    ∀ ws : List Nat, ws.Nodup → (∀ w ∈ ws, ∃ x ∈ c.reqs, x.word = w ∧ ∃ e, x.stage = .faulted e) → ws.length < 64

/-- The cluster's entry for a request's page (R176). -/
def pageEntry (s : State) (k : Nat) (r : Req) : Option (Nat × XEntry) :=
  (s.cluster (clusterOf k)).xtab.find? (fun p => p.2.vf == r.key.vf && p.2.page == r.va / 65536)

/-! ## Lines on the move (R190, R273, R278, R281, R335) -/

/-- Every byte of physical memory reads as before, and is poisoned as before, but where `changed` says. -/
def bytesKept (s t : State) (changed : Nat → Prop) : Prop :=
  ∀ a, ¬ changed a → t.physByte a = s.physByte a ∧ t.physPoison a = s.physPoison a

/-- A core lost the words that it owned of a line. -/
def ownersLose (t : State) (l : BLine) : Prop :=
  ∀ i k, (i, k) ∈ l.owner → ∀ x ∈ (t.core k).l1, x.key = l.key → x.valid.getLsbD i = false ∧ x.owned.getLsbD i = false

/-- Cores differ in their L1s alone. -/
def onlyL1s (s t : State) : Prop := ∀ k, { (t.core k) with l1 := (s.core k).l1 } = s.core k

/-- A migration may copy its next line: frames apart and aligned, its page drained, nothing that it writes frozen (R190, R371). -/
structure MayMove (s : State) (m : Migration) : Prop where
  frames : m.old % 65536 = 0 ∧ m.new % 65536 = 0 ∧ m.old ≠ m.new ∧ m.p < 1024
  leaf : m.leafAt % 8 = 0 ∧ m.leafAt / 65536 ≠ m.old / 65536 ∧ m.leafAt / 65536 ≠ m.new / 65536
  pieces : ∀ p ∈ s.parts, ∀ x ∈ p.2.pieces, x.drained = true ∨
    (x.pa ≠ m.old ∧ (x.pa ≠ m.new ∨ x.reserve.isSome = true) ∧ (x.pa ≠ m.leafAt / 65536 * 65536 ∨ x.reserve.isSome = true))
  apart : ∀ l ∈ s.brocade, l.pa ≠ some (m.new + 64 * m.p)
  coherent : Coherent s

/-- A place lies in the line that a migration copies to. -/
def inNewLine (m : Migration) (a : Nat) : Prop := m.new + 64 * m.p ≤ a ∧ a < m.new + 64 * m.p + 64

/-- The threads that wait with a leader. -/
abbrev waitWith (c : Core) (lead u : Nat) : Prop := u = lead ∨ (AMap.has c.threads u = true ∧ (c.th u).hold = .follow lead)

/-- No slice holds a line of an entry under its next generation (R273). -/
def unwrapped (s : State) (k n : Nat) : Prop :=
  ∀ l ∈ s.brocade, l.key.vf = s.vfOf k → l.key.t = n → l.gen ≠ ((s.tensor (s.vfOf k) n).gen + 1) % 4096

/-- A tensor word that waits may begin at the slices (R277, R278, R281, R331). -/
def mayStart (s : State) (k lead n : Nat) : SliceJob → Prop
  | .inv _ => (∀ u, waitWith (s.core k) lead u → ∀ r ∈ (s.core k).reqs, r.ofThread u = true → r.unregistered = false ∧ r.unread = false) ∧
      unwrapped s k n
  | .reg .. => unwrapped s k n
  | .make .. => unwrapped s k n
  | _ => ∀ p ∈ s.cores, ∀ r ∈ p.2.reqs, r.space = 0 → r.key.vf = s.vfOf k → r.key.t = n → r.stage ≠ .walk ∧ r.stage ≠ .ready

/-- A slice has applied a tensor word (R281): the lines that it held under the generation it matched are owned by nobody, and
keep their dirty sectors unless they are discarded. -/
structure Applied (s t : State) (v n slice : Nat) (discard : Bool) : Prop where
  bytes : bytesKept s t (fun a => discard = true ∧ ∃ l ∈ s.brocade, l.key.vf = v ∧ l.key.t = n ∧ s.home l.key = slice ∧
    l.pa = some (a / 64 * 64) ∧ l.dirty.getLsbD (a % 64 / 16) = true)
  owners : ∀ l ∈ s.brocade, l.key.vf = v → l.key.t = n → s.home l.key = slice → l.gen = s.genAt l.key → ownersLose t l
  lines : t.brocade.length = s.brocade.length

/-- Two threads, or two front ends, differ in what they wait for alone. -/
def onlyHold (t u : Thread) : Prop := { u with hold := t.hold } = t

/-- The page after one in a chain (R321, R335). -/
def nextIn (s : State) (c : Chase) : Word := s.nextPage c.vf c.t c.srec (BitVec.ofNat 32 c.page)

/-! ## Threads that wait, and agents that act for them (R69, R88, R214, R302, R323, R343, R344) -/

/-- LASTTRAP0 of a trap that ends a launch (R359, R363). -/
def endRecord (cause lane glen slot : Nat) (fe nest novec : Bool) : Word :=
  BitVec.ofNat 32 (cause + 2 ^ 13 + 2 ^ 14 * novec.toNat + 2 ^ 15 * nest.toNat + 2 ^ 16 * fe.toNat + 2 ^ 17 * slot + 2 ^ 24 * glen + 2 ^ 26 * lane)

/-- A thread spends the cycle that begins in a wait that counts: in SLEEP, parked, or waiting for a window peer or a row (R68). -/
def spends (y : Thread) : Bool := match y.hold with | .sleep n => n != 0 | .parked n _ => n != 0 | _ => y.stall

/-- A thread as the next cycle begins: such a cycle is counted in YC, and off the cycles of a SLEEP or an OFFER. -/
def afterCycle (y : Thread) : Thread :=
  { y with
    yc := if spends y then y.yc + 1 else y.yc, stall := false,
    hold := match y.hold with | .sleep n => .sleep (n - 1) | .parked n d => .parked (n - 1) d | h => h }

/-- One thread of core `k` changed, and nothing else of the machine. -/
def oneThread (s t : State) (k u : Nat) (y : Thread) : Prop :=
  (∀ j, j ≠ k → t.core j = s.core j) ∧ { t with cores := s.cores } = s ∧
    { (t.core k) with threads := (s.core k).threads, rows := (s.core k).rows } = s.core k ∧
    (∀ v, v ≠ u → (t.core k).th v = (s.core k).th v) ∧ Thread.onlyNotes y ((t.core k).th u)

/-- A thread's register may take a word now: its row is in use and held once (R291). -/
def placeOwned (c : Core) (u : Nat) (r : Reg) : Prop :=
  ∀ q, c.cell u r = some q → AMap.has c.rows q.1 = true ∧ q.2 < (c.row q.1).words.length

/-- Words written to consecutive registers of a thread, and to nothing else in the row store. -/
def wrote (c d : Core) (u : Nat) (r : Reg) (vals : List Word) : Prop :=
  (∀ j < vals.length, ∀ q, c.cell u (nth r j) = some q → d.rowWord q.1 q.2 = getAt vals j 0#32) ∧
    ∀ x w, (∀ j < vals.length, c.cell u (nth r j) ≠ some (x, w)) → d.rowWord x w = c.rowWord x w

/-- The registers of a block of a thread stand in places of their own. -/
def blockApart (c : Core) (u : Nat) (r : Reg) (n : Nat) : Prop :=
  ∀ i < n, ∀ j < n, ∀ q, c.cell u (nth r i) = some q → c.cell u (nth r j) = some q → i = j

/-- A lane of a pool word has ended with results, or with a failure (R323, R324): its registers and predicate are written, and
when it is the word's last lane the threads that waited go on. -/
structure LaneEnds (c d : Core) (l : PoolLane) (left : List Nat) (vals : List Word) (failed : Bool) : Prop where
  words : wrote c d l.uid l.dst vals
  rest : { d with threads := c.threads, rows := c.rows, poolWords := c.poolWords } = c
  pending : AMap.look d.poolWords l.word = if left.filter (fun u => u ≠ l.uid) = [] then none else some (left.filter (fun u => u ≠ l.uid), none)
  threads : ∀ u, Thread.onlyNotes
    (let y := if u = l.uid then marked l.pd failed (c.th u) else c.th u
     if left.filter (fun u => u ≠ l.uid) = [] ∧ (c.th u).hold = .pool l.word then { y with hold := .run } else y) (d.th u)

/-- The lane `l` is the next that the agent of pool `n` of VF `v` takes, and its word waits for the lanes `left`. -/
structure NextLane (s : State) (v n : Nat) (p : Pool) (l : PoolLane) (rest : List PoolLane) (left : List Nat) : Prop where
  pool : s.pool v n = some p
  queue : p.queue = l :: rest ∧ l ∉ rest ∧ l.copying = none ∧ l.dry = false
  runs : (s.vf (s.vfOf l.core)).rung ≠ 2
  word : AMap.look (s.core l.core).poolWords l.word = some (left, none) ∧ l.uid ∈ left ∧ left.Nodup
  holder : AMap.has (s.core l.core).threads l.uid = true
  places : ∀ j < 3, placeOwned (s.core l.core) l.uid (nth l.dst j)
  apart : blockApart (s.core l.core) l.uid l.dst 3
  last : ∀ e ∈ ((s.core l.core).th l.uid).early, e.outlasts e.code ((s.core l.core).clock + 4) = false
  coherent : Coherent s
  entry : (s.tensor v n).state = 1 ∧ (s.tensor v n).format = 2 ∧ (s.tensor v n).vbase % 64 = 0 ∧ p.seqbase % 64 = 0 ∧ 0 < p.pay
  /-- Every header is whole, in memory and at the agent. -/
  headers : ∀ g, ((s.header1 v n g).poison = false ∧ (s.header1 v n g).lost = false) ∧
    ∀ pa, s.walk v ((s.tensor v n).vbase + g * (64 + 8192 * p.pay)) false = .ok pa → ∀ i < 64, s.physPoison (pa + i) = false
  frozen : ∀ p ∈ s.parts, p.2.pieces = []

/-- A place of memory lies outside a pool's pages and records. -/
def outsidePool (s : State) (v n : Nat) (p : Pool) (a : Nat) : Prop :=
  ∀ va pa, (((s.tensor v n).vbase ≤ va ∧ va < (s.tensor v n).vbase + p.npages * (64 + 8192 * p.pay)) ∨
      (p.seqbase ≤ va ∧ va < p.seqbase + 64 * p.nseq)) → s.walk v (va / 64 * 64) true = .ok pa → a ≠ pa + va % 64

/-- A pool as its agent sees it: its headers, its sequence records, and how many pages of each tier the VF uses (R317, R320,
R328). -/
structure PoolView where
  hdr : Nat → PageHeader
  seq : Nat → SeqRec
  used : Nat → Nat
def viewOf (s : State) (v n : Nat) : PoolView := ⟨s.header1 v n, s.seq1 v n, fun tier => AMap.lookD (s.vf v).used tier 0⟩

/-- A view with one header, one record, or the count of one tier replaced. -/
def PoolView.setHdr (x : PoolView) (g : Nat) (h : PageHeader) : PoolView := { x with hdr := fun j => if j = g then h else x.hdr j }
def PoolView.setSeq (x : PoolView) (q : Nat) (r : SeqRec) : PoolView := { x with seq := fun j => if j = q then r else x.seq j }
def PoolView.setUsed (x : PoolView) (tier m : Nat) : PoolView := { x with used := fun j => if j = tier then m else x.used j }

/-- next(s, g), and the pages of a chain, each once, in order (R321). -/
def PoolView.next (x : PoolView) (q : Nat) (g : Word) : Word :=
  if g = (x.seq q).tail then 0xFFFFFFFF#32
  else match (x.seq q).branches.find? (fun b => b.1 == g) with
    | some b => b.2
    | none => (x.hdr g.toNat).succ
def PoolView.follows (x : PoolView) (q : Nat) : Word → List Word → Prop
  | g, [] => g = 0xFFFFFFFF#32
  | g, h :: l => g = h ∧ h ≠ 0xFFFFFFFF#32 ∧ x.follows q (x.next q h) l
def PoolView.chainIs (x : PoolView) (q : Nat) (ch : List Word) : Prop := x.follows q (x.seq q).head ch ∧ ch.Nodup

/-- relink(s, p, n), but for a sequence whose four branches are in use (R322). -/
inductive Relinked (x : PoolView) (q : Nat) : Option Word → Word → PoolView → Prop where
  | head (n : Word) : Relinked x q none n (x.setSeq q { (x.seq q) with head := n })
  | alone (p n : Word) : (x.hdr p.toNat).share = 1 → Relinked x q (some p) n
      ((x.setHdr p.toNat { (x.hdr p.toNat) with succ := n }).setSeq q
        { (x.seq q) with branches := (x.seq q).branches.filter (fun b => !(b.1 == p)) })
  | branch (p n : Word) : (x.hdr p.toNat).share ≠ 1 → (∃ b ∈ (x.seq q).branches, b.1 = p) → Relinked x q (some p) n
      (x.setSeq q { (x.seq q) with branches := (x.seq q).branches.map (fun b => if b.1 = p then (p, n) else b) })
  | added (p n : Word) : (x.hdr p.toNat).share ≠ 1 → (∀ b ∈ (x.seq q).branches, b.1 ≠ p) → (x.seq q).branches.length < 4 →
      Relinked x q (some p) n (x.setSeq q { (x.seq q) with branches := (x.seq q).branches ++ [(p, n)] })

/-- The header of a page as it stands free in pool `p` of VF `v` (R317). -/
def freeHdr (v : Nat) (p : Pool) (g : Nat) : PageHeader :=
  { vf := v, tier := if g < p.nhbm then 0 else 1, poison := false, valid := 0, share := 0, retired := 0#16, invalid := 0#16
    tags := List.replicate 16 0, first := 0#32, seq := 0xFFFFFFFF#32, pred := 0xFFFFFFFF#32, succ := 0xFFFFFFFF#32, lost := false }

/-- The page before one in a chain; none at the head. -/
def pageBefore (ch : List Word) (g : Word) (p : Option Word) : Prop :=
  (p = none ∧ ∃ l, ch = g :: l) ∨ ∃ a l m, p = some a ∧ ch = l ++ a :: g :: m

/-- unlink(s, g) of a page in the chain, and whether the page was released: its holder's next page takes its place, and at its last
holder the page is free again (R322). -/
def Unlinked (v : Nat) (p : Pool) (x : PoolView) (q : Nat) (g : Word) (z : PoolView) (released : Bool) : Prop :=
  ∃ ch before y, x.chainIs q ch ∧ pageBefore ch g before ∧ Relinked x q before (x.next q g) y ∧ 1 ≤ (x.hdr g.toNat).share ∧
    released = decide ((x.hdr g.toNat).share = 1) ∧
    z = let r := { (y.seq q) with branches := (y.seq q).branches.filter (fun b => !(b.1 == g)) }
        let w := y.setSeq q { r with
          tail := if r.tail = g then before.getD 0xFFFFFFFF#32 else r.tail, head := if r.head = g then x.next q g else r.head }
        if released = true then (w.setHdr g.toNat (freeHdr v p g.toNat)).setUsed (x.hdr g.toNat).tier (w.used (x.hdr g.toNat).tier - 1)
        else w.setHdr g.toNat { (w.hdr g.toNat) with share := (w.hdr g.toNat).share - 1 }

/-- Pages unlinked one after another, and how many of them were released. -/
inductive UnlinkedAll (v : Nat) (p : Pool) (q : Nat) : PoolView → List Word → PoolView → Nat → Prop where
  | nil (x : PoolView) : UnlinkedAll v p q x [] x 0
  | cons (x y z : PoolView) (g : Word) (gs : List Word) (one : Bool) (n : Nat) : Unlinked v p x q g y one → UnlinkedAll v p q y gs z n →
      UnlinkedAll v p q x (g :: gs) z (one.toNat + n)

/-- The slots of a page that carry a tag. -/
def carries (h : PageHeader) (tag k : Nat) : Bool := decide (k < h.valid) && getAt h.tags k 0 == tag
/-- A page is partly tagged (R337). -/
def partlyTagged (h : PageHeader) (tag : Nat) : Prop :=
  (∃ k < h.valid, carries h tag k = true ∧ h.retired.getLsbD k = false) ∧ ∃ k < h.valid, carries h tag k = false
/-- The slots that RSPAN retires. -/
def toRetire (h : PageHeader) (tag : Nat) : List Nat := (List.range 16).filter (fun k => carries h tag k && !(h.retired.getLsbD k))

/-- RSPAN over the pages of a chain: a page whose every slot carries the tag is unlinked, of another the tagged slots are retired;
pages unlinked, pages released and slots retired (R337). -/
inductive Retired (v : Nat) (p : Pool) (q tag : Nat) : PoolView → List Word → PoolView → Nat → Nat → Nat → Prop where
  | nil (x : PoolView) : Retired v p q tag x [] x 0 0 0
  | whole (x y z : PoolView) (g : Word) (gs : List Word) (one : Bool) (u f r : Nat) : (∀ k < (x.hdr g.toNat).valid, carries (x.hdr g.toNat) tag k = true) →
      Unlinked v p x q g y one → Retired v p q tag y gs z u f r → Retired v p q tag x (g :: gs) z (u + 1) (one.toNat + f) r
  | part (x z : PoolView) (g : Word) (gs : List Word) (u f r : Nat) : (∃ k < (x.hdr g.toNat).valid, carries (x.hdr g.toNat) tag k = false) →
      Retired v p q tag (x.setHdr g.toNat { (x.hdr g.toNat) with
        retired := (x.hdr g.toNat).retired ||| BitVec.ofNat 16 ((toRetire (x.hdr g.toNat) tag).map (2 ^ ·)).sum }) gs z u f r →
      Retired v p q tag x (g :: gs) z u f ((toRetire (x.hdr g.toNat) tag).length + r)

/-- R329 permits VF `v` a page of a tier, and a page of that tier is free. -/
def permitted (s : State) (v tier : Nat) : Prop :=
  let used := AMap.lookD (s.vf v).used tier 0
  let quota := AMap.lookD (s.vf v).quota tier 0xFFFFFFFF
  used < quota ∨ (used < quota + AMap.lookD (s.vf v).borrow tier 0 ∧ s.lowMark v tier < s.freePages v tier)
def freePage (s : State) (v n : Nat) (p : Pool) (tier g : Nat) : Prop :=
  (if tier = 0 then g < p.nhbm else p.nhbm ≤ g ∧ g < p.npages) ∧ (s.header1 v n g).share = 0 ∧ g ∉ p.quarantine

/-- alloc() gives page `g` of a tier: the lowest free page of the first tier that is permitted and has one (R322, R329). -/
def allocates (s : State) (v n : Nat) (p : Pool) (tier g : Nat) : Prop :=
  tier < 2 ∧ permitted s v tier ∧ freePage s v n p tier g ∧ (∀ j < g, ¬ freePage s v n p tier j) ∧
    (tier = 1 → ¬ permitted s v 0 ∨ ∀ j, ¬ freePage s v n p 0 j)
/-- alloc() gives none. -/
def allocatesNone (s : State) (v n : Nat) (p : Pool) : Prop := ∀ tier < 2, ¬ permitted s v tier ∨ ∀ g, ¬ freePage s v n p tier g

/-- The lines of a pool, its pages and its sequence records, stand apart in memory: each is mapped for reads and writes alike, no two at
one place, and no page table of the VF lies in them. -/
def poolLine (s : State) (v n : Nat) (p : Pool) (va : Nat) : Prop :=
  va % 64 = 0 ∧ (((s.tensor v n).vbase ≤ va ∧ va < (s.tensor v n).vbase + p.npages * (64 + 8192 * p.pay)) ∨
    (p.seqbase ≤ va ∧ va < p.seqbase + 64 * p.nseq))
structure PoolApart (s : State) (v n : Nat) (p : Pool) : Prop where
  based : (s.tensor v n).vbase % 64 = 0 ∧ p.seqbase % 64 = 0
  mapped : ∀ va, poolLine s v n p va → ∃ pa, s.walk v va true = .ok pa ∧ s.walk v va false = .ok pa
  apart : ∀ va vb pa, poolLine s v n p va → poolLine s v n p vb → s.walk v va false = .ok pa → s.walk v vb false = .ok pa → va = vb
  stable : ∀ u : State, (∀ w, (u.vf w).ptroot = (s.vf w).ptroot) → (∀ w pa, u.vfOwns w pa = s.vfOwns w pa) → (∀ d, (u.die d).mig = (s.die d).mig) →
    (∀ a, outsidePool s v n p a → u.physByte a = s.physByte a) → ∀ va write, u.walk v va write = s.walk v va write
  coherent : Coherent s ∧ ∀ q ∈ s.parts, q.2.pieces = []

/-- A pool after copypage(s, g) into page `m` of a tier, where relink needs no further copies: the new page stands in the old one's
place, held once, with its slots; the old one has a holder less (R322). `bad` says whether its payload is poisoned (R326). -/
def CopiedView (s : State) (v n q g m tier : Nat) (p : Pool) (bad : Bool) (z : PoolView) : Prop :=
  let x := viewOf s v n
  let h := x.hdr g
  let old : Word := BitVec.ofNat 32 g
  let new : Word := BitVec.ofNat 32 m
  ∃ before y, pageBefore (s.chain v n q) old before ∧
    Relinked ((((x.setUsed tier (x.used tier + 1)).setHdr m
        { (freeHdr v p m) with
          first := h.first, valid := h.valid, retired := h.retired, invalid := h.invalid, tags := h.tags, poison := bad, share := 1
          seq := BitVec.ofNat 32 q, pred := before.getD 0xFFFFFFFF#32, succ := s.nextPage v n (x.seq q) old }).setSeq q
        { (x.seq q) with branches := (x.seq q).branches.filter (fun b => !(b.1 == old)) }).setHdr g
        { h with share := h.share - 1, poison := h.poison || bad }) q before new y ∧
    z = if (y.seq q).tail = old then y.setSeq q { (y.seq q) with tail := new } else y

/-- Page `g` of a sequence has been copied into page `m`, the one that alloc() gives: payload, header and place in the chain (R322,
R333). -/
structure PageCopied (s t : State) (v n q g m : Nat) : Prop where
  view : ∃ p tier, s.pool v n = some p ∧ allocates s v n p tier m ∧
    ((s.chain v n q).Nodup → g < 2 ^ 32 → m < 2 ^ 32 → (((viewOf s v n).seq q).branches.filter (fun b => !(b.1 == BitVec.ofNat 32 g))).length < 4 →
      ∃ bad z, CopiedView s v n q g m tier p bad z ∧ (∀ j, t.header1 v n j = z.hdr j) ∧ (∀ i, t.seq1 v n i = z.seq i) ∧
        (∀ k, AMap.lookD (t.vf v).used k 0 = z.used k) ∧
        ((∀ i < 64 + 8192 * p.pay, ∀ pa, s.walk v ((s.tensor v n).vbase + g * (64 + 8192 * p.pay) + i / 64 * 64) false = .ok pa →
          s.physPoison (pa + i % 64) = false) → bad = false))
  payload : ∀ p, s.pool v n = some p → PoolApart s v n p → g < p.npages → m < p.npages → ∀ i, 64 ≤ i → i < 64 + 8192 * p.pay →
    vaByte t v ((s.tensor v n).vbase + m * (64 + 8192 * p.pay) + i) = vaByte s v ((s.tensor v n).vbase + g * (64 + 8192 * p.pay) + i)

/-- What a copy request is answered with (R325, R333): no longer needed; POOL_DRY, where alloc() gives no page to the copy or to those
that relink needs beside it; or the new page. -/
inductive CopyAnswer (s t : State) (r : CopyReq) : Word → Prop where
  | unneeded : ((s.seq1 r.vf r.t r.s).live = false ∨ BitVec.ofNat 32 r.g ∉ s.chain r.vf r.t r.s ∨ (s.header1 r.vf r.t r.g).share ≤ 1) →
      CopyAnswer s t r 0xFFFFFFFE#32
  | dry (p : Pool) : (s.seq1 r.vf r.t r.s).live = true → BitVec.ofNat 32 r.g ∈ s.chain r.vf r.t r.s → 1 < (s.header1 r.vf r.t r.g).share →
      s.pool r.vf r.t = some p → allocatesNone s r.vf r.t p ∨ 4 ≤ (s.seq1 r.vf r.t r.s).branches.length → CopyAnswer s t r 0xFFFFFFFF#32
  | copied (m : Nat) : (s.seq1 r.vf r.t r.s).live = true → BitVec.ofNat 32 r.g ∈ s.chain r.vf r.t r.s → 1 < (s.header1 r.vf r.t r.g).share →
      PageCopied s t r.vf r.t r.s r.g m → CopyAnswer s t r (BitVec.ofNat 32 m)

/-- What KV_RECLAIM sends where an allocation of a tier takes FREE to LOWMARK: the interrupt of every VF of the partition that then
uses more than its quota (R329). -/
def reclaims (s : State) (v tier : Nat) : List Message :=
  match s.partOfVf v with
  | none => []
  | some part =>
    if s.lowMark v tier < s.freePages v tier ∧ s.freePages v tier - 1 ≤ s.lowMark v tier then
      ((s.vfsOf part).filter (fun w => decide (AMap.lookD (s.vf w).quota tier 0xFFFFFFFF <
          AMap.lookD (s.vf w).used tier 0 + if w = v then 1 else 0))).map
        (fun w => if s.funcBit w 1 = true then .msixVf w 1 else .osInterrupt part w)
    else []

/-- What an operation leaves of a pool: the view, the queue, and nothing else of the pool; of memory only the pool's own pages and
records. -/
structure PoolChanged (s t : State) (v n : Nat) (p : Pool) (queue : List PoolLane) (y : PoolView) : Prop where
  headers : ∀ g, t.header1 v n g = y.hdr g
  records : ∀ i, t.seq1 v n i = y.seq i
  pool : ∃ q, t.pool v n = some q ∧ { q with headers := p.headers, seqs := p.seqs } = { p with queue := queue }
  others : ∀ w m, ¬ (w = v ∧ m = n) → t.pool w m = s.pool w m
  bytes : ∀ a, outsidePool s v n p a → t.physByte a = s.physByte a

/-- The rest of the machine after an operation of a pool: cores but the lane's own differ in their L1s alone, VFs in this pool
and the VF's count of pages alone, and the device in its memory and lines and in what was sent. -/
def poolOnly (s t : State) (v k : Nat) (y : PoolView) (sent : List Message) : Prop :=
  (∀ w, { (t.vf w) with pools := (s.vf w).pools, used := (s.vf w).used, perfcnt := (s.vf w).perfcnt, perfnew := (s.vf w).perfnew } = s.vf w) ∧
    (∀ w, w ≠ v → (t.vf w).pools = (s.vf w).pools ∧ (t.vf w).used = (s.vf w).used) ∧
    (∀ tier, AMap.lookD (t.vf v).used tier 0 = y.used tier) ∧
    (∀ j, j ≠ k → { (t.core j) with l1 := (s.core j).l1 } = s.core j) ∧ t.out = s.out ++ sent ∧
    { t with mem := s.mem, poison := s.poison, brocade := s.brocade, cores := s.cores, vfs := s.vfs, dies := s.dies, out := s.out } = s

/-- A sequence of a pool is in use (R320). -/
def seqLive (s : State) (v n : Nat) (p : Pool) (q : Nat) : Prop := q < p.nseq ∧ (s.seq1 v n q).live = true

/-- The pages of a sequence's chain, in order: each has its header at the agent and no more slots in use than it has. -/
def chainRead (s : State) (v n : Nat) (p : Pool) (q : Nat) (ch : List Word) : Prop :=
  (viewOf s v n).chainIs q ch ∧ ∀ g ∈ ch, AMap.has p.headers g.toNat = true ∧ g.toNat < p.npages ∧ (s.header1 v n g.toNat).valid ≤ 16

/-- KVAPP's slot: the tag at slot VALID, which is neither invalid nor retired (R332). -/
def withSlotTag (h : PageHeader) (tag : Nat) : PageHeader :=
  { h with tags := h.tags.set h.valid tag, valid := h.valid + 1
           invalid := h.invalid &&& ~~~(1#16 <<< h.valid), retired := h.retired &&& ~~~(1#16 <<< h.valid) }

/-- The first `m` slots of a page are left (R334). -/
def shortened (h : PageHeader) (m : Nat) : PageHeader :=
  let keep : BitVec 16 := BitVec.ofNat 16 (2 ^ m - 1)
  { h with valid := m, invalid := h.invalid &&& keep, retired := h.retired &&& keep, tags := h.tags.take m ++ List.replicate (16 - m) 0 }

/-- A lane operation that succeeds, the pool that it leaves, what it sends and its results (R331 to R337). -/
inductive LaneResult (s : State) (v n : Nat) (p : Pool) : PoolOp → PoolView → List Message → List Word → Prop where
  | newSeq (pos : Word) (i : Nat) : i < p.nseq → (s.seq1 v n i).live = false → (∀ j < i, (s.seq1 v n j).live = true) →
      LaneResult s v n p (.newSeq pos) ((viewOf s v n).setSeq i ⟨0xFFFFFFFF#32, 0xFFFFFFFF#32, pos, true, []⟩) [] [BitVec.ofNat 32 i, 0#32, 0#32]
  | app (q tag : Nat) (r : SeqRec) (h : PageHeader) : seqLive s v n p q → r = s.seq1 v n q → h = s.header1 v n r.tail.toNat →
      r.nextPos ≠ 0xFFFFFFFF#32 → r.tail ≠ 0xFFFFFFFF#32 → h.valid < 16 → h.share ≤ 1 → h.tags.length = 16 →
      LaneResult s v n p (.app q tag)
        (((viewOf s v n).setHdr r.tail.toNat (withSlotTag h tag)).setSeq q { r with nextPos := r.nextPos + 1#32 }) []
        [r.tail, BitVec.ofNat 32 h.valid, r.nextPos]
  | appPage (q tag tier g : Nat) (r : SeqRec) (y : PoolView) : seqLive s v n p q → r = s.seq1 v n q → r.nextPos ≠ 0xFFFFFFFF#32 →
      (r.tail = 0xFFFFFFFF#32 ∨ (s.header1 v n r.tail.toNat).valid = 16) → allocates s v n p tier g → g ≠ r.tail.toNat → g < 2 ^ 32 →
      Relinked (((viewOf s v n).setUsed tier ((viewOf s v n).used tier + 1)).setHdr g
          { (freeHdr v p g) with share := 1, first := r.nextPos, seq := BitVec.ofNat 32 q, pred := r.tail })
        q (if r.tail = 0xFFFFFFFF#32 then none else some r.tail) (BitVec.ofNat 32 g) y →
      LaneResult s v n p (.app q tag)
        ((y.setSeq q { (y.seq q) with tail := BitVec.ofNat 32 g, nextPos := r.nextPos + 1#32 }).setHdr g (withSlotTag (y.hdr g) tag))
        (reclaims s v tier) [BitVec.ofNat 32 g, 0#32, r.nextPos]
  | fork (q i : Nat) : seqLive s v n p q → i < p.nseq → (s.seq1 v n i).live = false → (∀ j < i, (s.seq1 v n j).live = true) →
      (∀ g ∈ s.chain v n q, (s.header1 v n g.toNat).share < 255) → (s.chain v n q).Nodup →
      LaneResult s v n p (.fork q)
        { (viewOf s v n).setSeq i (s.seq1 v n q) with
          hdr := fun g => if BitVec.ofNat 32 g ∈ s.chain v n q ∧ g < 2 ^ 32 then { (s.header1 v n g) with share := (s.header1 v n g).share + 1 }
            else s.header1 v n g }
        [] [BitVec.ofNat 32 i, 0#32, 0#32]
  | freeNone (q : Nat) : seqLive s v n p q → (s.seq1 v n q).head = 0xFFFFFFFF#32 →
      LaneResult s v n p (.free q) ((viewOf s v n).setSeq q ⟨0#32, 0#32, 0#32, false, []⟩) [] [0#32, 0#32, 0#32]
  | free (q f : Nat) (ch : List Word) (y : PoolView) : seqLive s v n p q → chainRead s v n p q ch →
      UnlinkedAll v p q (viewOf s v n) ch y f →
      LaneResult s v n p (.free q) (y.setSeq q ⟨0#32, 0#32, 0#32, false, []⟩) [] [BitVec.ofNat 32 ch.length, BitVec.ofNat 32 f, 0#32]
  | truncNone (q pos : Nat) : seqLive s v n p q → (s.seq1 v n q).nextPos.toNat ≤ pos →
      LaneResult s v n p (.trunc q pos) (viewOf s v n) [] [0#32, 0#32, 0#32]
  | trunc (q pos f : Nat) (ch later : List Word) (y : PoolView) (g : Word) (h : PageHeader) : seqLive s v n p q →
      pos < (s.seq1 v n q).nextPos.toNat → chainRead s v n p q ch →
      later = ch.filter (fun g => decide (pos ≤ (s.header1 v n g.toNat).first.toNat)) →
      UnlinkedAll v p q (viewOf s v n) later.reverse y f → g = (y.seq q).tail → h = y.hdr g.toNat →
      (g ≠ 0xFFFFFFFF#32 ∧ pos < h.first.toNat + h.valid → h.share ≤ 1) →
      LaneResult s v n p (.trunc q pos)
        ((if g ≠ 0xFFFFFFFF#32 ∧ pos < h.first.toNat + h.valid then y.setHdr g.toNat (shortened h (pos - h.first.toNat)) else y).setSeq q
          { (y.seq q) with nextPos := BitVec.ofNat 32 pos })
        [] [BitVec.ofNat 32 later.length, BitVec.ofNat 32 f, 0#32]
  | walkEnd (q : Nat) (g : Word) (r : SeqRec) : seqLive s v n p q → r = s.seq1 v n q →
      (g = 0xFFFFFFFF#32 ∧ r.head = 0xFFFFFFFF#32) ∨ (g ≠ 0xFFFFFFFF#32 ∧ g.toNat < p.npages ∧ s.nextPage v n r g = 0xFFFFFFFF#32) →
      LaneResult s v n p (.walk q g) (viewOf s v n) [] [0xFFFFFFFF#32, r.nextPos, 0#32]
  | walk (q : Nat) (g m : Word) (r : SeqRec) (h : PageHeader) : seqLive s v n p q → r = s.seq1 v n q →
      (g = 0xFFFFFFFF#32 ∧ m = r.head) ∨ (g ≠ 0xFFFFFFFF#32 ∧ g.toNat < p.npages ∧ m = s.nextPage v n r g) → m ≠ 0xFFFFFFFF#32 →
      h = s.header1 v n m.toNat → h.valid ≤ 16 →
      LaneResult s v n p (.walk q g) (viewOf s v n) []
        [m, h.first, BitVec.ofNat 32 (h.valid * 2 ^ 16 +
          (((List.range 16).filter (fun k => decide (k < h.valid) && !(h.invalid.getLsbD k) && !(h.retired.getLsbD k))).map (2 ^ ·)).sum)]
  | inv (set : Bool) (q g : Nat) (m k x : BitVec 16) (h : PageHeader) : seqLive s v n p q → BitVec.ofNat 32 g ∈ s.chain v n q →
      g < 2 ^ 32 → h = s.header1 v n g → k = BitVec.ofNat 16 (2 ^ h.valid - 1) →
      x = (if set = true then h.invalid ||| (m &&& k) else h.invalid &&& ~~~(m &&& k)) →
      h.share ≤ 1 ∨ x = h.invalid →
      LaneResult s v n p (.inv set q g m) ((viewOf s v n).setHdr g { h with invalid := x }) []
        [x.setWidth 32, BitVec.ofNat 32 h.valid, BitVec.ofNat 32 g]
  | rspanNone (q tag : Nat) : seqLive s v n p q →
      (∀ g ∈ s.chain v n q, 0 < (s.header1 v n g.toNat).valid ∧ ∀ k < (s.header1 v n g.toNat).valid, getAt (s.header1 v n g.toNat).tags k 0 ≠ tag) →
      LaneResult s v n p (.rspan q tag) (viewOf s v n) [] [0#32, 0#32, 0#32]
  | rspan (q tag u f r : Nat) (ch : List Word) (y : PoolView) : seqLive s v n p q → chainRead s v n p q ch →
      (∀ g ∈ ch, partlyTagged (s.header1 v n g.toNat) tag → (s.header1 v n g.toNat).share ≤ 1) →
      Retired v p q tag (viewOf s v n) ch y u f r →
      LaneResult s v n p (.rspan q tag) y [] [BitVec.ofNat 32 u, BitVec.ofNat 32 f, BitVec.ofNat 32 r]

/-- A lane operation that fails, and its REASON (R324). -/
inductive LaneFails (s : State) (v n : Nat) (p : Pool) : PoolOp → Word → Prop where
  | badSeq (op : PoolOp) (q : Nat) : (∀ pos, op ≠ .newSeq pos) → op.seq = some q → ¬ seqLive s v n p q → LaneFails s v n p op 2#32
  | noRecord (op : PoolOp) : (∀ j < p.nseq, (s.seq1 v n j).live = true) →
      ((∃ pos, op = .newSeq pos) ∨ ∃ q, op = .fork q ∧ seqLive s v n p q) → LaneFails s v n p op 3#32
  | position (q tag : Nat) : seqLive s v n p q → (s.seq1 v n q).nextPos = 0xFFFFFFFF#32 → LaneFails s v n p (.app q tag) 6#32
  | notThere (set : Bool) (q g : Nat) (m : BitVec 16) : seqLive s v n p q → BitVec.ofNat 32 g ∉ s.chain v n q →
      LaneFails s v n p (.inv set q g m) 4#32
  | noHeader (q : Nat) (g : Word) : seqLive s v n p q → g ≠ 0xFFFFFFFF#32 → p.npages ≤ g.toNat → LaneFails s v n p (.walk q g) 4#32
  | dry (q tag : Nat) : seqLive s v n p q → (s.seq1 v n q).nextPos ≠ 0xFFFFFFFF#32 →
      ((s.seq1 v n q).tail = 0xFFFFFFFF#32 ∨ (s.header1 v n (s.seq1 v n q).tail.toNat).valid = 16) → allocatesNone s v n p →
      LaneFails s v n p (.app q tag) 1#32

/-- A lane that needs a private copy of a page (R332, R334, R336, R337). -/
inductive LaneCopies (s : State) (v n : Nat) (p : Pool) : PoolOp → Nat → Nat → Prop where
  | app (q tag : Nat) (r : SeqRec) : seqLive s v n p q → r = s.seq1 v n q →
      r.nextPos ≠ 0xFFFFFFFF#32 → r.tail ≠ 0xFFFFFFFF#32 → (s.header1 v n r.tail.toNat).valid ≠ 16 → 1 < (s.header1 v n r.tail.toNat).share →
      LaneCopies s v n p (.app q tag) q r.tail.toNat
  | inv (set : Bool) (q g : Nat) (m k : BitVec 16) (h : PageHeader) : seqLive s v n p q → BitVec.ofNat 32 g ∈ s.chain v n q →
      g < 2 ^ 32 → h = s.header1 v n g → k = BitVec.ofNat 16 (2 ^ h.valid - 1) → 1 < h.share → (if set = true then h.invalid ||| (m &&& k) else h.invalid &&& ~~~(m &&& k)) ≠ h.invalid →
      LaneCopies s v n p (.inv set q g m) q g
  | trunc (q pos f : Nat) (ch : List Word) (y : PoolView) : seqLive s v n p q → pos < (s.seq1 v n q).nextPos.toNat → chainRead s v n p q ch →
      UnlinkedAll v p q (viewOf s v n) (ch.filter (fun g => decide (pos ≤ (s.header1 v n g.toNat).first.toNat))).reverse y f →
      (y.seq q).tail ≠ 0xFFFFFFFF#32 → pos < (y.hdr (y.seq q).tail.toNat).first.toNat + (y.hdr (y.seq q).tail.toNat).valid →
      1 < (y.hdr (y.seq q).tail.toNat).share → LaneCopies s v n p (.trunc q pos) q (y.seq q).tail.toNat
  | rspan (q tag : Nat) (g : Word) (ch pre post : List Word) : seqLive s v n p q → chainRead s v n p q ch → ch = pre ++ g :: post →
      partlyTagged (s.header1 v n g.toNat) tag → 1 < (s.header1 v n g.toNat).share →
      (∀ h ∈ pre, partlyTagged (s.header1 v n h.toNat) tag → (s.header1 v n h.toNat).share ≤ 1) →
      LaneCopies s v n p (.rspan q tag) q g.toNat

/-- The words of a message as XQRECV.draft writes them (R344): LIMIT is the first drafted identifier out of range. -/
def drafted (vocab pad : Word) (ws w : List Word) : Prop :=
  let w1 := (getAt ws 1 0#32).toNat
  let n := min (w1 % 16) 8
  let out (k : Nat) : Prop := let id := (getAt ws (2 + k) 0#32).toNat
    vocab.toNat % 2 ^ 20 ≤ id ∨ (pad.toNat % 2 ^ 20 ≤ id ∧ id < pad.toNat % 2 ^ 20 + pad.toNat / 2 ^ 20)
  ∃ lim, lim ≤ n ∧ (∀ k < lim, ¬ out k) ∧ (lim < n → out lim) ∧
    w = ws.set 1 (BitVec.ofNat 32 (w1 % 2 ^ 8 + lim * 2 ^ 8 + w1 / 2 ^ 12 * 2 ^ 12))

/-- The threads of a run that wait with a leader, on a core of a launch that runs on (R343, R344). -/
structure Queueing (s : State) (k lead : Nat) : Prop where
  runs : s.tearing k = false ∧ (s.vf (s.vfOf k)).rung ≠ 2
  thread : lead < feUid ∧ AMap.has (s.core k).threads lead = true

/-- A queue of a die. -/
def queueOf (s : State) (d src ch : Nat) : List XqMsg := AMap.lookD (s.die d).xq (2 * src + ch) []

/-! ## Engine launches (R230 to R240) -/

/-- An engine word takes effect where this answers, with the slots after it, and is refused where it does not (R231). -/
def accepted (c : Cluster) (n : Nat) : EngineOp → Option (Nat → JSlot)
  | .ndef false =>
      if (c.slot n).state < 2 then
        some (fun m => if m = n then { (c.slot m) with kind := 0, cmd := ⟨0#128, 0#128, 0#128, 0#128⟩, state := 1 } else c.slot m)
      else none
  | .ndef true =>
      if (c.slot n).state = 1 ∧ (c.slot n).npred = 0 ∧ (c.slot n).succ = [] then
        some (fun m => if m = n then { (c.slot m) with state := 0 } else c.slot m)
      else none
  | .load kind cmd =>
      if (c.slot n).state < 2 then some (fun m => if m = n then { (c.slot m) with kind := kind, cmd := cmd, state := 1 } else c.slot m)
      else none
  | .nedge t false =>
      if (c.slot n).state = 1 ∧ (c.slot t).state = 1 ∧ n ≠ t ∧ t ∉ (c.slot n).succ ∧ (c.slot n).succ.length < 8 ∧ (c.slot t).npred < 8 then
        some (fun m => if m = n then { (c.slot m) with succ := (c.slot m).succ ++ [t] }
          else if m = t then { (c.slot m) with npred := (c.slot m).npred + 1, pleft := (c.slot m).pleft + 1 } else c.slot m)
      else none
  | .nedge t true =>
      if (c.slot n).state = 1 ∧ (c.slot t).state = 1 ∧ n ≠ t ∧ t ∈ (c.slot n).succ then
        some (fun m => if m = n then { (c.slot m) with succ := (c.slot m).succ.erase t }
          else if m = t then { (c.slot m) with npred := (c.slot m).npred - 1, pleft := (c.slot m).pleft - 1 } else c.slot m)
      else none
  | .nfire =>
      if (c.slot n).state = 1 ∨ ((c.slot n).state = 2 ∧ (c.slot n).fired = false) then
        some (fun m => if m = n then { (c.slot m) with
          fired := true, state := 2, queued := if (c.slot m).pleft = 0 then some c.nextLaunch else (c.slot m).queued } else c.slot m)
      else none
  | .nwait _ => some c.slot

/-- STATUS of a slot (R238). -/
def statusOf (j : JSlot) : Word :=
  if j.state = 0 then 0#32 else BitVec.ofNat 32 (j.gen.toNat * 2 ^ 24 + j.failed * 2 ^ 8 + j.refused.toNat * 2 ^ 7 + j.cause)

/-- A word of cluster `cl` that may be applied: the first unapplied one of its core, whose context no halt has stopped, once the
stores that it follows are registered (R232, R236, R239). -/
structure NextWord (s : State) (cl : Nat) (pre : List EngineWord) (w : EngineWord) (post : List EngineWord) : Prop where
  queue : (s.cluster cl).jwords = pre ++ w :: post
  first : w.atRest = false ∧ ∀ x ∈ pre, x.core = w.core → x.atRest = true
  stores : ∀ r ∈ (s.core w.core).reqs, r.id ∈ w.after → r.unregistered = false ∧ r.unread = false
  runs : s.stopped w.core = false

/-- Only cluster `cl` and the cores changed, and of the cluster only its slots, its engine words and its launch numbers. -/
def onlyUnit (s t : State) (cl : Nat) : Prop :=
  (∀ j, j ≠ cl → t.cluster j = s.cluster j) ∧ { t with cores := s.cores, clusters := s.clusters } = s ∧
    { (t.cluster cl) with jslots := (s.cluster cl).jslots, jwords := (s.cluster cl).jwords, nextLaunch := (s.cluster cl).nextLaunch } = s.cluster cl

/-- A word of the unit has been applied. -/
structure WordApplied (s t : State) (cl : Nat) (pre : List EngineWord) (w : EngineWord) (post : List EngineWord) : Prop where
  unit : onlyUnit s t cl
  slots : (∀ d, w.op ≠ .nwait d) → ∀ m, (t.cluster cl).slot m =
    match accepted (s.cluster cl) w.slot w.op with
    | some f => f m
    | none => if m = w.slot then { ((s.cluster cl).slot m) with refused := true } else (s.cluster cl).slot m
  launches : (t.cluster cl).nextLaunch = (s.cluster cl).nextLaunch +
    if w.op = .nfire ∧ (accepted (s.cluster cl) w.slot w.op).isSome = true ∧ ((s.cluster cl).slot w.slot).pleft = 0 then 1 else 0
  flag : (∀ d, w.op ≠ .nwait d) → (t.cluster cl).jwords = pre ++ post ∧ Landed (s.core w.core) (t.core w.core) w.pends (fun _ => [])
  rests : ∀ d, w.op = .nwait d → ((s.cluster cl).slot w.slot).state < 2 →
    (t.cluster cl).jwords = pre ++ post ∧
      Landed (s.core w.core) (t.core w.core) w.pends (fun _ => [statusOf ((s.cluster cl).slot w.slot)]) ∧
      ∀ m, (t.cluster cl).slot m = if m = w.slot then { ((s.cluster cl).slot m) with refused := false } else (s.cluster cl).slot m
  runs : ∀ d, w.op = .nwait d → 2 ≤ ((s.cluster cl).slot w.slot).state →
    (t.cluster cl).jwords = pre ++ { w with atRest := true } :: post ∧ t.cores = s.cores ∧ (t.cluster cl).slot = (s.cluster cl).slot
  others : ∀ k, k ≠ w.core → t.core k = s.core k

/-- Each slot is listed once. -/
def slotsListed (c : Cluster) : Prop := (c.jslots.map (fun p => p.1)).Nodup ∧ ∀ p ∈ c.jslots, p.1 < 256

/-- Channels in use (R232). -/
def channels (c : Cluster) : Nat :=
  ((List.range 256).filter (fun m => (c.slot m).state == 3 && !((c.slot m).kind == 0) && !((c.slot m).waitCh))).length

/-- A slot's launch came back with its context and waits for a channel, and no halt has stopped the context (R239). -/
def waitsForChannel (s : State) (cl m : Nat) : Prop := ((s.cluster cl).slot m).waitCh = true ∧ s.stopped (4 * cl + m / 64) = false

/-- The slot's number under which it became launchable, where it can launch now. -/
def canLaunch (s : State) (cl m : Nat) : Option Nat :=
  if s.stopped (4 * cl + m / 64) = false ∧ (((s.cluster cl).slot m).kind = 0 ∨ channels (s.cluster cl) < 4) then
    ((s.cluster cl).slot m).queued
  else none

/-- Fields of a descriptor (R237). -/
def descHigh (j : JSlot) : Nat := j.cmd.desc.toNat / 2 ^ 96
def descRows (j : JSlot) : Nat := j.cmd.desc.toNat / 2 ^ 80 % 2 ^ 16
def descLen (j : JSlot) : Nat := j.cmd.desc.toNat / 2 ^ 64 % 2 ^ 16
def descDst (j : JSlot) : Nat := j.cmd.desc.toNat / 2 ^ 64 % 2 ^ 32
def descSrc (j : JSlot) : Nat := j.cmd.desc.toNat / 2 ^ 32 % 2 ^ 32
def descNobar (j : JSlot) : Bool := j.cmd.desc.toNat / 2 ^ 31 % 2 == 1
def descBarrier (j : JSlot) : Nat := j.cmd.desc.toNat / 2 ^ 16 % 2 ^ 14

/-- The elements of a launch, and the bytes it credits (R235, R237). -/
def elements (j : JSlot) : Nat := if j.kind = 0 then 0 else if j.kind = 1 then descHigh j else descRows j * descLen j
def nominal (j : JSlot) : Nat := elements j * 2 ^ bEsize j.cmd.src

/-- The element of SRC that the next element comes from and the element of DST it goes to, with `x` the row's index entry: none
for a source of zeros and for a row that is skipped (R237). -/
def nextPair (j : JSlot) (x : Nat) : Option Nat × Option Nat :=
  let i := j.progress
  let gone : Option Nat := if x = 2 ^ 32 - 1 then none else some (x * descLen j + i % descLen j)
  if j.kind = 1 then (some (descSrc j + i), some (descDst j + i))
  else if j.kind = 2 then (gone, some (descHigh j + i))
  else (some (descHigh j + i), gone)

/-- A slot after its next element, which failed with the cause that is given: the failure is counted and the first cause kept; the
index entry goes with its row (R231, R238). -/
def advanced (j : JSlot) (cause : Option Nat) : JSlot :=
  { j with
    progress := j.progress + 1, stalled := none
    idxVal := if j.kind = 1 ∨ (j.progress + 1) % descLen j ≠ 0 then j.idxVal else none
    runFailed := if cause = none then j.runFailed else min 65535 (j.runFailed + 1)
    runCause := if j.runCause = 0 then cause.getD 0 else j.runCause }

/-- The slot stands in cluster `cl` and runs, no halt has stopped its context, and it stalls on no translation. -/
structure Moving (s : State) (cl n : Nat) (j : JSlot) : Prop where
  slot : (s.cluster cl).slot n = j
  running : j.state = 3 ∧ 1 ≤ j.kind ∧ j.kind ≤ 3 ∧ j.stalled = none ∧ j.waitCh = false
  runs : s.stopped (4 * cl + n / 64) = false
  named : n < 256

/-- The index entry of the row in hand has been read, or none is needed. -/
def entryRead (j : JSlot) (x : Nat) : Prop := j.kind = 1 ∨ j.idxVal = some (x, 0)

/-- Element `i` of a record lies in a plain, mapped line of memory that stands in Brocade under its own key, if at all; `pa` is the
element's own place (R173, R177, R233). -/
structure InMemory (s : State) (k : Nat) (b : BufRec) (i : Nat) (write : Bool) (pa : Nat) : Prop where
  space : bSpace b = 0
  formed : (s.form k (s.vfOf k) b i (2 ^ bEsize b) write).fault = none
  format : bTensor b = 0 ∨ (s.tensor (s.vfOf k) (bTensor b)).format ≠ 1
  small : bEsize b ≤ 4
  leaf : let a := (s.form k (s.vfOf k) b i (2 ^ bEsize b) write).addr
    ∃ l, s.leafOf (s.vfOf k) (a / 64 * 64) = some l ∧ (write = true → l.w = true) ∧
      pa = s.redirect (l.pa + a / 64 * 64 % l.size) + a % 64 ∧ pa % 64 = a % 64
  alone : let y := s.form k (s.vfOf k) b i (2 ^ bEsize b) write
    let key := s.keyOf (s.vfOf k) b i y.off y.addr
    ∀ l ∈ s.brocade, l.key = key ∨ l.pa = some (pa / 64 * 64) → l.key = key ∧ l.gen = s.genAt key ∧ l.pa = some (pa / 64 * 64)
  thawed : write = true → s.frozen pa = false
  coherent : Coherent s

/-- Element `i` of a record lies in a scratchpad that can be reached: the core, and the byte there (R187, R188, R233). -/
structure InScratch (s : State) (k : Nat) (b : BufRec) (i : Nat) (write : Bool) (core a : Nat) : Prop where
  space : bSpace b = 1 ∨ bSpace b = 2
  formed : (s.form k (s.vfOf k) b i (2 ^ bEsize b) write).fault = none ∧ (s.form k (s.vfOf k) b i (2 ^ bEsize b) write).waits = false
  place : (core, a) = scratchPlace k b (s.form k (s.vfOf k) b i (2 ^ bEsize b) write).addr

/-- Element `i` of a record holds these bytes and is not poisoned. -/
def holdsElement (s : State) (k : Nat) (b : BufRec) (i : Nat) (bs : List Byte) : Prop :=
  bs.length = 2 ^ bEsize b ∧
    ((∃ pa, InMemory s k b i false pa ∧ ∀ j < bs.length, s.physByte (pa + j) = getAt bs j 0#8 ∧ s.physPoison (pa + j) = false) ∨
     ∃ core a, InScratch s k b i false core a ∧ ∀ j < bs.length, (s.core core).scratch.read (a + j) = getAt bs j 0#8)

/-- Element `i` of a record can be written: in memory, free of poison there, or in a scratchpad. -/
def takesElement (s : State) (k : Nat) (b : BufRec) (i : Nat) : Prop :=
  (∃ pa, InMemory s k b i true pa ∧ ∀ j < 2 ^ bEsize b, s.physPoison (pa + j) = false) ∨ ∃ core a, InScratch s k b i true core a

/-- Element `i` of a record has taken these bytes, and every other byte of memory and of the scratchpads is as it was: in memory as
a registered store that no core owns (R184, R233). -/
def elementWritten (s t : State) (k : Nat) (b : BufRec) (i : Nat) (bs : List Byte) : Prop :=
  (∀ a, t.physPoison a = s.physPoison a) ∧
    ((∃ pa, InMemory s k b i true pa ∧ (∀ a, t.physByte a = written s.physByte pa bs a) ∧ onlyL1s s t ∧
        ∀ l ∈ s.brocade, l.pa = some (pa / 64 * 64) → ∀ n c, (n, c) ∈ l.owner → 4 * n < pa % 64 + bs.length → pa % 64 < 4 * n + 4 →
          ∀ x ∈ (t.core c).l1, x.key = l.key → x.valid.getLsbD n = false ∧ x.owned.getLsbD n = false) ∨
     ∃ core a, InScratch s k b i true core a ∧ (∀ x, t.physByte x = s.physByte x) ∧
       ∀ c, { (t.core c) with scratch := (s.core c).scratch } = s.core c ∧
         ∀ x, (t.core c).scratch.read x = if c = core then written (s.core c).scratch.read a bs x else (s.core c).scratch.read x)

/-- One slot of a cluster replaced, and nothing else of the machine. -/
def slotBecomes (s : State) (cl n : Nat) (j : JSlot) : State :=
  { s with clusters := AMap.put s.clusters cl { (s.cluster cl) with jslots := AMap.put (s.cluster cl).jslots n j } }

/-- Element `i` of a record is in memory, and its line has no translation for the access. -/
def elementUnmapped (s : State) (k : Nat) (b : BufRec) (i : Nat) (write protect : Bool) : Prop :=
  let y := s.form k (s.vfOf k) b i (2 ^ bEsize b) write
  bSpace b = 0 ∧ y.fault = none ∧ (bTensor b = 0 ∨ (s.tensor (s.vfOf k) (bTensor b)).format ≠ 1) ∧
    ((s.leafOf (s.vfOf k) (y.addr / 64 * 64) = none ∧ protect = false) ∨
     ∃ l, s.leafOf (s.vfOf k) (y.addr / 64 * 64) = some l ∧ l.w = false ∧ write = true ∧ protect = true)

/-- What a completion leaves in a slot: the successors' PLEFT falls, the launchable ones queue in ascending slot number, a running or
queued one holds the completion; the slot itself is IDLE and takes the completions it held (R231, R232). -/
def afterCompletion (c : Cluster) (n : Nat) (j : JSlot) (m : Nat) : JSlot :=
  let x := c.slot m
  let open_ (y : JSlot) : Bool := y.state == 1 || (y.state == 2 && decide (0 < y.pleft))
  let launches (y : JSlot) : Bool := open_ y && y.fired && y.pleft == 1
  if m = n then { j with
    fired := false, pleft := j.npred - j.heldPreds, gen := j.gen + 1#8, state := if j.heldPreds = 0 then 1 else 2
    failed := j.runFailed, cause := j.runCause, heldPreds := 0 }
  else if m ∉ j.succ then x
  else if open_ x = true then { x with
    pleft := x.pleft - 1, state := 2
    queued := if launches x = true then some (c.nextLaunch + (j.succ.filter (fun y => decide (y < m) && launches (c.slot y))).length) else x.queued }
  else if 2 ≤ x.state then { x with heldPreds := x.heldPreds + 1 } else x

/-- credit(b, m) took effect on a core's barrier, and on nothing else of its scratchpad (R214). -/
def barCredited (c d : Core) (b m : Nat) : Prop :=
  let y := { (c.bar b) with pending := ((c.bar b).pending + 2 ^ 48 - m % 2 ^ 48) % 2 ^ 48 }
  d.bar b = checked y ∧ onlyBars c d (fun n => n = b) ∧
    d.recheck = c.recheck ++ if checked y ≠ y ∧ (checked y).left = 0 then [b] else []

/-- The launch of a slot, whose fields stand in `j`, has completed: its barrier was credited, the NWAIT that waited at it, if any,
reads STATUS and clears REFUSED, and the slots stand as after the completion (R231, R235, R244). -/
structure LaunchCompleted (s t : State) (cl n : Nat) (j : JSlot) (wait : Option EngineWord) : Prop where
  unit : onlyUnit s t cl
  slots : ∀ m, (t.cluster cl).slot m = let y := afterCompletion (s.cluster cl) n j m
    if m = n ∧ wait.isSome = true then { y with refused := false } else y
  words : (t.cluster cl).jwords = (s.cluster cl).jwords.filter (fun w => !(w.atRest && w.slot == n))
  barrier : let own := 4 * cl + n / 64
    if j.kind = 0 ∨ descNobar j = true then (t.core own).scratch = (s.core own).scratch ∧ (t.core own).recheck = (s.core own).recheck
    else barCredited (s.core own) (t.core own) (descBarrier j) (nominal j)
  cores : ∀ k, Landed
    (if k = 4 * cl + n / 64 then
      { (s.core k) with scratch := (t.core k).scratch, recheck := (t.core k).recheck, resumeJ := (s.core k).resumeJ.erase n } else s.core k)
    (t.core k)
    (match wait with | some w => if w.core = k then w.pends else [] | none => [])
    (fun _ => [statusOf { j with gen := j.gen + 1#8, state := 1, failed := j.runFailed, cause := j.runCause }])

/-- A completion may take effect: the slots are listed once, the slot's successors are others, no more completions are held than
it has predecessors, and one NWAIT at most waits at it. -/
structure MayComplete (s : State) (cl n : Nat) (j : JSlot) (wait : Option EngineWord) : Prop where
  listed : slotsListed (s.cluster cl)
  others : n ∉ j.succ ∧ j.succ.Nodup
  held : j.heldPreds ≤ j.npred
  waits : (s.cluster cl).jwords.filter (fun w => w.atRest && w.slot == n) = wait.toList
  returns : ∀ w, wait = some w → Returns (s.core w.core) w.pends

/-! ## Matrix words at the engine (R245 to R268) -/

/-- A byte of an operand latch, and of a scale latch: side 0 A, 1 B (R245). -/
def latchByte (c : Core) (side sub row x : Nat) : Byte := getAt (c.latchRow side sub row) x 0#8
def scaleByte (c : Core) (side sub row x : Nat) : Byte := getAt (c.scaleRow side sub row) x 0#8

/-- A byte of a scratchpad record, swizzle included (R173, R187, R188). -/
def recByte (s : State) (k : Nat) (b : BufRec) (o : Nat) : Byte :=
  let p := scratchPlace k b (bBase b + swz (o / 16 * 16) (bSwz b) + o % 16)
  (s.core p.1).scratch.read p.2

/-- The byte offset of source row `j` of a latch load (R260). -/
def sourceRow (b : BufRec) (idx pitch j : Nat) : Nat := (idx + j * pitch) * 2 ^ bEsize b

/-- A byte of a record can be reached: its peer has started (R188). -/
def reachable (s : State) (k : Nat) (b : BufRec) (o : Nat) : Prop := (s.rowCheck k b o 1 1).2 = false

/-- A matrix word of core `k` is the first of its core, and its context goes on. -/
structure HeadWord (s : State) (k : Nat) (w : MatrixWord) (rest : List MatrixWord) : Prop where
  queue : (s.core k).mwords = w :: rest
  ids : ((s.core k).mwords.map (fun x => x.id)).Nodup
  runs : s.stopped k = false
  returns : Returns (s.core k) w.pends

/-- Every MMA of a core has been posted in the reservation table (R250). -/
def allPosted (c : Core) : Prop := ∀ x ∈ c.mwords, x.isMma = true → x.age ≠ 0

/-- A matrix word works on an accumulator index. -/
def worksOn (n : Nat) : MatrixOp → Bool
  | .mma a .. => a == n
  | .mzero _ a => a == n
  | .mst a .. => a == n
  | _ => false

/-- A pass of a cluster whose flag has not fallen: the one granted last, or the one before it (R251). -/
def passOf (c : Cluster) (p : Pass) : Prop := c.pass = some p ∨ c.ending = some p

/-- A pass on an index by a core is in progress. -/
def passRuns (s : State) (k n : Nat) : Prop := ∃ p, passOf (s.cluster (clusterOf k)) p ∧ p.core = k ∧ p.acc = n

/-- A pass is not on index `n` for the warp that claims it. -/
def passElsewhere (p : Option Pass) (x : Claim) (n : Nat) : Bool :=
  match p with | some p => !(p.core == x.core && p.word.warp == x.warp && p.acc == n) | none => true

/-- The claims of cluster `cl` after the words of `t` remain: a FREEING index is FREE when none of its warp's words on it does (R246). -/
def claimsSettled (s t : State) (cl : Nat) : Prop :=
  ∀ n, (t.cluster cl).claim n =
    if ((s.cluster cl).claim n).state = 2 ∧
        (∀ w ∈ (t.core ((s.cluster cl).claim n).core).mwords, w.warp = ((s.cluster cl).claim n).warp → worksOn n w.op = false) ∧
        passElsewhere (t.cluster (clusterOf ((s.cluster cl).claim n).core)).pass ((s.cluster cl).claim n) n = true ∧
        passElsewhere (t.cluster (clusterOf ((s.cluster cl).claim n).core)).ending ((s.cluster cl).claim n) n = true then Claim.reset
    else (s.cluster cl).claim n

/-- Only core `k` and the matrix engine of its cluster changed. -/
def onlyEngine (s t : State) (k : Nat) : Prop :=
  (∀ j, j ≠ k → t.core j = s.core j) ∧ (∀ j, j ≠ clusterOf k → t.cluster j = s.cluster j) ∧
    { t with cores := s.cores, clusters := s.clusters } = s ∧
    { (t.cluster (clusterOf k)) with
      claims := (s.cluster (clusterOf k)).claims, accs := (s.cluster (clusterOf k)).accs
      pass := (s.cluster (clusterOf k)).pass, ending := (s.cluster (clusterOf k)).ending } = s.cluster (clusterOf k)

/-- The passes of core `k`'s cluster are as they were. -/
def samePasses (s t : State) (k : Nat) : Prop :=
  (t.cluster (clusterOf k)).pass = (s.cluster (clusterOf k)).pass ∧ (t.cluster (clusterOf k)).ending = (s.cluster (clusterOf k)).ending

/-- The output shape of a mode, and the sub-array, row and column of an output element (R247). -/
def shapeOf (mode : Nat) : Nat × Nat := if mode = 0 then (32, 128) else if mode = 1 then (64, 64) else (128, 32)
def outPlace (mode e : Nat) : Nat × Nat × Nat :=
  let c := (shapeOf mode).2
  if mode = 0 then (e % c / 32, e / c, e % c % 32) else if mode = 1 then (2 * (e / c / 32) + e % c / 32, e / c % 32, e % c % 32)
  else (e / c / 32, e / c % 32, e % c)

/-- A cell of an accumulator tile. -/
def cellOf (c : Cluster) (sub acc row col : Nat) : Word := getAt (c.tile sub acc) (32 * row + col) 0#32

/-- The generator after `n` steps (R138). -/
def afterSteps (g : DWord) : Nat → DWord
  | 0 => g
  | n + 1 => nextG (afterSteps g n)

/-- Element `e` of an MST: the value stored and the status bits its conversion raises; with SR, on the converting lane's next number,
counted from the generators `gens` that stood at its issue (R151, R266, R267). -/
def outValue (s : State) (k : Nat) (w : MatrixWord) (acc mode ofmt : Nat) (rm : BitVec 3) (sr sat : Bool) (gens : List DWord) (e : Nat) : Nat × Nat :=
  let p := outPlace mode e
  let x := (cellOf (s.cluster (clusterOf k)) p.1 acc p.2.1 p.2.2).toNat
  let g := getAt gens (e % w.uids.length) 0#64
  if ofmt = 0 ∨ ofmt = 5 then (x, 0)
  else if ofmt = 6 then
    (if sat = true then (((clamp ((BitVec.ofNat 32 x).toInt) (-128) 127) % 256).toNat, 0) else (x % 256, 0))
  else narrow (ofmt + 5) (modeOf rm) sat (if sr = true then some (drawnOf (afterSteps g (e / w.uids.length))).toNat else none) x

/-- The thread of lane `i` of an MST's run after its conversions. -/
def afterOutput (s : State) (k : Nat) (w : MatrixWord) (acc mode ofmt : Nat) (rm : BitVec 3) (sr sat : Bool) (gens : List DWord) (i : Nat)
    (y : Thread) : Thread :=
  let n := (shapeOf mode).1 * (shapeOf mode).2
  let mine := (List.range n).filter (fun e => e % w.uids.length == i)
  { y with fstat := mine.foldl (fun f e => f ||| BitVec.ofNat 32 (outValue s k w acc mode ofmt rm sr sat gens e).2) y.fstat }

/-- Bytes of a number, lowest first. -/
def bytesOf (x n : Nat) : List Byte := (List.range n).map (fun i => BitVec.ofNat 8 (x / 256 ^ i))

/-- The entries that the arbiter looks at: the first words of the cores that are posted MMAs of a context that goes on (R250). -/
def eligible (s : State) (cl k : Nat) (w : MatrixWord) : Prop :=
  k / 4 = cl ∧ (∃ rest, (s.core k).mwords = w :: rest) ∧ w.isMma = true ∧ w.age ≠ 0 ∧ s.stopped k = false

/-- One entry goes before another: passed over 64 times, then by priority, then by age (R250). -/
def goesBefore (a b : MatrixWord) : Prop :=
  (64 ≤ a.passed ∧ b.passed < 64) ∨ ((64 ≤ a.passed ↔ 64 ≤ b.passed) ∧
    ((a.prio = true ∧ b.prio = false) ∨ (a.prio = b.prio ∧ a.age < b.age)))

/-- The product of two elements, exact: in units of 2^-512 where both are finite (R253, R254). -/
def product (a b : Machine.Num) : Int :=
  match a, b with
  | .fin n1 m1 e1, .fin n2 m2 e2 => (if n1 = n2 then 1 else -1) * ((m1 * m2 * 2 ^ (e1 + e2 + 512).toNat : Nat) : Int)
  | _, _ => 0

/-- A product is NaN, or infinite with a sign (R254). -/
def badProduct (a b : Machine.Num) : Bool :=
  match a, b with
  | .nan _, _ => true
  | _, .nan _ => true
  | .inf _, .fin _ m _ => m == 0
  | .fin _ m _, .inf _ => m == 0
  | _, _ => false
def infProduct (neg : Bool) (a b : Machine.Num) : Bool :=
  match a, b with
  | .inf n1, .inf n2 => (n1 != n2) == neg
  | .inf n1, .fin n2 m _ => !(m == 0) && (n1 != n2) == neg
  | .fin n1 m _, .inf n2 => !(m == 0) && (n1 != n2) == neg
  | _, _ => false

/-- Element `k` of a latch row under a kind (R248, R252). -/
def elemOf (e : ElemKind) (row : List Byte) (k : Nat) : Machine.Num := e.num (rowElem e.width row k)

/-- One block's term under scales `sa` and `sb` (R254), and the cell after it (R253). -/
def termOf (f : PassFmt) (ra rb : List Byte) (b sa sb : Nat) : Nat :=
  let ks := (List.range 32).map (fun i => 32 * b + i)
  let any (p : Machine.Num → Machine.Num → Bool) : Bool := ks.any (fun k => p (elemOf f.a ra k) (elemOf f.b rb k))
  let sum := (ks.map (fun k => product (elemOf f.a ra k) (elemOf f.b rb k))).sum
  if sa = 255 ∨ sb = 255 ∨ any badProduct = true ∨ (any (infProduct false) = true ∧ any (infProduct true) = true) then fp32.nanCode
  else if any (infProduct false) = true then fp32.infCode false
  else if any (infProduct true) = true then fp32.infCode true
  else if sum = 0 then 0
  else (fp32.finish .rne false (.fin (decide (sum < 0)) sum.natAbs (-512 + (sa : Int) - 127 + (sb : Int) - 127))).1
def cellStep (f : PassFmt) (ra rb sa sb : List Byte) (x b : Nat) : Nat :=
  if f.a = .int8 then
    (((x : Int) + ((List.range 32).map (fun i => product (elemOf f.a ra (32 * b + i)) (elemOf f.b rb (32 * b + i)))).sum / 2 ^ 512) % 2 ^ 32).toNat
  else
    let t := if f.mx = true then termOf f ra rb b (getAt sa b 0#8).toNat (getAt sb b 0#8).toNat else termOf f ra rb b 127 127
    (fp32.arith .rne false (addNum .rne (fp32.value x) (fp32.value t))).1

/-- The latches of a sub-array in a mode (R247). -/
def fedBy (mode sub : Nat) : Nat × Nat := if mode = 0 then (0, sub) else if mode = 1 then (sub / 2, sub % 2) else if mode = 2 then (sub, 0) else (sub, sub)

/-- The cell of sub-array `sub` at a row and column after a pass granted now on the tiles of `d` (R253). -/
def passedCell (s : State) (d : Cluster) (k acc mode : Nat) (zero : Bool) (fmt sub i j : Nat) : Nat :=
  let c := s.core k
  let p := fedBy mode sub
  (List.range (passFmt fmt).blocks).foldl
    (cellStep (passFmt fmt) (c.latchRow 0 p.1 i) (c.latchRow 1 p.2 j) (c.scaleRow 0 p.1 i) (c.scaleRow 1 p.2 j))
    (if zero = true then 0 else (cellOf d sub acc i j).toNat)

/-- A pass in ternary mode reads a code 0b10 (R253). -/
def readsTen (s : State) (k mode fmt : Nat) : Prop :=
  fmt = 10 ∧ ∃ sub < 4, ∃ j < 32, ∃ n < 512, rowElem 2 ((s.core k).latchRow 1 (fedBy mode sub).2 j) n = 2

/-- A matrix store of core `k` in progress. -/
structure Storing (s : State) (k id : Nat) (m : MstWrite) : Prop where
  found : (s.core k).msts.find? (fun x => x.id == id) = some m
  goes : m.stalled = none

/-- A core's matrix stores with one replaced. -/
def mstBecomes (s : State) (k : Nat) (m : MstWrite) : State :=
  { s with cores := AMap.put s.cores k { (s.core k) with msts := (s.core k).msts.map (fun x => if x.id = m.id then m else x) } }

/-! ## Graphs and launches (R89 to R102, R362) -/

/-- A graph slot of a VF, and the machine with one replaced. -/
def graphSlot (s : State) (v n : Nat) : GraphSlot := AMap.lookD (s.vf v).slots n GraphSlot.reset
def withSlot (s : State) (v n : Nat) (x : GraphSlot) : State :=
  { s with vfs := AMap.put s.vfs v { (s.vf v) with slots := AMap.put (s.vf v).slots n x } }

/-- What reading by the VF's own mappings leaves: lines may have been filled, and nothing that any agent reads has changed. -/
def onlyRead (s t : State) : Prop :=
  bytesKept s t (fun _ => False) ∧ onlyL1s s t ∧
    { t with cores := s.cores, brocade := s.brocade, vfs := s.vfs, mem := s.mem, poison := s.poison } = s

/-- The numbers of an image or a list in memory, by offset from `va`: each of `n` bytes. -/
def field (s : State) (v va : Nat) (o n : Nat) : Nat := vaNum s v (va + o) n

/-- Warps of a core in age order, each with its role and row allotment (R61, R92). -/
def warpsOf (roles : List (Nat × Nat × Nat)) : List (Nat × Nat) := roles.zipIdx.flatMap (fun r => List.replicate r.1.1 (r.2, r.1.2.1))

/-- The warps of one slice group, of `g` groups (R93). -/
def groupWarps (g i : Nat) (ws : List (Nat × Nat)) : List (Nat × Nat) := (ws.zipIdx.filter (fun w => w.2 % g == i)).map (fun w => w.1)

/-- A valid launch header, given by its fields (R89, R90, R93). -/
structure HeaderIs (f : Nat → Nat → Nat) (h : Header) : Prop where
  code : h.codeBase = f 0 8 ∧ h.codeBase % 64 = 0 ∧ h.codeBase < 2 ^ 52 ∧ h.codeLen = f 0x08 4 ∧ 1 ≤ h.codeLen ∧ h.codeLen ≤ 2 ^ 24
  front : h.feEntry = f 0x0C 4 ∧ h.feBase = f 0x10 8 ∧ h.feBase % 64 = 0 ∧ h.feBase < 2 ^ 52 ∧ h.feLen = f 0x18 4 ∧ h.feLen ≤ 2 ^ 24 ∧
    (if h.feLen = 0 then h.feEntry = 0 else h.feEntry < h.feLen)
  control : f 0x1C 4 / 2 ^ 28 = 0 ∧ h.ftrap = BitVec.ofNat 3 (f 0x1C 4 / 2 ^ 25) ∧
    h.scratchKiB = f 0x1C 4 / 2 ^ 16 % 2 ^ 9 ∧ h.scratchKiB ≤ 256 ∧ h.deadline = f 0x1C 4 / 2 ^ 8 % 2 ^ 8 ∧ 1 ≤ h.deadline ∧
    h.level = f 0x1C 4 / 2 ^ 6 % 4 ∧ h.nroles = f 0x1C 4 / 2 ^ 4 % 4 + 1 ∧ h.shape = f 0x1C 4 / 2 ^ 2 % 4 ∧ h.shape < 3 ∧
    f 0x1C 4 % 4 < 3 ∧ h.width = 16 * 2 ^ (f 0x1C 4 % 4)
  instances : h.instances = f 0x20 4 ∧ 1 ≤ h.instances ∧ h.instances ≤ 524288 / 2 ^ h.shape
  reserved : f 0x24 4 = 0 ∧ f 0x48 56 = 0
  count : h.roles.length = h.nroles
  roles : ∀ k < 4, if k < h.nroles then
      f (0x28 + 8 * k) 8 / 2 ^ 48 = 0 ∧ f (0x28 + 8 * k) 8 / 2 ^ 36 % 2 ^ 4 = 0 ∧
        ∃ warps rows entry, h.roles[k]? = some (warps, rows, entry) ∧ warps = f (0x28 + 8 * k) 8 / 2 ^ 40 % 2 ^ 8 ∧ 1 ≤ warps ∧
          rows = f (0x28 + 8 * k) 8 / 2 ^ 32 % 2 ^ 4 ∧ 1 ≤ rows ∧ rows ≤ 13 ∧ entry = f (0x28 + 8 * k) 8 % 2 ^ 32 ∧ entry < h.codeLen
    else f (0x28 + 8 * k) 8 = 0
  fits : ∀ g < 64 / h.width, (groupWarps (64 / h.width) g (warpsOf h.roles)).length ≤ 32 ∧
    ((groupWarps (64 / h.width) g (warpsOf h.roles)).map (fun w => 4 * w.2)).sum ≤ 1024

/-- The fields of node `i` of an image, and a successor that it names (R94). -/
def nodeField (f : Nat → Nat → Nat) (i o n : Nat) : Nat := f (64 + 512 * i + o) n
def names (f : Nat → Nat → Nat) (a b : Nat) : Prop :=
  ∃ k < 48, k < nodeField f a 0x82 2 ∧ nodeField f a (0x84 + 2 * k) 2 = b

/-- Node `i` of an image of `n` nodes passes its checks (R95). -/
structure NodePasses (f : Nat → Nat → Nat) (n i : Nat) : Prop where
  header : ∃ h, HeaderIs (fun o k => nodeField f i o k) h
  count : nodeField f i 0x82 2 ≤ 48
  beyond : ∀ k < 48, nodeField f i 0x82 2 ≤ k → nodeField f i (0x84 + 2 * k) 2 = 0
  inside : ∀ b, names f i b → b < n
  preds : nodeField f i 0x80 2 =
    ((List.range n).map (fun a => ((List.range (min 48 (nodeField f a 0x82 2))).filter (fun k => nodeField f a (0x84 + 2 * k) 2 == i)).length)).sum
  acyclic : ¬ Relation.TransGen (fun a b => a < n ∧ names f a b) i i

/-- A node as loaded (R94). -/
structure NodeIs (f : Nat → Nat → Nat) (i : Nat) (x : Node) : Prop where
  header : HeaderIs (fun o k => nodeField f i o k) x.hdr
  preds : x.npred = nodeField f i 0x80 2
  succs : x.succ = (List.range (nodeField f i 0x82 2)).map (fun k => nodeField f i (0x84 + 2 * k) 2)
  params : x.params = (List.range 32).map (fun k => BitVec.ofNat 64 (nodeField f i (0x100 + 8 * k) 8))

/-- An image's own header is in order (R94, R95). -/
def imageHeader (f : Nat → Nat → Nat) (n : Nat) : Prop := f 0 4 = n ∧ 1 ≤ n ∧ n ≤ 4096 ∧ f 4 60 = 0

/-- What a load comes to: the nodes, or the error's NODE (R95). -/
inductive Loads (s : State) (v va : Nat) : (List Node) ⊕ Nat → Prop where
  | unread : ¬ vaGood s v va 64 → Loads s v va (.inr 0xFFFF)
  | noImage : vaGood s v va 64 → (∀ n, ¬ imageHeader (field s v va) n) → Loads s v va (.inr 0xFFFE)
  | cut (n) : vaGood s v va 64 → imageHeader (field s v va) n → ¬ vaGood s v (va + 64) (512 * n) → Loads s v va (.inr 0xFFFF)
  | bad (n i) : vaGood s v va (64 + 512 * n) → imageHeader (field s v va) n → i < n → ¬ NodePasses (field s v va) n i →
      (∀ j < i, NodePasses (field s v va) n j) → Loads s v va (.inr i)
  | good (n ns) : vaGood s v va (64 + 512 * n) → imageHeader (field s v va) n → (∀ i < n, NodePasses (field s v va) n i) →
      ns.length = n → (∀ (i : Nat) (x : Node), ns[i]? = some x → NodeIs (field s v va) i x) → Loads s v va (.inl ns)

/-- A slot that a load or a run may not touch (R95). -/
def occupied (x : GraphSlot) : Prop := x.loading.isSome = true ∨ x.state = 2 ∨ x.triggers ≠ []

/-- The slot stops with an error (R97, R99). -/
def stopped (x : GraphSlot) (err node : Nat) : GraphSlot :=
  { x with state := 3, err := err, errNode := node, triggers := [], run := none, failed := none }

/-- The nodes with no predecessor, and a run that starts with them ready, oldest first from number `o` (R99, R101). -/
def firstNodes (ns : List Node) : List Nat := (List.range ns.length).filter (fun i => match ns[i]? with | some x => x.npred == 0 | none => false)
def startedRun (ns : List Node) (o : Nat) : AMap NodeRun := (firstNodes ns).zipIdx.map (fun p => (p.1, ⟨some (o + p.2), 0, false, none⟩))

/-- Entry `k` of a patch list: readable, in order for `n` nodes, and whether it is the last (R97). -/
def patchNum (s : State) (v va k : Nat) : Nat := vaNum s v (va + 16 * k) 8
def patchReads (s : State) (v va k : Nat) : Prop := vaGood s v (va + 16 * k) 16
def patchGood (s : State) (v va n k : Nat) : Prop :=
  patchNum s v va k / 2 ^ 32 = 0 ∧ patchNum s v va k / 2 ^ 21 % 2 ^ 10 = 0 ∧ patchNum s v va k % 2 ^ 16 < n
def patchLast (s : State) (v va k : Nat) : Prop := patchNum s v va k / 2 ^ 31 % 2 = 1

/-- Nodes after a patch list of entries 0 to `k`: of the entries for a word the last wins (R97). -/
def patched (s : State) (v va k : Nat) (ns : List Node) : List Node :=
  ns.zipIdx.map (fun x => { x.1 with params := x.1.params.zipIdx.map (fun w =>
    match ((List.range (k + 1)).filter (fun e =>
      patchNum s v va e % 2 ^ 16 == x.2 && patchNum s v va e / 2 ^ 16 % 2 ^ 5 == w.2)).getLast? with
    | some e => BitVec.ofNat 64 (vaNum s v (va + 16 * e + 8) 8)
    | none => w.1) })

/-- The slot's next run may start: loaded, with a trigger queued and no run in progress (R97). -/
structure MayRun (x : GraphSlot) (patch : Nat) (rest : List Nat) : Prop where
  loaded : x.state = 1 ∧ x.run = none ∧ x.loading = none
  queue : x.triggers = patch :: rest

/-- An instance is ready: of a ready node, the lowest that has not been dispatched (R99, R101); a VF whose context is being
saved or is saved, or that a cut waits for, has none (log 41). -/
structure ReadyInst (s : State) (c : Cand) : Prop where
  vf : c.vf < 64 ∧ (s.partOfVf c.vf).isSome = true ∧ (s.vf c.vf).ctx < 2
  uncut : ∀ p ∈ s.parts, p.2.vfmask.getLsbD c.vf = true → p.2.ckState = 1 → p.2.sysvf = c.vf
  node : ∃ x r q n, AMap.look (s.vf c.vf).slots c.slot = some x ∧ x.run = some r ∧ x.failed = none ∧ AMap.look r c.node = some q ∧
    q.ready = some c.ready ∧ q.dispatched = c.inst ∧ x.nodes[c.node]? = some n ∧ c.inst < n.hdr.instances ∧ c.hdr = n.hdr

/-- Maps list each key once. -/
def slotsOnce (s : State) : Prop := ∀ v, ((s.vf v).slots.map (fun p => p.1)).Nodup ∧
  ∀ p ∈ (s.vf v).slots, ∀ r, p.2.run = some r → (r.map (fun q => q.1)).Nodup

/-- Credit that a VF has left at a level, and whether a new round begins there (R101). -/
def creditOf (s : State) (l v : Nat) : Nat := AMap.lookD s.sched.credit (64 * l + v) (s.vf v).weight
def newRound (s : State) (l : Nat) : Prop := ∀ c, ReadyInst s c → c.hdr.level = l → creditOf s l c.vf = 0
def turn (s : State) (l v : Nat) : Nat := match AMap.look s.sched.last l with | some x => (v + 127 - x) % 64 | none => v

/-- The instance takes part in the choice, and one goes before another (R101). -/
def takesPart (s : State) (c : Cand) : Prop := ReadyInst s c ∧ (newRound s c.hdr.level ∨ creditOf s c.hdr.level c.vf ≠ 0)
def comesFirst (s : State) (a b : Cand) : Prop :=
  a.hdr.level < b.hdr.level ∨ (a.hdr.level = b.hdr.level ∧
    (turn s a.hdr.level a.vf < turn s b.hdr.level b.vf ∨ (a.vf = b.vf ∧ a.ready < b.ready)))

/-- An instance finds cores `k` to `k + cores - 1` free: aligned, without a launch, in ONLINE quanta of its partition (R102, R390). -/
def fitsAt (s : State) (c : Cand) (k : Nat) : Prop :=
  ∃ p, s.partOfVf c.vf = some p ∧ k % 2 ^ c.hdr.shape = 0 ∧ k + 2 ^ c.hdr.shape ≤ 512 ∧
    ∀ j, k ≤ j → j < k + 2 ^ c.hdr.shape → (s.core j).launch = none ∧ (s.quantum (j / 16)).state = 1 ∧ (s.quantum (j / 16)).part = some p

/-- How often in a row an instance has been passed over (R102). -/
def passedOver (s : State) (c : Cand) : Nat :=
  match s.sched.passed.find? (fun p => p.1 == c.vf && p.2.1 == c.slot && p.2.2.1 == c.node && p.2.2.2.1 == c.inst) with
  | some p => p.2.2.2.2
  | none => 0

/-- The instance stands first of its partition in the order (R102). -/
def standsFirst (s : State) (c : Cand) : Prop :=
  takesPart s c ∧ ∀ d, takesPart s d → s.partOfVf d.vf = s.partOfVf c.vf → d = c ∨ comesFirst s c d

/-- The instance that is dispatched next, and its first core: the first that finds a placement, at its lowest, with none blocked
and no two ready instances of one VF of one age (R101, R102). -/
structure Chosen (s : State) (c : Cand) (k : Nat) : Prop where
  part : takesPart s c
  place : fitsAt s c k ∧ ∀ j < k, ¬ fitsAt s c j
  first : ∀ d, takesPart s d → comesFirst s d c → ∀ j, ¬ fitsAt s d j
  ages : ∀ a b, ReadyInst s a → ReadyInst s b → a.vf = b.vf → a.ready = b.ready → a = b
  unblocked : ∀ d, ReadyInst s d → passedOver s d < 1024
  cycle : s.sched.placedAt ≠ s.now
  once : slotsOnce s
  lasts : ∀ l v, AMap.look s.sched.last l = some v → v < 64

/-- The words of a code segment as they stand in memory (R33, R48). -/
def segment (s : State) (v va packets : Nat) : List Word := (List.range (3 * packets)).map (fun i => BitVec.ofNat 32 (vaNum s v (va + 4 * i) 4))

/-- A launch as opened at its first instance: with the code that its segments hold now, its handler segment where TRAPBASE names
one, and memory as it stands, for a handler segment that TRAPBASE names later (R33, R360). -/
structure Opened (s : State) (c : Cand) (x : Launch) : Prop where
  names : x.vf = c.vf ∧ x.slot = c.slot ∧ x.node = c.node ∧ x.hdr = c.hdr
  code : x.code = segment s c.vf c.hdr.codeBase c.hdr.codeLen ∧ x.fecode = segment s c.vf c.hdr.feBase c.hdr.feLen
  handlers : (vectors (s.vf c.vf).trapbase → x.handlers =
      [((s.vf c.vf).trapbase, segment s c.vf ((s.vf c.vf).trapbase.toNat % 2 ^ 52 / 64 * 64) (64 * ((s.vf c.vf).trapbase.toNat / 2 ^ 53)))]) ∧
    (¬ vectors (s.vf c.vf).trapbase → x.handlers = [])
  memory : ∀ a, ({ s with mem := x.mem, poison := x.poison, brocade := x.brocade } : State).physByte a = s.physByte a
  fresh : x.spawnNext = 0 ∧ x.completed = 0 ∧ x.tearing = false

/-- The segments that a launch captures can be read. -/
def segmentsRead (s : State) (c : Cand) : Prop :=
  vaGood s c.vf c.hdr.codeBase (12 * c.hdr.codeLen) ∧ vaGood s c.vf c.hdr.feBase (12 * c.hdr.feLen) ∧
    (vectors (s.vf c.vf).trapbase → vaGood s c.vf ((s.vf c.vf).trapbase.toNat % 2 ^ 52 / 64 * 64) (768 * ((s.vf c.vf).trapbase.toNat / 2 ^ 53)))

/-- What a core keeps between launches: its Damask generations, its caches and the model's own numbers. -/
def keptCore (c : Core) : Core :=
  { Core.reset with
    damask := c.damask, l1 := c.l1, tlb := c.tlb, nextReq := c.nextReq, nextPend := c.nextPend, nextM := c.nextM, nextPool := c.nextPool
    epoch := c.epoch, clock := c.clock, copies := c.copies }

/-- A core has given up its launch: every entry in use is freed, which advances its GEN (R285). -/
structure CoreIdle (c d : Core) : Prop where
  entries : ∀ e, d.entry e = if (c.entry e).state = 0 then c.entry e else { Entry.reset with gen := nextGen (c.entry e).gen }
  rest : d = { (keptCore c) with damask := d.damask }

/-- A core starts its part of an instance (R28, R91 to R93): every warp of every role with its lanes' contexts at the role's entry,
each with rows of its own that read 0, the groups of the roles, and the front-end thread with the node's parameters. -/
structure CoreStarts (s t : State) (k l : Nat) (x : Launch) (params : List DWord) : Prop where
  held : (t.core k).launch = some l ∧ (t.core k).inst = (s.core k).inst ∧ (t.core k).index = (s.core k).index ∧ (t.core k).started = true
  warps : ∀ j w, (warpsOf x.hdr.roles)[j]? = some w → ∀ i < x.hdr.width,
    let tid := 4096 * ((s.core k).inst * 2 ^ x.hdr.shape + (s.core k).index) + j * x.hdr.width + i
    let entry := match x.hdr.roles[w.1]? with | some r => r.2.2 | none => 0
    ∃ map, AMap.look (t.core k).threads (uidOf j i) = some { Thread.blank with
        tid := BitVec.ofNat 32 tid, warp := j, lane := i, role := w.1, map := map, pc := BitVec.ofNat 32 (12 * entry)
        gen := (BitVec.ofNat 32 tid).setWidth 64 * 0x9E3779B97F4A7C15#64, dl := x.hdr.deadline, pl := s.isSys x.vf, last := s.now - 3 } ∧
      map.length = w.2 ∧ (∀ r ∈ map, r / 1024 = j % (64 / x.hdr.width) * (x.hdr.width / 4) + i / 4 ∧ (t.core k).row r = ⟨List.replicate 8 0#32, 1, []⟩)
  rows : ((t.core k).threads.flatMap (fun p => p.2.map)).Nodup
  listed : ∀ u, AMap.has (t.core k).threads u = true → ∃ j i, u = uidOf j i ∧ j < (warpsOf x.hdr.roles).length ∧ i < x.hdr.width
  groups : ∀ g u, isMember (t.core k) g u = true ↔ (g < x.hdr.nroles ∧ AMap.has (t.core k).threads u = true ∧ ((t.core k).th u).role = g)
  phases : ∀ g, phaseCount (t.core k) g = 0#32
  front : (t.core k).fe = if x.hdr.feLen = 0 then none else some
    { tid := BitVec.ofNat 32 (4096 * ((s.core k).inst * 2 ^ x.hdr.shape + (s.core k).index) + 4095)
      k := (List.range 64).map (fun i => if i < 32 then getAt params i 0#64 else if i = 32 then BitVec.ofNat 64 (s.core k).inst
        else if i = 33 then BitVec.ofNat 64 (s.core k).index else 0#64)
      pred := 0#8, flags := List.replicate 12 0, setA := 15#4, setB := 15#4, wait := 0#12, pc := BitVec.ofNat 32 (12 * x.hdr.feEntry)
      early := [], vt := 0, last := s.now - 3, ended := false, pl := s.isSys x.vf, hold := .run }
  others : (t.core k).clock = s.now ∧ (t.core k).token = some 0 ∧ (t.core k).ftrap = x.hdr.ftrap ∧ (t.core k).dq = [] ∧ (t.core k).wq = [] ∧ (t.core k).bufs = [] ∧
    (t.core k).scratch = [] ∧ (t.core k).faultq = [] ∧ (t.core k).lost = 0 ∧ (t.core k).latch = [] ∧ (t.core k).scale = [] ∧
    (t.core k).damask = (s.core k).damask ∧ (t.core k).l1 = (s.core k).l1.map (fun y => { y with valid := y.valid &&& y.owned })
  slots : ∀ n < 256, (t.cluster (k / 4)).slot n = if n / 64 = k % 4 then JSlot.reset else (s.cluster (k / 4)).slot n
  only : (∀ j, j ≠ k → t.core j = s.core j) ∧ (∀ j, j ≠ k / 4 → t.cluster j = s.cluster j) ∧
    { (t.cluster (k / 4)) with jslots := (s.cluster (k / 4)).jslots } = s.cluster (k / 4) ∧ { t with cores := s.cores, clusters := s.clusters } = s

/-- A core that holds an instance and has not started, its launch, and its node's parameters. -/
def mayStartCore (s : State) (k l : Nat) (x : Launch) (params : List DWord) : Prop :=
  AMap.look s.cores k = some (s.core k) ∧ (s.core k).launch = some l ∧ (s.core k).started = false ∧ s.launch l = some x ∧
    ∃ n, (graphSlot s x.vf x.slot).nodes[x.node]? = some n ∧ params = n.params

/-- The first instance of a node's launch has been placed: the launch is opened, its cores hold it, its node counts it, the VF has
spent a credit and was visited, and the instance that stood first of the partition was passed over, in a row if it was the one
passed over before (R101, R102). -/
structure Placed (s t : State) (c : Cand) (k : Nat) : Prop where
  launches : ∃ x, Opened s c x ∧ x.placed = [(c.inst, k)] ∧ ∀ l, t.launch l = if l = s.nextLaunch then some x else s.launch l
  next : t.nextLaunch = s.nextLaunch + 1
  cores : ∀ j, if k ≤ j ∧ j < k + 2 ^ c.hdr.shape then
      t.core j = { (keptCore (s.core j)) with launch := some s.nextLaunch, inst := c.inst, index := j - k, l1 := (t.core j).l1 }
    else { (t.core j) with l1 := (s.core j).l1 } = s.core j
  slot : let x := graphSlot s c.vf c.slot
    ∀ v, t.vf v = if v = c.vf then { (s.vf v) with
        slots := AMap.put (s.vf v).slots c.slot { x with run := x.run.map (fun r => AMap.put r c.node
          { (AMap.lookD r c.node ⟨none, 0, false, none⟩) with dispatched := c.inst + 1, launch := some s.nextLaunch }) }
        ctx := if (s.vf v).ctx = 0 then 1 else (s.vf v).ctx } else s.vf v
  credit : ∀ l v, v < 64 →
    (newRound s l → AMap.look t.sched.credit (64 * l + v) = if l = c.hdr.level ∧ v = c.vf then some ((s.vf v).weight - 1) else none) ∧
    (¬ newRound s l → AMap.look t.sched.credit (64 * l + v) =
      if l = c.hdr.level ∧ v = c.vf then some (creditOf s l v - 1) else AMap.look s.sched.credit (64 * l + v))
  visited : ∀ l, AMap.look t.sched.last l = if l = c.hdr.level then some c.vf else AMap.look s.sched.last l
  passes : passedOver t c = 0 ∧ ∀ d, ReadyInst s d → d ≠ c →
    (s.partOfVf d.vf = s.partOfVf c.vf → ¬ standsFirst s c →
      (standsFirst s d → passedOver t d = passedOver s d + 1) ∧ (¬ standsFirst s d → passedOver t d = 0)) ∧
    (s.partOfVf d.vf ≠ s.partOfVf c.vf ∨ standsFirst s c → passedOver t d = passedOver s d)
  only : bytesKept s t (fun _ => False) ∧ t.sched.nextReady = s.sched.nextReady ∧ t.sched.placedAt = s.now ∧
    { t with
      cores := s.cores, brocade := s.brocade, mem := s.mem, poison := s.poison, vfs := s.vfs, launches := s.launches
      nextLaunch := s.nextLaunch, sched := s.sched } = s

/-- Nothing of a core's launch remains (R102). -/
structure Quiet (s : State) (k : Nat) : Prop where
  threads : (s.core k).started = true ∧ (s.core k).threads = [] ∧ ∀ f, (s.core k).fe = some f → f.ended = true
  tracker : ∀ e ∈ (s.core k).tracker, ∀ n ∈ e.2, AMap.has (s.core k).pend n = false
  requests : ∀ r ∈ (s.core k).reqs, (∃ b, r.kind = .prefetch b) ∨ (r.kind = .store ∧ r.stage = .done)
  matrix : (s.core k).mwords = [] ∧ (s.core k).msts = [] ∧ (∀ p ∈ (s.cluster (k / 4)).claims, p.2.core = k → p.2.state = 0) ∧
    ∀ p, passOf (s.cluster (k / 4)) p → p.core ≠ k
  engines : (∀ p ∈ (s.cluster (k / 4)).jslots, p.1 / 64 = k % 4 → p.2.state ≠ 3) ∧
    ∀ w ∈ (s.cluster (k / 4)).jwords, w.core = k → ∃ d, w.op = .nwait d
  pools : (s.core k).poolWords = []

/-- Cores of the placed instances that answer, and what the clusters lose with them (R102, R231). -/
def coresOf (x : Launch) (p : Nat × Nat) (k : Nat) : Prop := p.2 ≤ k ∧ k < p.2 + 2 ^ x.hdr.shape
def clustersLose (s t : State) (gone : Nat → Prop) : Prop :=
  ∀ cl, (∀ n < 256, (gone (4 * cl + n / 64) → (t.cluster cl).slot n = JSlot.reset) ∧ (¬ gone (4 * cl + n / 64) → (t.cluster cl).slot n = (s.cluster cl).slot n)) ∧
    (∀ p, p ∈ (t.cluster cl).claims ↔ p ∈ (s.cluster cl).claims ∧ (p.2.core / 4 = cl → gone p.2.core → p.2.state = 0)) ∧
    (∀ w, w ∈ (t.cluster cl).jwords ↔ w ∈ (s.cluster cl).jwords ∧ ¬ (w.core / 4 = cl ∧ gone w.core)) ∧
    { (t.cluster cl) with jslots := (s.cluster cl).jslots, jwords := (s.cluster cl).jwords, claims := (s.cluster cl).claims
                          pass := (s.cluster cl).pass, ending := (s.cluster cl).ending } = s.cluster cl

/-- Every core of a launch has given it up, and no other core changed. -/
def coresGiven (s t : State) (x : Launch) : Prop :=
  ∀ k, ((∃ p ∈ x.placed, coresOf x p k) → CoreIdle (s.core k) (t.core k)) ∧ ((∀ p ∈ x.placed, ¬ coresOf x p k) → t.core k = s.core k)

/-- The context of a VF after some of its cores were given up: none where no core holds a launch of it and none is saved (R382). -/
def settledCtx (t : State) (v : Nat) (y z : VF) : Prop :=
  let busy : Prop := (∃ p ∈ t.cores, ∃ l x, p.2.launch = some l ∧ t.launch l = some x ∧ x.vf = v) ∨ AMap.has t.saves v = true
  (busy → z = y) ∧ (¬ busy → z = { y with ctx := 0, rung := 0 })

/-- The scheduler once a slot's run has ended: the passes counted for its instances are forgotten (R102). -/
def forgotten (s : State) (v n : Nat) : Sched := { s.sched with passed := s.sched.passed.filter (fun p => !(p.1 == v && p.2.1 == n)) }

/-- How a node of a run stands. -/
def nodeRunOf (x : GraphSlot) (n : Nat) : NodeRun := match x.run with | some r => AMap.lookD r n ⟨none, 0, false, none⟩ | none => ⟨none, 0, false, none⟩

/-- A node becomes ready with the completion of another: it is not ready, and all that name it have completed (R99). -/
def becomesReady (x : GraphSlot) (node j : Nat) : Prop :=
  (∃ y, x.nodes[node]? = some y ∧ j ∈ y.succ) ∧ (nodeRunOf x j).ready = none ∧
    ∀ i y, x.nodes[i]? = some y → j ∈ y.succ → i = node ∨ (nodeRunOf x i).done = true

/-- The last cores of a launch are given up and it is gone: its instances are all dispatched and quiet, and no saved context
holds it. -/
structure LaunchOver (s : State) (l : Nat) (x : Launch) (r : AMap NodeRun) : Prop where
  launch : s.launch l = some x ∧ x.tearing = false
  quiet : ∀ p ∈ x.placed, ∀ k, coresOf x p k → Quiet s k
  run : (graphSlot s x.vf x.slot).run = some r ∧ (graphSlot s x.vf x.slot).failed = none
  last : (nodeRunOf (graphSlot s x.vf x.slot) x.node).launch = some l →
    x.hdr.instances ≤ (nodeRunOf (graphSlot s x.vf x.slot) x.node).dispatched
  unsaved : ∀ p ∈ s.saves, ∀ c ∈ p.2.cores, c.core.launch ≠ some l
  handlers : ∀ p ∈ s.clusters, ∀ h, p.2.handler = some h → h.2 ≠ l
  named : (graphSlot s x.vf x.slot).nodes.length ≤ 4096 ∧ x.node < (graphSlot s x.vf x.slot).nodes.length

/-! ## Contexts on the ladder, their saves, and checkpoints (R29, R74, R364 to R372) -/

/-- GRACE and SLICE of PRETIMERS (R364). -/
def graceField (s : State) (v : Nat) : Nat := (s.vf v).pretimers.toNat / 2 ^ 10 % 2 ^ 12
def sliceField (s : State) (v : Nat) : Nat := (s.vf v).pretimers.toNat % 2 ^ 10

/-- Another VF of the partition has a ready launch that finds no free placement (R365). -/
def crowds (s : State) (v : Nat) : Prop :=
  ∃ c, ReadyInst s c ∧ c.vf ≠ v ∧ s.partOfVf c.vf = s.partOfVf v ∧ ∀ k, ¬ fitsAt s c k

/-- A core holds a launch of a VF. -/
def holdsVf (s : State) (v k : Nat) : Prop := ∃ l x, (s.core k).launch = some l ∧ s.launch l = some x ∧ x.vf = v

/-- Cores, launches, dies, and the threads and rows of each core are listed once. -/
structure ListsOnce (s : State) : Prop where
  cores : (s.cores.map (fun p => p.1)).Nodup
  launches : (s.launches.map (fun p => p.1)).Nodup
  dies : (s.dies.map (fun p => p.1)).Nodup ∧ ∀ d ∈ s.dies, (d.2.xq.map (fun p => p.1)).Nodup
  pools : ∀ v, ((s.vf v).pools.map (fun p => p.1)).Nodup
  threads : ∀ k, ((s.core k).threads.map (fun p => p.1)).Nodup ∧ ((s.core k).rows.map (fun p => p.1)).Nodup
  clusters : ∀ c, ((s.cluster c).xtab.map (fun p => p.1)).Nodup ∧ ((s.cluster c).jslots.map (fun p => p.1)).Nodup ∧
    ((s.cluster c).claims.map (fun p => p.1)).Nodup

/-- The word that a thread waits in and goes back to, a GBAR, XQSEND or XQRECV of its run's (R74). -/
def backIn : Hold → Option Word
  | .gbar _ _ _ b => b
  | .xqsend _ _ b => b
  | .xqrecv _ _ _ _ b => b
  | _ => none
def backOf (c : Core) (u : Nat) : Option Word := match (c.th u).hold with | .follow l => backIn (c.th l).hold | h => backIn h

/-- A core without helpers. -/
def helperless (c : Core) : Prop := ∀ p ∈ c.threads, p.2.helper = none

/-- The threads of a core after the forced halt (R74, R302, R310, R311): every helper has ended as by HKILL, every team is closed, a
parked thread goes on with 0 in vD and a sleeper wakes, each without further cycles, and a thread that waits in GBAR, XQSEND or XQRECV
stands at the word, its unit of YC taken back; the rest stand as they did, but that the end of a helper can complete a phase. -/
structure HaltedCore (c d : Core) : Prop where
  listed : ∀ u, AMap.has d.threads u = (AMap.has c.threads u && (c.th u).helper.isNone)
  threads : ∀ u, AMap.has d.threads u = true → ∃ h pc yc,
    Thread.onlyNotes { (c.th u) with hold := h, pc := pc, yc := yc, team := none } (d.th u) ∧
    (((c.th u).hold = .run ∨ isParked c u ∨ ∃ n, (c.th u).hold = .sleep n) → h = .run ∧ pc = (c.th u).pc ∧ yc = (c.th u).yc) ∧
    (pc = (c.th u).pc ∧ yc = (c.th u).yc ∧ (h = (c.th u).hold ∨ h = .run) ∨
      h = .run ∧ backOf c u = some pc ∧ yc = (c.th u).yc - 1) ∧
    (helperless c → ∀ b, backOf c u = some b → h = .run ∧ pc = b ∧ yc = (c.th u).yc - 1) ∧
    (helperless c → backOf c u = none → ¬ isParked c u → (∀ n, (c.th u).hold ≠ .sleep n) → h = (c.th u).hold)
  values : ∀ u q, AMap.has d.threads u = true → (∃ n r, (c.th u).hold = .parked n r ∧ c.cell u r = some q) →
    AMap.has d.rows q.1 = true → d.rowWord q.1 q.2 = 0#32
  kept : ∀ x w, AMap.has d.rows x = true → (∀ u n r, (c.th u).hold = .parked n r → c.cell u r ≠ some (x, w)) → d.rowWord x w = c.rowWord x w
  rest : helperless c → { d with threads := c.threads, rows := c.rows } = c

/-- The forced halt of a context (R29, R311). -/
structure ForcedHalt (s t : State) (v : Nat) : Prop where
  vfs : ∀ w, t.vf w = if w = v then { (s.vf v) with ctx := 2, rung := 2 } else s.vf w
  cores : ∀ k, (holdsVf s v k → HaltedCore (s.core k) (t.core k)) ∧ (¬ holdsVf s v k → t.core k = s.core k)
  only : { t with cores := s.cores, vfs := s.vfs } = s

/-- Parked threads of a context have their destination's place, and no earlier result for it lands after theirs (R37). -/
def parkedPlaces (s : State) (v : Nat) : Prop :=
  ∀ k, holdsVf s v k → ∀ u n r, ((s.core k).th u).hold = .parked n r → placeOwned (s.core k) u r ∧
    ∀ e ∈ ((s.core k).th u).early, e.outlasts r.toNat ((s.core k).clock + 4) = false

/-- A thread has halted at a yield point, or stands where the forced halt leaves it (R74, R82, R83, R311). -/
def comesToRest (forced : Prop) : Hold → Prop
  | .halted => True
  | .run => forced
  | .gbar .. => forced
  | .pool _ => forced
  | .follow _ => forced
  | .xqsend .. => forced
  | .xqrecv .. => forced
  | _ => False

/-- The context can be saved (R365, R366): it is being pre-empted, every thread of its cores has halted or ended and every
retirement entry has drained, nothing of it is in flight but what waits for a page, no matrix store is being written and no pass of
it runs (R180, R255), and no launch of it is being torn down. -/
structure Savable (s : State) (v : Nat) : Prop where
  ladder : (s.vf v).ctx = 2 ∧ (s.vf v).rung < 3
  held : ∃ k, holdsVf s v k
  threads : ∀ k, holdsVf s v k → (s.core k).started = true ∧ (∀ p ∈ (s.core k).threads, comesToRest ((s.vf v).rung = 2) p.2.hold) ∧
    ∀ f, (s.core k).fe = some f → f.ended = true ∨ f.hold = .run
  drained : ∀ k, holdsVf s v k → ∀ e ∈ (s.core k).tracker, ∀ n ∈ e.2, AMap.has (s.core k).pend n = false
  requests : ∀ k, holdsVf s v k → ∀ r ∈ (s.core k).reqs, (∃ b, r.kind = .prefetch b) ∨ (∃ e, r.stage = .faulted e) ∨ r.stage = .stuck
  matrix : ∀ k, holdsVf s v k → (s.core k).msts = [] ∧ ∀ p, passOf (s.cluster (k / 4)) p → p.core ≠ k
  whole : ∀ p ∈ s.launches, p.2.vf = v → p.2.tearing = false

/-- The tracker's `entries` drained means that nothing it waits for is left; a context whose launch is listed has a partition. -/
def partRecOf (s : State) (v n : Nat) (p : Part) : Prop := s.partOfVf v = some n ∧ AMap.look s.parts n = some p

/-- The base and the size of the SAVE region (R386). -/
def regionBase (p : Part) : Nat := p.save.toNat % 2 ^ 52 / 2 ^ 21 * 2 ^ 21
def regionSize (p : Part) : Nat := p.save.toNat / 2 ^ 52 * 2 ^ 21

/-- A save of `len` bytes fits at an offset between the saves that the region holds, and the lowest such place (R367). -/
def fitsSave (s : State) (p : Part) (len off : Nat) : Prop :=
  off % 2 ^ 21 = 0 ∧ 2 ^ 21 ≤ off ∧ off + len ≤ regionSize p ∧
    ∀ x ∈ s.saves, p.vfmask.getLsbD x.1 = true → off + len ≤ x.2.offset ∨ x.2.offset + x.2.length ≤ off
def savePlaceOf (s : State) (p : Part) (len off : Nat) : Prop := fitsSave s p len off ∧ ∀ o, fitsSave s p len o → off ≤ o

/-- What the save holds of a core (R291, R297, R366): all of it, but that y0 to y3 are unwritten, short results have landed, its
requests walk again, its prefetches and its caches are dropped; with its slots, words, claims and their tiles (R230, R255). -/
structure CoreSaved (s : State) (c : SavedCore) : Prop where
  threads : ∀ u, AMap.look c.core.threads u =
    (AMap.look (s.core c.coreIdx).threads u).map (fun t => { t with y0 := [], y1 := [], y2 := [], y3 := [], early := [], stall := false })
  front : c.core.fe = (s.core c.coreIdx).fe.map (fun f => { f with early := [] })
  requests : c.core.reqs = ((s.core c.coreIdx).reqs.filter (fun r => match r.kind with | .prefetch _ => false | _ => true)).map
    (fun r => { r with stage := .walk })
  rows : ∀ r, AMap.look c.core.rows r = (AMap.look (s.core c.coreIdx).rows r).map (fun y => { y with fly := [] })
  caches : c.core.l1 = [] ∧ c.core.tlb = [] ∧ c.core.bufOld = []
  rest : { c.core with
      threads := (s.core c.coreIdx).threads, fe := (s.core c.coreIdx).fe, reqs := (s.core c.coreIdx).reqs
      rows := (s.core c.coreIdx).rows, bufOld := (s.core c.coreIdx).bufOld
      l1 := (s.core c.coreIdx).l1, tlb := (s.core c.coreIdx).tlb } = s.core c.coreIdx
  slots : ∀ n, AMap.look c.jslots n = if n / 64 = c.coreIdx % 4 then
      (AMap.look (s.cluster (c.coreIdx / 4)).jslots n).map (fun j => { j with stalled := none }) else none
  claims : ∀ i x, AMap.look c.claims i = some x ↔ AMap.look (s.cluster (c.coreIdx / 4)).claims i = some x ∧ x.state ≠ 0 ∧ x.core = c.coreIdx
  tiles : ∀ m w, AMap.has c.claims (m % 8) = true → AMap.look (s.cluster (c.coreIdx / 4)).accs m = some w → AMap.look c.accs m = some w
  words : c.jwords = (s.cluster (c.coreIdx / 4)).jwords.filter (fun w => w.core == c.coreIdx)

/-- The bytes of core saves of these lengths, each padded to a multiple of 4 KiB (R366, R367). -/
def paddedTo (n : Nat) : Nat := (n + 4095) / 4096 * 4096
def paddedLen (ns : List Nat) : Nat := (ns.map paddedTo).sum

/-- A context has been saved (R285, R365 to R367): its save takes the place, with zeros as its padding, VALID of its directory entry
is set, its cores are free, and its messages and pending pool lanes have gone into the save. -/
structure ContextSaved (s t : State) (v : Nat) (p : Part) (len off : Nat) : Prop where
  saved : ∃ x, (∀ w, AMap.look t.saves w = if w = v then some x else AMap.look s.saves w) ∧ x.offset = off ∧ x.length = len ∧
    (∀ k, (∃ c ∈ x.cores, c.coreIdx = k) ↔ holdsVf s v k) ∧ x.cores.Pairwise (fun a b => a.coreIdx < b.coreIdx) ∧
    (∀ c ∈ x.cores, CoreSaved s c) ∧ x.perf = (s.vf v).perfcnt ∧
    x.lens.length = x.cores.length ∧ len = paddedLen x.lens ∧
    (∀ j n, x.lens[j]? = some n → ∀ i, n ≤ i → i < paddedTo n →
      t.physByte (regionBase p + off + (paddedLen (x.lens.take j) + i)) = 0#8) ∧
    numAt t.physByte (regionBase p + 64 * v) 8 = off ∧ numAt t.physByte (regionBase p + 64 * v + 8) 8 = len % 2 ^ 64 ∧
    numAt t.physByte (regionBase p + 64 * v + 16) 4 = x.cores.length % 2 ^ 32 ∧ numAt t.physByte (regionBase p + 64 * v + 20) 44 = 1 ∧
    (∀ n, (x.lanes.filter (fun q => q.1 == n)).map (fun q => q.2) =
      (match s.pool v n with | some q => q.queue.map (fun l => { l with copying := none }) | none => [])) ∧
    ∀ d q, (x.msgs.filter (fun m => m.1 == d && m.2.1 == q)).map (fun m => m.2.2) = (AMap.lookD (s.die d).xq q []).filter (fun m => m.vf == v)
  bytes : ∀ a, ¬ (regionBase p + 64 * v ≤ a ∧ a < regionBase p + 64 * v + 64) → ¬ (regionBase p + off ≤ a ∧ a < regionBase p + off + len) →
    t.physByte a = s.physByte a
  cores : ∀ k, (holdsVf s v k → CoreIdle (s.core k) { (t.core k) with l1 := (s.core k).l1 }) ∧
    (¬ holdsVf s v k → { (t.core k) with l1 := (s.core k).l1 } = s.core k)
  clusters : clustersLose s { t with clusters := t.clusters.map (fun p => (p.1, { p.2 with
    xtab := (s.cluster p.1).xtab, xpend := (s.cluster p.1).xpend })) } (holdsVf s v)
  translations : ∀ c, (∀ e ∈ (t.cluster c).xtab, e ∈ (s.cluster c).xtab) ∧ ∀ e ∈ (s.cluster c).xtab, e.2.vf ≠ v → e ∈ (t.cluster c).xtab
  launches : t.launches = s.launches.map (fun q => (q.1, if q.2.vf = v then { q.2 with placed := [] } else q.2))
  vf : ∀ w, t.vf w = if w = v then
    { (s.vf v) with ctx := 3, pools := (s.vf v).pools.map (fun q => (q.1, { q.2 with queue := [] })) } else s.vf w
  messages : ∀ d q, AMap.lookD (t.die d).xq q [] = (AMap.lookD (s.die d).xq q []).filter (fun m => !(m.vf == v))
  only : { t with
      cores := s.cores, clusters := s.clusters, launches := s.launches, saves := s.saves, mem := s.mem, poison := s.poison
      brocade := s.brocade, dies := s.dies, vfs := s.vfs } = s

/-- A context is torn down (R362, R363, R365): each of its launches is, LASTTRAP records cause 17, and a cut that waited for it fails
with ERR 3 (R370). -/
structure ContextKilled (s t : State) (v : Nat) : Prop where
  launches : ∀ l, t.launch l = (s.launch l).map (fun x => if x.vf = v then { x with tearing := true } else x)
  vf : ∃ r : TrapRec, (∀ w, t.vf w = if w = v then { (s.vf v) with ctx := 2, rung := 3, lasttrap := r } else s.vf w) ∧
    ((∃ l x, s.launch l = some x ∧ x.vf = v ∧ x.tearing = false) → r.r0.toNat % 2 ^ 17 = 17 + 2 ^ 13 ∧ r.r2 = 0#32 ∧ r.r3 = 0#32) ∧
    ((∀ l x, s.launch l = some x → x.vf = v → x.tearing = true) → r = (s.vf v).lasttrap)
  parts : ∀ n, AMap.look t.parts n = (AMap.look s.parts n).map (fun p =>
    if s.partOfVf v = some n ∧ p.ckState = 1 ∧ p.sysvf ≠ v then { p with ckState := 4, ckErr := 3, pieces := [], ckImage := none } else p)
  only : { t with launches := s.launches, vfs := s.vfs, parts := s.parts } = s

/-- The saved context of a VF can resume: no cut waits for it, its cores are those of one instance of the launch `l`, and `k` is the
lowest place at which that instance's cores are free with their claimed indices FREE (R255, R368). -/
def takesInstance (s : State) (n : Nat) (sv : Saved) (k : Nat) : Prop :=
  ∀ c ∈ sv.cores, (s.core (k + c.core.index)).launch = none ∧ (s.quantum ((k + c.core.index) / 16)).state = 1 ∧
    (s.quantum ((k + c.core.index) / 16)).part = some n ∧
    ∀ i, AMap.has c.claims i = true → ((s.cluster ((k + c.core.index) / 4)).claim i).state = 0
structure MayResume (s : State) (v n : Nat) (p : Part) (sv : Saved) (l : Nat) (x : Launch) (k : Nat) : Prop where
  saved : (s.vf v).ctx = 3 ∧ AMap.look s.saves v = some sv ∧ partRecOf s v n p ∧ sv.cores ≠ []
  uncut : ∀ q ∈ s.parts, q.2.vfmask.getLsbD v = true → q.2.ckState = 1 → q.2.sysvf = v
  launch : s.launch l = some x ∧ ∀ c ∈ sv.cores, c.core.launch = some l ∧ ∀ d ∈ sv.cores, c.core.inst = d.core.inst
  indices : sv.cores.Pairwise (fun a b => a.coreIdx ≠ b.coreIdx ∧ a.core.index ≠ b.core.index) ∧ ∀ c ∈ sv.cores, c.core.index < 2 ^ x.hdr.shape
  place : k % 2 ^ x.hdr.shape = 0 ∧ k + 2 ^ x.hdr.shape ≤ 512 ∧ takesInstance s n sv k ∧
    ∀ j < k, j % 2 ^ x.hdr.shape = 0 → ¬ takesInstance s n sv j

/-- Where a slot of a core stands after the core moved to another place. -/
def slotMoved (old new n : Nat) : Nat := n + 64 * (new % 4) - 64 * (old % 4)

/-- One saved core stands on the core that receives it (R230, R255, R285, R286, R368): all that the save holds, halted threads
running again, with the receiving core's caches acquired. A running launch waits for a channel (R239), an engine word that had left its
thread is one brought back (R414), MMAs are posted anew, and a claimed index without a saved tile reads zero. The numbers that only
the model counts go on from the greater. -/
structure CoreRestored (s t : State) (c : SavedCore) (j : Nat) : Prop where
  threads : ∀ u, AMap.look (t.core j).threads u = (AMap.look c.core.threads u).map (fun y =>
    { y with hold := if y.hold = .halted then .run else y.hold, last := s.now - 3, busy := 0, copyAt := 0 })
  front : (t.core j).fe = c.core.fe.map (fun f => { f with last := s.now - 3 })
  rest : { (t.core j) with
      threads := c.core.threads, fe := c.core.fe, mwords := c.core.mwords, l1 := c.core.l1, tlb := c.core.tlb, clock := c.core.clock
      epoch := c.core.epoch, nextReq := c.core.nextReq, nextPend := c.core.nextPend, nextM := c.core.nextM, nextPool := c.core.nextPool
      resumeReq := c.core.resumeReq, resumePool := c.core.resumePool, resumeM := c.core.resumeM, resumeJ := c.core.resumeJ } = c.core
  matrix : (t.core j).mwords.length = c.core.mwords.length ∧ ∀ (i : Nat) (w : MatrixWord), c.core.mwords[i]? = some w → ∃ a b,
    (t.core j).mwords[i]? = some { w with age := a, prio := b } ∧ (w.isMma = true → a ≠ 0) ∧
      (w.isMma = false ∨ w.age ≠ 0 → a = w.age ∧ b = w.prio)
  caches : (t.core j).tlb = (s.core j).tlb ∧ ∀ y ∈ (t.core j).l1, ∀ i < 16, y.valid.getLsbD i = true → y.owned.getLsbD i = true
  slots : ∀ m y, AMap.look c.jslots m = some y → (t.cluster (j / 4)).slot (slotMoved c.coreIdx j m) =
    { y with succ := y.succ.map (slotMoved c.coreIdx j), waitCh := y.state == 3 && !(y.kind == 0) }
  runs : ∀ n, n ∈ (t.core j).resumeJ ↔ ∃ m y, (m, y) ∈ c.jslots ∧ y.state = 3 ∧ n = slotMoved c.coreIdx j m
  claims : ∀ i y, AMap.look c.claims i = some y → (t.cluster (j / 4)).claim i = { y with core := j }
  tiles : ∀ m, AMap.has c.claims (m % 8) = true → AMap.look (t.cluster (j / 4)).accs m = AMap.look c.accs m
  words : ∀ w ∈ c.jwords, ∃ y ∈ (t.cluster (j / 4)).jwords, y.core = j ∧ y.slot = slotMoved c.coreIdx j w.slot ∧ y.pends = w.pends ∧
    y.after = w.after ∧ y.atRest = w.atRest ∧ y.back = !w.atRest

/-- What a save needs to be put back: each map lists a key once, of the core it was saved from, and nothing of the receiving
clusters stands in its way. -/
structure SaveWhole (s : State) (sv : Saved) (k : Nat) : Prop where
  slots : ∀ c ∈ sv.cores, (c.jslots.map (fun p => p.1)).Nodup ∧ (∀ p ∈ c.jslots, p.1 / 64 = c.coreIdx % 4) ∧
    ∀ p ∈ (s.cluster ((k + c.core.index) / 4)).jslots, p.1 / 64 ≠ (k + c.core.index) % 4
  claims : ∀ c ∈ sv.cores, (c.claims.map (fun p => p.1)).Nodup ∧ (c.accs.map (fun p => p.1)).Nodup ∧
    (∀ m, AMap.has c.accs m = true → AMap.has c.claims (m % 8) = true) ∧ (c.core.mwords.map (fun w => w.id)).Nodup
  apart : sv.cores.Pairwise (fun a b => (k + a.core.index) / 4 = (k + b.core.index) / 4 → ∀ i, AMap.has a.claims i = true → AMap.has b.claims i = false)

/-- The core that a saved core's number names after the resume. -/
def movedTo (sv : Saved) (k old : Nat) : Nat := match sv.cores.find? (fun c => c.coreIdx == old) with | some c => k + c.core.index | none => old

/-- The page tables of a VF map a 64 KiB piece of physical memory. -/
def mapsPiece (s : State) (v pa : Nat) : Prop := ∃ va l, va % 65536 = 0 ∧ va < 2 ^ 52 ∧ s.leafOf v va = some l ∧ pa = l.pa + va % l.size

/-- Step 2 of the cut can come (R370): every context that the checkpoint covers is saved or none. No page of theirs moves, which is
the model's own condition (log 44). -/
structure MaySweep (s : State) (n : Nat) (p : Part) : Prop where
  cut : AMap.look s.parts n = some p ∧ p.ckState = 1
  saved : ∀ v, coveredBy p v = true → (s.vf v).ctx = 0 ∨ (s.vf v).ctx = 3
  still : ∀ d ∈ s.dies, ∀ m ∈ d.2.mig, coveredBy p m.vf = false

/-- CKPTBUF (R369), the reserve of CKPTRSV and its places of 64 KiB. -/
def bufBaseOf (p : Part) : Nat := p.ckBuf.toNat % 2 ^ 52 / 2 ^ 12 * 2 ^ 12
def bufSizeOf (p : Part) : Nat := p.ckBuf.toNat / 2 ^ 52 * 2 ^ 32
def reserveAt (p : Part) (j : Nat) : Nat := p.ckRsv.toNat % 2 ^ 52 / 2 ^ 21 * 2 ^ 21 + 65536 * j
def reserveFree (p : Part) (j : Nat) : Prop :=
  j < 32 * (p.ckRsv.toNat / 2 ^ 52) ∧ ∀ x ∈ p.pieces, x.drained = true ∨ x.reserve ≠ some j

/-- A write waits for a frozen piece to be copied (R371). -/
def writeWaits (s : State) (pa : Nat) : Prop :=
  ∃ p ∈ s.cores, ∃ r ∈ p.2.reqs, r.stage = .ready ∧ asksWrite r = true ∧ r.space = 0 ∧ (∃ a ∈ r.pas, a / 65536 * 65536 = pa)

/-- The bytes of a piece as the drain takes them: its copy in the reserve where one was made (R371, R372). -/
def drainedByte (s : State) (p : Part) (x : Piece) (i : Nat) : Byte :=
  match x.reserve with | some j => s.physByte (reserveAt p j + i) | none => s.physByte (x.pa + i)

/-- The image of a cut (R370, R372): the covered contexts' saves and VFs, and before the pieces the header with the digest, the register
part and the piece table; the digest is over all that follows the header. Layout and sizes within are the model's constants, which the
spec does not give (log 45). -/
def imageOf (s : State) (n : Nat) (p : Part) (ps : List Piece) (m : CkImage) : Prop :=
  let tail := Config.registerPart m.saves m.vfs ++ ps.flatMap (fun x => (List.range 16).map (Config.pieceEntry x.pa x.vf x.tier))
  let covered := ((List.range 64).filter (coveredBy p)).length
  m.part = n ∧ m.devcap = s.devcap ∧ m.pieces = ps ∧
    (∀ v, AMap.look m.saves v = if coveredBy p v then AMap.look s.saves v else none) ∧
    (∀ v, AMap.look m.vfs v = if coveredBy p v then AMap.look s.vfs v else none) ∧
    m.front = (List.range 4096).map (Config.imageHeader n s.devcap covered ps.length m.digest) ++ tail ∧
    m.digest = Config.sha3 (tail ++ ps.flatMap (fun x => (List.range 65536).map (drainedByte s p x)))

/-- A running drain with its image, and the partition once a piece has gone: complete when every piece has (R372, R397). -/
def draining (s : State) (n : Nat) (p : Part) (m : CkImage) : Prop :=
  AMap.look s.parts n = some p ∧ p.ckState = 2 ∧ ∃ i, p.ckImage = some i ∧ AMap.look s.images i = some m
def drainEnds (s t : State) (n : Nat) (p : Part) : Prop :=
  (((∀ x ∈ p.pieces, x.drained = true) → t.parts = AMap.put s.parts n { p with ckState := 3 } ∧ t.out = s.out ++ [.msixVf p.sysvf 3]) ∧
    ((∃ x ∈ p.pieces, x.drained = false) → t.parts = AMap.put s.parts n p ∧ t.out = s.out)) ∧
  { t with parts := s.parts, out := s.out, hostMem := s.hostMem } = s

/-! ## Partitions and quanta (R386 to R391) -/

/-- A field of `n` bytes of a partition record (R386). -/
def recField (bs : List Byte) (o n : Nat) : Nat := numAt (fun i => getAt bs i 0#8) o n

/-- The units of a port that a word of a record names: its first and its number of units (R386). -/
def unitsNamed (w : Nat) : BitVec 256 := BitVec.ofNat 256 ((2 ^ (w % 2 ^ 16) - 1) * 2 ^ (w / 2 ^ 16))

/-- An image passes the check: its signature, under the fused key, over the digest of its contents, and a version that is not below the
fused counter (R406). -/
def imagePasses (image : List Byte) : Prop :=
  Config.signatureGood Config.fusedKey (Config.sha3 (Config.imageContents image)) image = true ∧ Config.fusedVersion ≤ Config.imageVersion image

/-- The partition that a record makes of the partition as it stands: memory is added (R386, R389, R391). -/
def recorded (s : State) (n : Nat) (bs : List Byte) : Part :=
  let old := AMap.lookD s.parts n Part.blank
  let f := recField bs
  { old with
    record := bs, eth := f 0x04 1, sysvf := f 0x05 1, vfmask := BitVec.ofNat 64 (f 0x08 8)
    pch := (List.range 12).map (fun i => getAt old.pch i 0#64 ||| BitVec.ofNat 64 (f (0x10 + 8 * i) 8))
    cxl := (List.range 4).map (fun d => getAt old.cxl d 0#256 ||| unitsNamed (f (0x70 + 4 * d) 4))
    nvme := BitVec.ofNat 64 (f 0x80 8), save := BitVec.ofNat 64 (f 0x88 8), haqbase := f 0x90 8
    funcmode := BitVec.ofNat 32 (f 0x98 4 % 2 ^ 5 + (if s.devcap.toNat / 2 ^ 8 % 2 ^ 4 = 0 ∧ f 0x98 4 / 2 ^ 3 % 2 = 0 then 2 ^ 3 else 0))
    image := s.hostMem.bytes (f 0xA0 8) (f 0x9C 4) }

/-- Every byte of a range of physical addresses lies in a partition's memory (R388). -/
def holdsRange (p : Part) (base size : Nat) : Prop := ∀ a, base ≤ a → a < base + size → p.owns a = true

/-- A field of a record that R386 or R387 does not allow, by its offset. -/
def refusedAt (s : State) (n : Nat) (bs : List Byte) (o : Nat) : Prop :=
  let f := recField bs
  let other (bad : Part → Prop) : Prop := ∃ q ∈ s.parts, q.1 ≠ n ∧ bad q.2
  let noDie (d : Nat) : Prop := s.devcap.getLsbD (24 + d) = false
  let new := recorded s n bs
  (o = 0x00 ∧ (8 ≤ n ∨ f 0 4 = 0 ∨ (f 0 4 % 2 = 1 ↔ n ≠ 0) ∨
    ∃ q < 32, f 0 4 / 2 ^ q % 2 = 1 ∧ (noDie (q / 8) ∨ ∃ p, (s.quantum q).part = some p ∧ p ≠ n))) ∨
  (o = 0x04 ∧ (8 ≤ f 4 1 ∨ noDie (f 4 1 / 2) ∨ other (fun p => p.eth = f 4 1))) ∨
  (o = 0x05 ∧ 64 ≤ f 5 1) ∨ (o = 0x06 ∧ f 6 2 ≠ 0) ∨
  (o = 0x08 ∧ (new.vfmask.getLsbD (f 5 1) = false ∨ other (fun p => p.vfmask &&& new.vfmask ≠ 0#64))) ∨
  (∃ i < 12, o = 0x10 + 8 * i ∧ f o 8 ≠ 0 ∧
    (s.devcap.getLsbD (12 + i) = false ∨ other (fun p => getAt p.pch i 0#64 &&& BitVec.ofNat 64 (f o 8) ≠ 0#64))) ∨
  (∃ d < 4, o = 0x70 + 4 * d ∧ let first := f o 4 / 2 ^ 16
    let count := f o 4 % 2 ^ 16
    count ≠ 0 ∧ (s.devcap.getLsbD d = false ∨ 256 < first + count ∨
      other (fun p => ∃ u < 256, (getAt p.cxl d 0#256).getLsbD u = true ∧ first ≤ u ∧ u < first + count))) ∨
  (o = 0x80 ∧ (2 ^ 35 ≤ f 0x80 8 ∨ noDie (f 0x80 8 / 2 ^ 33) ∨ other (fun p => p.nvme = new.nvme))) ∨
  (o = 0x88 ∧ (f 0x88 8 % 2 ^ 21 ≠ 0 ∨ ¬ holdsRange new (regionBase new) (regionSize new) ∨
    ¬ holdsRange new (reserveAt new 0) (new.ckRsv.toNat / 2 ^ 52 * 2 ^ 21))) ∨
  (o = 0x90 ∧ (f 0x90 8 % 2 ^ 13 ≠ 0 ∨ ¬ holdsRange new (f 0x90 8) (2 ^ 13))) ∨
  (o = 0xA0 ∧ ¬ imagePasses new.image) ∨
  (o = 0xA8 ∧ ∃ i, 0xA8 ≤ i ∧ i < 256 ∧ getAt bs i 0#8 ≠ 0#8)

/-- The quanta of a partition, and the VFs with a launch on a quantum (R390). -/
def onQuantum (s : State) (q v : Nat) : Prop := ∃ k, k / 16 = q ∧ holdsVf s v k

/-- A cluster and a core as the scrub leaves them (R390). -/
def scrubbedCluster (c : Cluster) : Cluster :=
  { c with jslots := [], jwords := [], claims := [], accs := [], pass := none, ending := none, handler := none, xpend := [], copies := [] }
def scrubbedCore (c : Core) : Core :=
  { Core.reset with nextReq := c.nextReq, nextPend := c.nextPend, nextM := c.nextM, nextPool := c.nextPool, epoch := c.epoch }

/-- The physical range that MEMORY_RELEASE names: pseudo-channels, or 16 GiB units numbered over the ports (R386, R388). -/
def unitBase (cxl : Bool) (unit : Nat) : Nat := if cxl then 2 ^ 48 + unit * 2 ^ 34 else unit * 2 ^ 30
def unitsHeld (p : Part) (cxl : Bool) (unit count : Nat) : Prop :=
  count ≠ 0 ∧ holdsRange p (unitBase cxl unit) (unitBase cxl (unit + count) - unitBase cxl unit)

/-- The partition without the units. -/
structure UnitsGone (p y : Part) (cxl : Bool) (unit count : Nat) : Prop where
  rest : { y with pch := p.pch, cxl := p.cxl } = p
  channels : ∀ c < 768, (getAt y.pch (c / 64) 0#64).getLsbD (c % 64) =
    ((getAt p.pch (c / 64) 0#64).getLsbD (c % 64) && !(!cxl && decide (unit ≤ c) && decide (c < unit + count)))
  ports : ∀ d < 4, ∀ u < 256, (getAt y.cxl d 0#256).getLsbD u =
    ((getAt p.cxl d 0#256).getLsbD u && !(cxl && decide (unit ≤ 256 * d + u) && decide (256 * d + u < unit + count)))

/-- The memory is released: it reads 0 and holds no poison, no line of it stands in Brocade, and no core translates for the partition
any more; the rest stands as it did (R389). -/
structure MemoryGone (s t : State) (p : Part) (base size : Nat) : Prop where
  zero : ∀ a, base ≤ a → a < base + size → t.physByte a = 0#8 ∧ t.physPoison a = false
  lines : ∀ l ∈ t.brocade, ∀ a, l.pa = some a → a < base ∨ base + size ≤ a
  kept : bytesKept s t (fun a => base ≤ a ∧ a < base + size)
  caches : ∀ k, { (t.core k) with l1 := (s.core k).l1, tlb := (s.core k).tlb } = s.core k ∧
    (t.core k).tlb = (s.core k).tlb.filter (fun e => !(p.vfmask.getLsbD e.vf))

/-! ## The host's registers and answers (R354, R364, R375, R393 to R398) -/

/-- The machine as a word of core `k` sees it. -/
def atCore (s : State) (k : Nat) : State := { s with cur := { s.cur with core := k } }

/-- A pending record of a partition, with the records before and after it. -/
structure PendingRec (s : State) (n : Nat) (p : Part) (tag : BitVec 16) (k : HaKind) (pre post : List (BitVec 16 × HaKind)) : Prop where
  part : AMap.look s.parts n = some p
  record : p.haPending = pre ++ (tag, k) :: post ∧ ∀ e ∈ pre, e.1 ≠ tag
def answered (s : State) (n : Nat) (p : Part) (pre post : List (BitVec 16 × HaKind)) : State :=
  { s with parts := AMap.put s.parts n { p with haPending := pre ++ post } }

/-- An answer's KIND fits a record (R392, R393, R396). -/
def fitsRecord (i : Instr) : HaKind → Prop
  | .xlate .. => (∃ n x tag, i = .harespResolve n x tag) ∨ ∃ n x tag, i = .harespAbort n x tag
  | .copy _ => ∃ n x tag, i = .harespMakeCopy n x tag
  | .relaunch .. => (∃ n x tag, i = .harespStartRun n x tag) ∨ ∃ n x tag, i = .harespDiscardRun n x tag
  | .pieces first count => ∃ n x tag, i = .harespPieceDrained n x tag ∧ first ≤ x.toNat ∧ x.toNat < first + count

/-- The partition and tag that an answer names. -/
def answerOf : Instr → Option (Nat × BitVec 16)
  | .harespResolve n _ tag => some (n, tag)
  | .harespAbort n _ tag => some (n, tag)
  | .harespMakeCopy n _ tag => some (n, tag)
  | .harespStartRun n _ tag => some (n, tag)
  | .harespDiscardRun n _ tag => some (n, tag)
  | .harespPieceDrained n _ tag => some (n, tag)
  | _ => none

/-- The event that an answer of a KIND is, for each KIND that there is (R393). -/
def answerEvent (n kind : Nat) (arg : Word) (tag : BitVec 16) : Option Instr :=
  match kind with
  | 1 => some (.harespResolve n arg tag)
  | 2 => some (.harespAbort n arg tag)
  | 3 => some (.harespMakeCopy n arg tag)
  | 4 => some (.harespStartRun n arg tag)
  | 5 => some (.harespDiscardRun n arg tag)
  | 6 => some (.harespPieceDrained n arg tag)
  | _ => none

/-- Every line attached to entry `e` of a cluster walks again: it stands in its core's queue with its lanes as they were, translated,
waiting for room, or attached to an entry anew (R179). -/
def linesReplay (s t : State) (cl e : Nat) : Prop :=
  ∀ i < 4, ∀ r ∈ (s.core (4 * cl + i)).reqs, r.stage = .faulted e → r.gone = false →
    ∃ y ∈ (t.core (4 * cl + i)).reqs, y.id = r.id ∧ y.kind = r.kind ∧ y.lanes = r.lanes ∧
      (y.stage = .ready ∨ y.stage = .stuck ∨ ∃ f, y.stage = .faulted f)

/-- Every line attached to it completes in each of its lanes, with a record of XLATE while the core's queue has room (R179, R181). -/
def linesAborted (s t : State) (cl e : Nat) : Prop :=
  ∀ i < 4, ∀ r ∈ (s.core (4 * cl + i)).reqs, r.stage = .faulted e →
    (∀ y ∈ (t.core (4 * cl + i)).reqs, y.id ≠ r.id) ∧ ∀ l ∈ r.lanes, AMap.has (t.core (4 * cl + i)).pend l.pend = false ∧
      (faultWords r l 4 ∈ (t.core (4 * cl + i)).faultq ∨ 128 ≤ (t.core (4 * cl + i)).faultq.length)

/-- The requests of a cluster's cores have numbers of their own. -/
def numbered (s : State) (cl : Nat) : Prop := ∀ i < 4, ((s.core (4 * cl + i)).reqs.map (fun r => r.id)).Nodup

/-- The registers of a partition block, of a VF block and of a VF's BAR by offset; an offset not listed is no register (R397, R398). The
layout of the MSI-X table is not the spec's (log 121). -/
def partBlock (p : Nat) : List (Nat × RegTarget) :=
  [(0x000, .haqhead p), (0x004, .haqtail p), (0x008, .haresp p), (0x010, .hastat p), (0x018, .drainsel p)]
def vfBlock (v : Nat) : List (Nat × RegTarget) := [(0x000, .ptroot v), (0x008, .vfweight v), (0x00C, .pretimers v), (0x010, .trapbase v)]
def vfBar (v : Nat) : List (Nat × RegTarget) :=
  [(0x0000, .trigger v), (0x0008, .graphload v)] ++ (List.range 16).map (fun i => (0x0100 + 8 * i, .graphstat v i)) ++
    (List.range 8).map (fun i => (0x1000 + 8 * i, .msix v i))
def registerAt (block : List (Nat × RegTarget)) (o : Nat) : RegTarget :=
  match block.find? (fun r => r.1 == o) with | some r => r.2 | none => .unlisted

/-- Records between HEAD and TAIL; the queue is full at 255 (R398). -/
def between (head tail : Nat) : Nat := (tail + 256 - head) % 256

/-- What a register of the BARs reads as: HARESP, TRIGGER, GRAPHLOAD, a register of an absent partition and an offset not listed 0 (R100,
R103, R177, R360, R364, R398). -/
def readsAs (s : State) : RegTarget → DWord
  | .haqhead n => BitVec.ofNat 64 (((AMap.look s.parts n).map (·.haHead)).getD 0)
  | .haqtail n => BitVec.ofNat 64 (((AMap.look s.parts n).map (·.haTail)).getD 0)
  | .hastat n => match AMap.look s.parts n with
    | some p => BitVec.ofNat 64 ((if between p.haHead p.haTail = 255 then 2 ^ 31 else 0) + 2 ^ 8 * min 255 p.haPending.length + p.haErr)
    | none => 0#64
  | .drainsel n => ((AMap.look s.parts n).map (·.drainsel.setWidth 64)).getD 0#64
  | .ptroot v => (s.vf v).ptroot
  | .vfweight v => BitVec.ofNat 64 (s.vf v).weight
  | .pretimers v => (s.vf v).pretimers.setWidth 64
  | .trapbase v => (s.vf v).trapbase
  | .graphstat v n => let x := graphSlot s v n
    BitVec.ofNat 64 (x.doneCount.toNat + (if x.loading.isSome then 2 ^ 38 else 0) + 2 ^ 39 * x.triggers.length + 2 ^ 42 * x.state + 2 ^ 44 * x.err +
      2 ^ 48 * x.errNode)
  | .msix v i => AMap.lookD (s.vf v).msix i 0#64
  | _ => 0#64

/-- Memory as it stood when a launch started, and the handler segment that it holds of TRAPBASE (R33, R360): where TRAPBASE lets traps be
vectored and names a segment that the launch does not hold yet, that segment's words as memory then held them. -/
def startOf (s : State) (x : Launch) : State := { s with mem := x.mem, poison := x.poison, brocade := x.brocade }
def holdsHandler (s : State) (v : Nat) (b : DWord) (x y : Launch) : Prop :=
  { y with handlers := x.handlers } = x ∧ (x.vf ≠ v ∨ ¬ vectors b ∨ (∃ h ∈ x.handlers, h.1 = b) → y = x) ∧
    (x.vf = v → vectors b → (∀ h ∈ x.handlers, h.1 ≠ b) → vaGood (startOf s x) v (b.toNat % 2 ^ 52 / 64 * 64) (768 * (b.toNat / 2 ^ 53)) →
      Coherent (startOf s x) →
      y.handlers = x.handlers ++ [(b, segment (startOf s x) v (b.toNat % 2 ^ 52 / 64 * 64) (64 * (b.toNat / 2 ^ 53)))])

/-- Records that waited have been written while there was room (R392): in order, each under the next tag, with one interrupt each. -/
structure RecordsWritten (s t : State) (n : Nat) (p y : Part) (m : Nat) : Prop where
  waiting : y.haWaiting = p.haWaiting.drop m ∧ m ≤ p.haWaiting.length
  tail : y.haTail = (p.haTail + m) % 256
  pending : y.haPending = p.haPending ++ ((p.haWaiting.take m).zipIdx.map (fun e => (p.haTag + BitVec.ofNat 16 e.2, e.1))) ∧
    y.haTag = p.haTag + BitVec.ofNat 16 m
  room : between y.haHead y.haTail ≤ 255 ∧ (y.haWaiting = [] ∨ between y.haHead y.haTail = 255)
  rest : { y with haWaiting := p.haWaiting, haTail := p.haTail, haPending := p.haPending, haTag := p.haTag } = p
  out : t.out = s.out ++ List.replicate m (.msixPf 2)
  kept : ∀ a, (∀ i, i < m → ¬ (p.haqbase + 32 * ((p.haTail + i) % 256) ≤ a ∧ a < p.haqbase + 32 * ((p.haTail + i) % 256) + 32)) →
    t.physByte a = s.physByte a

/-! ## The device and its host (R3, R397 to R410) -/

/-- DEVCAP of a variant (R3), and as it is built once some stacks and ports did not train (R3, R405). -/
def capOf (variant : Nat) : Word := if variant = 1 then 0x1303F333#32 else if variant = 2 then 0x2FFFF00F#32 else 0x0FFFFFFF#32
def trainedCap (variant : Nat) (hbms ports : Nat → Bool) (w : Word) : Prop :=
  ∀ i < 32, w.getLsbD i = ((capOf variant).getLsbD i && !(decide (12 ≤ i) && decide (i < 24) && !(hbms (i - 12))) &&
    !(decide (i < 4) && !(ports i)))

/-- The first stage of the start-up that fails, with its code (R405). -/
def stageFailed (b : BootOutcome) (stage : Nat) : Prop :=
  (stage = 1 ∧ b.firmwareOk = false) ∨ (stage = 2 ∧ b.firmwareOk = true ∧ b.bistOk = false) ∨
  (stage = 4 ∧ b.firmwareOk = true ∧ b.bistOk = true ∧ b.linksOk = false) ∨
  (stage = 5 ∧ b.firmwareOk = true ∧ b.bistOk = true ∧ b.linksOk = true ∧ b.imagesOk = false)

/-- Bytes can be written at a VF's virtual address within one line: mapped for a write at `pa`, and whatever these bytes become the
translation stays (the page tables do not lie in them); nothing is frozen. -/
structure LineTakes (s : State) (v va pa : Nat) (bs : List Byte) : Prop where
  line : va % 64 + bs.length ≤ 64 ∧ pa % 64 = 0 ∧ s.walk v (va / 64 * 64) true = .ok pa
  stable : ∀ u : State, u.vfs = s.vfs → u.parts = s.parts → u.dies = s.dies →
    (∀ a, ¬ (pa + va % 64 ≤ a ∧ a < pa + va % 64 + bs.length) → u.physByte a = s.physByte a) → u.walk v (va / 64 * 64) true = s.walk v (va / 64 * 64) true
  coherent : Coherent s
  thawed : ∀ q ∈ s.parts, q.2.pieces = []

/-- Bytes were written from a physical place on, through the home slices: no core owns their words any more, no sound sector became
poisoned, and nothing else changed (R181, R184). -/
structure BytesWritten (s t : State) (pa : Nat) (bs : List Byte) : Prop where
  bytes : ∀ a, t.physByte a = written s.physByte pa bs a
  poison : ∀ a, s.physPoison a = false → t.physPoison a = false
  owners : bs ≠ [] → ∀ l ∈ s.brocade, ∀ x, l.pa = some x → ∀ n k, (n, k) ∈ l.owner → x + 4 * n < pa + bs.length → pa < x + 4 * n + 4 →
    ∀ y ∈ (t.core k).l1, y.key = l.key → y.valid.getLsbD n = false ∧ y.owned.getLsbD n = false
  only : onlyL1s s t ∧ { t with cores := s.cores, mem := s.mem, poison := s.poison, brocade := s.brocade } = s

/-- The image of a new partition is in its memory, at a place that the spec does not give (R408, log 91), where its memory holds it in
one piece. -/
def imageCopied (s t : State) (p : Part) : Prop :=
  ((∃ pa, holdsRange p pa p.image.length) → ∃ pa, holdsRange p pa p.image.length ∧ BytesWritten s t pa p.image) ∧
    ((∀ pa, ¬ holdsRange p pa p.image.length) → t = s)

/-- What the SPDM responder answers to a request, by the code of its response (R407; the codes and the bodies are not the spec's, log 50). -/
def spdmCode (s : State) : Instr → Option (BitVec 8)
  | .getVersion => some 0x04#8
  | .getCapabilities => some 0x61#8
  | .negotiateAlgorithms => some 0x63#8
  | .getDigests => some 0x01#8
  | .getCertificate _ _ => some 0x02#8
  | .challenge _ => some 0x03#8
  | .getMeasurements i => some (if i = 1 ∨ i = 2 ∨ (16 ≤ i ∧ AMap.has s.parts (i - 16) = true) then 0x60#8 else 0x7F#8)
  | .unsupportedRequest _ => some 0x7F#8
  | _ => none

/-! ## Steps and groups (R31 to R35, R46, R50) -/

/-- The words of a run are in hand, each thread at the word `here`; nothing else of the machine has changed. -/
def inHand (s : State) (core warp : Nat) (run : List Nat) (head : Bool) (pc : Word) (len : Nat) (here : Word) (f : Thread → Thread) : State :=
  { s.setCore core ((s.core core).updAll run (fun t => { (f t) with pc := here })) with
    cur := ⟨core, false, warp, run, head, here, pc, len, none, false, s.draws, .issued⟩, draws := s.draws + 1 }

/-- The state in which a run has begun a group of `len` words whose first word stands at `pc`, with the word at `here` in hand: it
issues in this cycle, its own time passes as R35 guarantees, results that are visible by then are visible and those that wait for this
group count from it, and the clause's wait is over (R35, R36, R424). -/
def began (s : State) (core warp : Nat) (run : List Nat) (head : Bool) (pc : Word) (len : Nat) (d : BitVec 2) (here : Word) : State :=
  inHand s core warp run head pc len here (fun t =>
    { t with vt := t.vt + 1 + d.toNat, last := (s.core core).clock, copyAt := 0, wait := 0#12,
             early := beginNotes (t.vt + 1 + d.toNat) t.early })

/-- The front end's word is in hand, where it stands already. -/
def inHandFront (s : State) (core : Nat) (f g : FrontEnd) : State :=
  { s.setCore core { (s.core core) with fe := some g } with
    cur := ⟨core, true, 0, [], true, f.pc, f.pc, 1, none, false, s.draws, .issued⟩, draws := s.draws + 1 }

/-- The front end has begun its word. -/
def beganFront (s : State) (core : Nat) (f : FrontEnd) (d : BitVec 2) : State :=
  inHandFront s core f
    { f with vt := f.vt + 1 + d.toNat, last := (s.core core).clock, wait := 0#12, early := beginNotes (f.vt + 1 + d.toNat) f.early }

/-- The last slot of a core's cycle has been issued: what its words drop is freed (R293). -/
def slotDone (core : Nat) : Host.Outcome State Fault Refusal → Host.Outcome State Fault Refusal
  | .next t => .next (if t.plan.isEmpty then { t with cores := AMap.put t.cores core (t.core core).flushDrops } else t)
  | o => o

/-- A word that waits has not issued: the machine is as it was, but for the free draws and the word in hand. -/
def unlessWaiting (s : State) : Host.Outcome State Fault Refusal → Host.Outcome State Fault Refusal
  | .next t =>
    match t.cur.status with
    | .waiting _ => .next { s with cur := t.cur, draws := t.draws }
    | .waitingAll => .next { s with cur := t.cur, draws := t.draws }
    | _ => .next t
  | o => o

/-- The packet that a run of a launch fetches from at its PC, where it breaks no rule of R55. -/
structure Fetches (s : State) (core : Nat) (run : List Nat) (p : List Word) : Prop where
  packet : ∃ l x, (s.core core).launch = some l ∧ s.launch l = some x ∧
    packetAt (x.segment false ((s.core core).th (run.headD 0)).inHandler ((s.core core).th (run.headD 0)).handlerBase)
      ((s.core core).th (run.headD 0)).pc = some p
  good : packetFault false p = none
  aligned : ((s.core core).th (run.headD 0)).pc.toNat % 4 = 0

/-- KILL, GRACE and SLICE of PRETIMERS (R364). -/
def timerFields (w : Word) : BitVec 10 × BitVec 12 × BitVec 10 := (w.extractLsb' 22 10, w.extractLsb' 10 12, w.extractLsb' 0 10)

end Sys2Proof.Claims

open Sys2Proof Sys2Proof.Machine Sys2Proof.Claims

/-- In warp code an integer word completes in every state in which it may issue, for every form and EXT that it accepts:
each thread that executes it has the result of its rule in the destination and in y0, an excluded thread the old value
in y0, and nothing else changes but PC, YC and the performance counters (R44, R114 to R129).
In front-end code an integer word completes with the 64-bit result of its rule in its k register, and nothing else
changes but the PC and the performance counters (R46, R114, R119 to R129). -/
def Obligations.IntegerWordsComplete : Prop :=
  (∀ (i : Instr) (s : State) (x : IntWord), intWordOf s.ext i = some x → WarpReady s i → s.reads x.srcs → s.writes x.dst 4 →
     ∃ t, exec i s = .next t ∧ t.completed ∧
       ResultEffect s t .x x.dst
         (fun u => x.result 32 ((s.thread u).predAt s.cur.draw u (s.ext.sel.toNat % 8)) (x.args.map (s.here.readReg s.cur.draw u)))
         (fun _ => Thread.onlyNotes)) ∧
  (∀ (i : Instr) (s : State) (f : FrontEnd) (x : IntWord), intWordOf s.ext i = some x → FrontReady s i f →
     (∀ r ∈ x.srcs, feSrcOk r = true) → feDstOk x.dst = true → f.noLater x.dst (f.last + 4) →
     ∃ t f', exec i s = .next t ∧ t.completed ∧ FrontEffect s t f' ∧
       f.resulted f' x.dst (x.result 64 (f.predAt s.cur.draw 0) (x.args.map (f.read s.cur.draw))))

/-- ICMP completes in warp code with its condition in the predicate of each thread that executes it, and in front-end code
with the 64-bit condition in the front end's; nothing else changes but PC, YC and the performance counters (R115, R116,
R130).
FCMP completes with its condition in the predicate, zeros equal whatever their signs, and sets NV by its table alone (R147).
COND 12 to 15 of ICMP and 8 to 15 of FCMP raise ILLEGAL_INSTRUCTION (R130, R147). -/
def Obligations.ComparesWriteTheirPredicates : Prop :=
  ((∀ (s : State) (lk : Link) (k : BitVec 4) (p : BitVec 3) (a b : Reg), WarpReady s (.icmp lk k p a b) → s.reads [a, b] →
     s.writesPred p.toNat 4 →
     ∃ t, exec (.icmp lk k p a b) s = .next t ∧ t.completed ∧
       PredEffect s t p.toNat
         (fun u => intCompare k (s.here.readReg s.cur.draw u a) (s.here.readReg s.cur.draw u b)) (fun _ => Thread.onlyNotes)) ∧
   (∀ (s : State) (f : FrontEnd) (lk : Link) (k : BitVec 4) (p : BitVec 3) (a b : Reg), FrontReady s (.icmp lk k p a b) f →
     feSrcOk a = true → feSrcOk b = true → (∀ e ∈ f.early, e.outlasts (predCode p.toNat) (f.last + 4) = false) →
     ∃ t f', exec (.icmp lk k p a b) s = .next t ∧ t.completed ∧ FrontEffect s t f' ∧
       { f' with early := f.early } = { f with
         pc := f.pc + 4#32
         pred := setPredBit f.pred p.toNat (intCompare k (f.read s.cur.draw a) (f.read s.cur.draw b)) })) ∧
  (∀ (s : State) (lk : Link) (k : BitVec 4) (p : BitVec 3) (a b : Reg), WarpReady s (.fcmp lk k p a b) → s.reads [a, b] →
     s.writesPred p.toNat 4 →
     let r (u : Nat) : Bool × Bool := floatCompare k (s.here.readF s.cur.draw u fp32 a) (s.here.readF s.cur.draw u fp32 b)
     ∃ t, exec (.fcmp lk k p a b) s = .next t ∧ t.completed ∧
       PredEffect s t p.toNat (fun u => (r u).1) (fun u => Thread.gained (nvIf (r u).2))) ∧
  (∀ (s : State) (lk : Link) (k : BitVec 4) (p : BitVec 3) (a b : Reg),
    (12 ≤ k.toNat → Traps (exec (.icmp lk k p a b) s) .illegalInstruction) ∧
    (8 ≤ k.toNat → Traps (exec (.fcmp lk k p a b) s) .illegalInstruction))

/-- A word whose entry does not define its fields or does not accept its EXT, or that stands outside its stream, raises
ILLEGAL_INSTRUCTION at its own PC, whatever else holds (R46, R51, R54). HDR and EXT have no EXT before them (R50). -/
def Obligations.UndefinedFormsAreIllegal : Prop :=
  ∀ (i : Instr) (s : State) (st : Stream), streamOf i = some st → (∀ w a b y, i ≠ .hdr w a b y) →
    (∀ a b c d e f, i ≠ .ext a b c d e f) →
    s.cur.extBad = true ∨ takes s.ext i = false ∨ i.wf = false ∨
      (s.cur.fe = true ∧ (st = .warp ∨ s.cur.ext.isSome = true)) ∨ (s.cur.fe = false ∧ st = .front) →
    ∃ t info, exec i s = .next t ∧ t.cur.status = .trapped info (slotOf s.cur.pc) ∧ info.cause = .illegalInstruction

/-- A float, packed or special-function word completes in every state in which it may issue, with the value of its own
operands, rounded once, in each thread that executes it, and its status bits added to FSTAT there alone (R137, R141, R145,
R148, R155).
FADD, FSUB, FMUL and FFMA without saturation write the canonical NaN where an operand is a NaN, where infinities
cancel and where a zero meets an infinity in a product (R135, R145).
Where the spec leaves it open the model's choice stands (log 26). -/
def Obligations.FloatWordsComplete : Prop :=
  (∀ (i : Instr) (s : State) (x : FloatWord), floatWordOf s i = some x → WarpReady s i → s.reads x.srcs →
     s.writes x.dst x.pipe.delay →
     ∃ t, exec i s = .next t ∧ t.completed ∧
       ResultEffect s t x.pipe x.dst (fun u => BitVec.ofNat 32 (x.val s.here u).1)
         (fun u => Thread.gained (BitVec.ofNat 32 (x.val s.here u).2))) ∧
  (∀ (i : Instr) (s : State) (x : FloatWord) (t : State) (lk : Link) (d a b : Reg), floatWordOf s i = some x → WarpReady s i →
     s.reads x.srcs → s.writes x.dst 4 → s.ext.sat = false → exec i s = .next t →
     let f (u : Nat) (r : Reg) : Nat := s.here.readF s.cur.draw u fp32 r
     let minus (x y : Nat) : Bool := isInf x && isInf y && !(x == y)
     let gone (u : Nat) : Prop :=
       (i = .fadd lk d a b ∧ (isNan (f u a) ∨ isNan (f u b) ∨ minus (f u a) (f u b))) ∨
       (i = .fsub lk d a b ∧ (isNan (f u a) ∨ isNan (f u b) ∨ (isInf (f u a) ∧ f u a = f u b))) ∨
       (i = .fmul lk d a b ∧ (isNan (f u a) ∨ isNan (f u b) ∨ (isZero (f u a) ∧ isInf (f u b)) ∨ (isInf (f u a) ∧ isZero (f u b)))) ∨
       (i = .ffma lk d a b ∧ (isNan (f u a) ∨ isNan (f u b) ∨ isNan (f u (third s.ext d)) ∨
         (isZero (f u a) ∧ isInf (f u b)) ∨ (isInf (f u a) ∧ isZero (f u b)) ∨
         ((isInf (f u a) ∨ isInf (f u b)) ∧ isInf (f u (third s.ext d)) ∧
           (f u a / 2 ^ 31 + f u b / 2 ^ 31 + f u (third s.ext d) / 2 ^ 31) % 2 = 1)))
     ∀ u ∈ s.active, gone u → ∀ q, s.here.cell u d = some q → (t.core s.cur.core).rowWord q.1 q.2 = 0x7FC00000#32)

/-- FMIN and FMAX complete with the lesser or greater operand, −0 below +0, the other operand where one is a NaN, the canonical
NaN where both are, and NV for a signalling NaN; FABS completes with the sign bit clear (R146).
A conversion completes in every state in which it may issue; a narrowing one changes the element it names alone, and a
stochastic one takes one step of the generator of each thread that executes it (R138, R150 to R154). -/
def Obligations.MinimaAndConversionsComplete : Prop :=
  (∀ (s : State) (lk : Link) (d a b : Reg) (max : Bool),
     let f (u : Nat) (r : Reg) : Nat := s.here.readF s.cur.draw u fp32 r
     let i : Instr := if max then .fmax lk d a b else .fmin lk d a b
     (WarpReady s i → s.reads [a, b] → s.writes d 4 →
       ∃ t, exec i s = .next t ∧ t.completed ∧
         ResultEffect s t .x d (fun u => BitVec.ofNat 32 (pickOf max (f u a) (f u b)))
           (fun u => Thread.gained (nvIf (isSnan (f u a) || isSnan (f u b))))) ∧
     (WarpReady s (.fabs lk d a) → s.reads [a] → s.writes d 4 →
       ∃ t, exec (.fabs lk d a) s = .next t ∧ t.completed ∧
         ResultEffect s t .x d (fun u => BitVec.ofNat 32 (f u a) &&& 0x7FFFFFFF#32) (fun _ => Thread.onlyNotes))) ∧
  (∀ (i : Instr) (s : State) (d : Reg) (srcs : List Reg), convertOf s i = some (d, srcs) → WarpReady s i → s.reads srcs →
     s.writes d 6 →
     ∃ (t : State) (val bits : Nat → Word), exec i s = .next t ∧ t.completed ∧
       ResultEffect s t .y d val (fun u x y =>
         { y with early := x.early, fstat := x.fstat, gen := x.gen } = x ∧ y.fstat = x.fstat ||| bits u ∧
         y.gen = if s.ext.sr then nextG x.gen else x.gen) ∧
       ∀ w e, mergesInto s i = some (w, e) → ∀ u ∈ s.active, ∀ n, n < 32 → n / w ≠ e u →
         (val u).getLsbD n = (s.here.readReg s.cur.draw u d).getLsbD n)

/-- RAND writes the value that the next step of G draws and leaves G one step on; SEED sets G from its sources and the TID
and writes no register (R138, R139, R156). -/
def Obligations.GeneratorsStepAndSeed : Prop :=
  (∀ (s : State) (lk : Link) (d : Reg), WarpReady s (.rand lk d) → s.writes d 6 →
    ∃ t, exec (.rand lk d) s = .next t ∧ t.completed ∧
      ResultEffect s t .y d (fun u => drawnOf (s.thread u).gen)
        (fun _ x y => { y with early := x.early, gen := x.gen } = x ∧ y.gen = nextG x.gen)) ∧
  (∀ (s : State) (lk : Link) (a b : Reg), WarpReady s (.seed lk a b) → s.reads [a, b] → s.cur.run.Nodup →
    (∀ u ∈ s.cur.run, AMap.has s.here.threads u = true) →
    ∃ t, exec (.seed lk a b) s = .next t ∧ t.completed ∧ s.onlyHere t ∧
      { (t.core s.cur.core) with threads := s.here.threads } = s.here ∧
      ∀ u, (t.core s.cur.core).th u =
        if u ∈ s.active then { ((s.thread u).issued true) with
            gen := BitVec.ofNat 64 ((s.here.readReg s.cur.draw u b).toNat * 2 ^ 32 + (s.here.readReg s.cur.draw u a).toNat) ^^^
              BitVec.ofNat 64 ((s.thread u).tid.toNat * 0x9E3779B97F4A7C15) }
        else if u ∈ s.cur.run then (s.thread u).issued false else s.thread u)

/-- A word that reads other lanes completes wherever R65 lets it issue, with the value and predicate of its rule, and
changes nothing else (R157 to R159, R162, R165 to R168).
SCAN gives each member the operation over the members up to it in ascending order, REDL gives every active lane the
root of one fixed tree over the lane positions, with the status bits of every operation on the way (R161, R163, R164). -/
def Obligations.LanesReadAndCombine : Prop :=
  (∀ (i : Instr) (s : State) (x : CrossWord), crossOf s i = some x → WarpReady s i → Converged s → s.reads x.srcs → x.needs →
     (∀ lk d a b, i = .vote lk d a b → b.toNat ≤ 4) → s.writes x.dst 6 → (∀ q, x.pred = some q → s.writesPred q.1 6) →
     ∃ t, exec i s = .next t ∧ t.completed ∧ CrossEffect s t x) ∧
  (∀ (i : Instr) (s : State) (x : CrossWord), combineOf s i = some x → WarpReady s i → Converged s → s.reads x.srcs →
     s.writes x.dst 6 → (lanesOf s = 16 ∨ lanesOf s = 32 ∨ lanesOf s = 64) →
     ∃ t, exec i s = .next t ∧ t.completed ∧ CrossEffect s t x)

/-- A branch whose target lies in the segment moves the lanes in which it is taken there and the others to the next word,
in warp code and in front-end code, and changes nothing else (R66, R79, R81).
A direct branch whose target lies outside the segment raises ILLEGAL_PACKET whether or not a lane would take it and whatever
else it breaks; an indirect one does so where a lane that executes it names no packet of the segment (R56, R79 to R81).
CALL moves every lane that executes it to its target and leaves the packet after its own in the link register: o7 in
warp code, k63 in front-end code (R80). -/
def Obligations.BranchesAndCallsMoveTheirLanes : Prop :=
  (((∀ (i : Instr) (s : State) (x : Branch), branchOf s i = some x → WarpReady s i → Listed s → s.reads x.srcs →
      (∀ u, x.direct = true ∨ u ∈ s.active → inSegment s (x.target u)) →
      ∃ t, exec i s = .next t ∧ t.completed ∧ Moved s t s.here (fun u y => if x.taken u then sentTo (x.target u) y else y)) ∧
    (∀ (i : Instr) (s : State) (f : FrontEnd) (x : Branch), frontBranchOf s f i = some x → FrontReady s i f →
      (∀ r ∈ x.srcs, feSrcOk r = true) → inSegment s (x.target 0) →
      ∃ t f', exec i s = .next t ∧ t.completed ∧ FrontEffect s t f' ∧
        f' = if x.taken 0 then frontTo (x.target 0) f else { f with pc := f.pc + 4#32 })) ∧
   ((∀ (i : Instr) (s : State) (off : BitVec 19) (k : BitVec 2) (p : BitVec 3) (n : Bool),
      i = .bra k off ∨ i = .brc k p n off ∨ i = .call k off → ¬ inSegment s (offsetTo s off) → Traps (exec i s) .illegalPacket) ∧
    (∀ (i : Instr) (s : State) (x : Branch) (u : Nat), branchOf s i = some x → x.direct = false →
      s.cur.fe = false → u ∈ s.active → (∀ r ∈ x.srcs, s.here.srcOk u r = true) → ¬ inSegment s (x.target u) →
      Traps (exec i s) .illegalPacket) ∧
    (∀ (i : Instr) (s : State) (f : FrontEnd) (x : Branch), frontBranchOf s f i = some x → x.direct = false →
      s.cur.fe = true → s.here.fe = some f → (∀ r ∈ x.srcs, feSrcOk r = true) → ¬ inSegment s (x.target 0) →
      Traps (exec i s) .illegalPacket))) ∧
  ((∀ (lk : BitVec 2) (off : BitVec 19) (s : State), WarpReady s (.call lk off) → inSegment s (offsetTo s off) →
     s.writes 103#7 0 →
     ∃ t, exec (.call lk off) s = .next t ∧ t.completed ∧
       Plain s t 103#7 (fun _ => BitVec.ofNat 32 (s.cur.pc.toNat / 12 + 1)) (fun _ => sentTo (offsetTo s off))) ∧
   (∀ (lk : BitVec 2) (off : BitVec 19) (s : State) (f : FrontEnd), FrontReady s (.call lk off) f →
     inSegment s (offsetTo s off) → f.noLater 63#7 f.last →
     ∃ t f', exec (.call lk off) s = .next t ∧ t.completed ∧ FrontEffect s t f' ∧
       { f' with early := f.early } = frontTo (offsetTo s off) { f with k := setAt f.k 63 (BitVec.ofNat 64 (s.cur.pc.toNat / 12 + 1)) }))

/-- NOP, PRIO and SLEEP complete in every state in which they may issue: NOP changes nothing but PC and YC, PRIO gives the
issue-priority token to the group that the lowest lane names, or to none where it does not exist, and SLEEP holds each
thread for the cycles that its register names, 0 holding none (R78, R87, R88).
YIELD completes once the threads that execute it are at rest: each gets the new deadline, or the launch's for 0, YC 0
and unwritten last-result entries, and halts for a pending soft request (R82). -/
def Obligations.NopPrioSleepAndYield : Prop :=
  ((∀ (s : State) (lk : Link), WarpReady s (.nop lk) → Listed s →
     ∃ t, exec (.nop lk) s = .next t ∧ t.completed ∧ Moved s t s.here (fun _ y => y)) ∧
   (∀ (s : State) (lk : Link) (f : FrontEnd), FrontReady s (.nop lk) f →
     ∃ t, exec (.nop lk) s = .next t ∧ t.completed ∧ FrontEffect s t { f with pc := f.pc + 4#32 }) ∧
   (∀ (s : State) (lk : Link) (a : Reg), WarpReady s (.prio lk a) → Listed s → noHelpers s → s.reads [a] →
     ∃ t, exec (.prio lk a) s = .next t ∧ t.completed ∧
       Moved s t { s.here with token := match s.active with
         | [] => s.here.token
         | u :: _ =>
           let g := (s.here.readReg s.cur.draw u a).toNat
           if g < 64 ∧ AMap.has s.here.groups g = true then some g else none } (fun _ y => y)) ∧
   (∀ (s : State) (lk : Link) (a : Reg), WarpReady s (.sleep lk a) → Listed s → noHelpers s → s.reads [a] →
     ∃ t, exec (.sleep lk a) s = .next t ∧ t.completed ∧
       Moved s t s.here (fun u y =>
         let n := (s.here.readReg s.cur.draw u a).toNat % 65536
         if n = 0 then y else { y with hold := .sleep n }))) ∧
  (∀ (s : State) (lk : Link) (l : BitVec 8), WarpReady s (.yield lk l) → Listed s → noHelpers s →
     (∀ u ∈ s.active, atRest s u) →
     ∃ t, exec (.yield lk l) s = .next t ∧ t.completed ∧ Moved s t s.here (fun _ y => yielded s l.toNat y))

/-- HDR opens a clause in every thread of the run, takes no issue cycle and adds nothing to YC; with Y it performs YIELD first,
with the deadline of the last YIELD, once the threads are at rest (R39 to R43, R77). EXT holds its fields for the word
that follows, and marks a word illegal for a reserved RM or for SR with RM (R50, R51). -/
def Obligations.ClausesAndExtensions : Prop :=
  (∀ (s : State) (w : BitVec 12) (a b : BitVec 4) (y : Bool), s.cur.fe = false → Listed s →
    (y = true → noHelpers s ∧ ∀ u ∈ s.cur.run, atRest s u) →
    ∃ t, exec (.hdr w a b y) s = .next t ∧ t.completed ∧ s.onlyHere t ∧
      { (t.core s.cur.core) with threads := s.here.threads } = s.here ∧
      ∀ u, (t.core s.cur.core).th u =
        if u ∈ s.cur.run then
          (if y then yielded s (s.thread u).lastYield (opened w a b (s.thread u)) else opened w a b (s.thread u))
        else s.thread u) ∧
  (∀ (s : State) (f : FrontEnd) (w : BitVec 12) (a b : BitVec 4) (y : Bool), FrontReady s (.hdr w a b y) f →
    (y = true → ∀ n ∈ f.flags, n = 0) →
    ∃ t, exec (.hdr w a b y) s = .next t ∧ t.completed ∧
      FrontEffect s t { f with pc := f.pc + 4#32, setA := a, setB := b, wait := w }) ∧
  (∀ (s : State) (c3 : Reg) (rm : BitVec 3) (sr sat : Bool) (g sel : BitVec 4), s.cur.fe = false → Listed s →
    ∃ t, exec (.ext c3 rm sr sat g sel) s = .next t ∧ t.completed ∧ s.onlyHere t ∧
      t.cur.ext = some ⟨c3, rm, sr, sat, g, sel⟩ ∧
      (t.cur.extBad = true ↔ 5 ≤ rm.toNat ∨ (sr = true ∧ rm ≠ 0#3)) ∧
      { (t.core s.cur.core) with threads := s.here.threads } = s.here ∧
      ∀ u, (t.core s.cur.core).th u = if u ∈ s.cur.run then (s.thread u).issued false else s.thread u)

/-- EXIT completes once the threads that execute it are at rest, TAIL where the retirement tracker has an entry for each;
they are then on the core no more and members of no group, and no byte of memory changed. A front-end EXIT ends the front
end (R83, R84, R105).
DQPUT gives the value to the live warps of the roles it names and has no effect where there are none; DQTAKE gives
every lane of the run the oldest entry that lists its warp, which it takes (R71, R85, R86). -/
def Obligations.EndsAndDecisions : Prop :=
  ((∀ (i : Instr) (s : State) (lk : Link), WarpReady s i → noHelpers s → (AMap.keys s.here.groups).Nodup →
     (i = .exit lk ∧ (∀ u ∈ s.active, atRest s u)) ∨
       (i = .tail lk ∧ (∀ u ∈ s.active, s.here.teamDone u = true) ∧ s.here.tracker.length + s.active.length ≤ 64) →
     ∃ t, exec i s = .next t ∧ t.completed ∧ s.sameVfs t ∧ (∀ k, k ≠ s.cur.core → t.core k = s.core k) ∧
       { t with cores := s.cores, cur := s.cur, vfs := s.vfs, clusters := s.clusters } = s ∧
       (t.core s.cur.core).scratch = s.here.scratch ∧
       (∀ u ∈ s.active, AMap.has (t.core s.cur.core).threads u = false) ∧
       (∀ u, u ∉ s.active → AMap.has (t.core s.cur.core).threads u = AMap.has s.here.threads u) ∧
       (∀ g u, isMember (t.core s.cur.core) g u = (isMember s.here g u && !(s.active.contains u)))) ∧
   (∀ (s : State) (lk : Link) (f : FrontEnd), FrontReady s (.exit lk) f → (∀ n ∈ f.flags, n = 0) →
     ∃ t, exec (.exit lk) s = .next t ∧ t.completed ∧ FrontEffect s t { f with pc := f.pc + 4#32, ended := true })) ∧
  ((∀ (s : State) (lk : BitVec 2) (f : FrontEnd) (h : Header) (a b : Reg), FrontReady s (.dqput lk a b) f → feSrcOk a = true →
     feSrcOk b = true → s.header s.cur.core = some h → s.here.dq.length < 64 → bufsStand s →
     let named (w : Warp) : Bool := decide (w.role < h.nroles) && (f.read s.cur.draw b).getLsbD w.role &&
       s.here.threads.any (fun p => p.2.warp == w.id && p.2.helper.isNone)
     let members := (s.here.warps.filter named).map (fun w => w.id)
     ∃ t, exec (.dqput lk a b) s = .next t ∧ t.completed ∧ s.onlyHere t ∧
       (t.core s.cur.core).dq =
         (if members = [] then s.here.dq else s.here.dq ++ [⟨((f.read s.cur.draw a).setWidth 32).setWidth 64, members⟩]) ∧
       { (t.core s.cur.core) with dq := s.here.dq } = { s.here with fe := some { f with pc := f.pc + 4#32 } }) ∧
   (∀ (s : State) (lk : Link) (d : Reg) (before after : List QEntry) (e : QEntry), WarpReady s (.dqtake lk d) → Converged s →
     s.here.dq = before ++ e :: after → (∀ x ∈ before, s.cur.warp ∉ x.left) → s.cur.warp ∈ e.left → s.writes d 4 →
     ∃ t, exec (.dqtake lk d) s = .next t ∧ t.completed ∧
       (t.core s.cur.core).dq = before ++
         (if e.left.filter (· ≠ s.cur.warp) = [] then after else { e with left := e.left.filter (· ≠ s.cur.warp) } :: after) ∧
       Plain { s with cores := AMap.put s.cores s.cur.core { s.here with dq := (t.core s.cur.core).dq } } t d
         (fun _ => e.value.setWidth 32) (fun _ y => y)))

/-- JOIN puts each thread into the group it names, or the threads that ask for one into one new group of the lowest free
number with phase count 0, and answers the group's number, all ones where none is free, or 0xFFFF_FFFE where the number
names no group; a new member bears no mark and every other member and phase stands (R104, R109).
LEAVE takes each thread out of the group that its register names, with no effect and no trap where it names none of
the thread's groups; every other membership stands, and no byte of memory changes (R105, R110). -/
def Obligations.GroupsAreJoinedAndLeft : Prop :=
  (∀ (s : State) (lk : Link) (d a : Reg), WarpReady s (.join lk d a) → noHelpers s → s.reads [a] → s.writes d 4 →
     ∃ t, exec (.join lk d a) s = .next t ∧ t.completed ∧
       (∀ g u, isMember (t.core s.cur.core) g u = (isMember s.here g u || enters s a g u)) ∧
       (∀ g u, markOf (t.core s.cur.core) g u = markOf s.here g u) ∧
       (∀ g, phaseCount (t.core s.cur.core) g = phaseCount s.here g) ∧
       Plain { s with cores := AMap.put s.cores s.cur.core { s.here with groups := (t.core s.cur.core).groups } } t d
         (joined s a) (fun _ y => y)) ∧
  (∀ (s : State) (lk : Link) (a : Reg), WarpReady s (.leave lk a) → noHelpers s → s.reads [a] → GroupsStand s.here →
     ∃ t, exec (.leave lk a) s = .next t ∧ t.completed ∧ s.onlyHere t ∧
       (∀ g u, isMember (t.core s.cur.core) g u = (isMember s.here g u && !(s.active.contains u && groupOf s a u == g))) ∧
       (∀ g u, isMember (t.core s.cur.core) g u = true → markOf (t.core s.cur.core) g u = markOf s.here g u) ∧
       (t.core s.cur.core).rows = s.here.rows ∧ (t.core s.cur.core).scratch = s.here.scratch)

/-- GBAR arrives and waits for the current phase of its group, or goes on at once where the arrival completes it; the phase
count then goes one up (R106, R107, R111). -/
def Obligations.BarriersWaitForTheirPhase : Prop :=
  ∀ (s : State) (lk : Link) (a : Reg), WarpReady s (.gbar lk a) → Listed s → noHelpers s → s.reads [a] →
    GroupsStand s.here → inGroup s a →
    ∃ t, exec (.gbar lk a) s = .next t ∧ t.completed ∧ s.onlyHere t ∧
      (∀ g u, isMember (t.core s.cur.core) g u = isMember s.here g u) ∧
      (∀ g u, isMember s.here g u = true → markOf (t.core s.cur.core) g u =
        if u ∈ s.active ∧ groupOf s a u = g then some (phaseCount s.here g) else markOf s.here g u) ∧
      phasesMove s t a ∧
      (∀ u ∈ s.active, fills s a (groupOf s a u) → (t.core s.cur.core).th u = { ((s.thread u).issued true) with hold := .run }) ∧
      (∀ u ∈ s.active, ¬ fills s a (groupOf s a u) → (t.core s.cur.core).th u = { ((s.thread u).issued true) with
          pc := s.cur.pc
          hold := .gbar (groupOf s a u) (phaseCount s.here (groupOf s a u)) ((s.thread u).pc + 4#32) (comesBack s) }) ∧
      (∀ u, u ∉ s.active →
        Woken s a (if u ∈ s.cur.run then (s.thread u).issued false else s.thread u) ((t.core s.cur.core).th u)) ∧
      { (t.core s.cur.core) with threads := s.here.threads, groups := s.here.groups, l1 := s.here.l1, epoch := s.here.epoch } = s.here

/-- GFIRE arrives as GBAR does without waiting, which may complete phases and wake the threads that wait for them, and answers the
phase count; GSIG answers 1 where the phase that its B
names has completed, by the distance of the counts, else 0, and a 1 acquires (R106, R112, R113). -/
def Obligations.ArrivalsAndSignals : Prop :=
  (∀ (s : State) (lk : Link) (d a : Reg), WarpReady s (.gfire lk d a) → noHelpers s → s.reads [a] → s.writes d 4 →
    GroupsStand s.here → inGroup s a →
    ∃ t, exec (.gfire lk d a) s = .next t ∧ t.completed ∧ s.onlyHere t ∧
      (∀ u ∈ s.active, ∀ q, s.here.cell u d = some q → (t.core s.cur.core).rowWord q.1 q.2 = phaseCount s.here (groupOf s a u)) ∧
      (∀ r w, (∀ u ∈ s.active, s.here.cell u d ≠ some (r, w)) → (t.core s.cur.core).rowWord r w = s.here.rowWord r w) ∧
      (∀ g u, isMember (t.core s.cur.core) g u = isMember s.here g u) ∧
      (∀ g u, isMember s.here g u = true → markOf (t.core s.cur.core) g u =
        if u ∈ s.active ∧ groupOf s a u = g then some (phaseCount s.here g) else markOf s.here g u) ∧
      phasesMove s t a ∧
      (∀ u ∈ s.active, ∃ y, Woken s a ((s.thread u).issued true) y ∧ Thread.onlyNotes y ((t.core s.cur.core).th u)) ∧
      (∀ u, u ∉ s.active →
        Woken s a (if u ∈ s.cur.run then (s.thread u).issued false else s.thread u) ((t.core s.cur.core).th u)) ∧
      { (t.core s.cur.core) with
        threads := s.here.threads, rows := s.here.rows, groups := s.here.groups, l1 := s.here.l1, epoch := s.here.epoch } = s.here) ∧
  (∀ (s : State) (lk : Link) (d a b : Reg), WarpReady s (.gsig lk d a b) → noHelpers s → s.reads [a, b] → s.writes d 4 →
    inGroup s a →
    let done (u : Nat) : Bool :=
      let n := (phaseCount s.here (groupOf s a u)).toNat + 2 ^ 32 - (s.here.readReg s.cur.draw u b).toNat
      decide (1 ≤ n % 2 ^ 32) && decide (n % 2 ^ 32 ≤ 2 ^ 31)
    ∃ t, exec (.gsig lk d a b) s = .next t ∧ t.completed ∧
      Plain (if s.active.any done then { s with cores := AMap.put s.cores s.cur.core s.here.acquire } else s) t d
        (fun u => if done u then 1#32 else 0#32) (fun _ y => y))

/-- A load, store or atomic completes wherever it may issue: each lane that does not fault posts its access with its element,
its address and its data, and raises its flag by one; a lane that faults performs none, its destination takes 0 and a
record joins the fault queue; no byte of memory or scratchpad and no other register changes (R42, R173, R175, R181, R195,
R196, R218 to R222).
Where the spec leaves it open the model's choice stands (log 20, 70, 98). -/
def Obligations.MemoryWordsPostTheirAccesses : Prop :=
  ∀ (i : Instr) (s : State) (m : Asked), askedOf s i = some m → WarpReady s i → MayAccess s m →
    ∃ (t : State) (new : List Req) (records : List FaultRecord), exec i s = .next t ∧ t.completed ∧ s.onlyHere t ∧
      (t.core s.cur.core).scratch = s.here.scratch ∧ (t.core s.cur.core).reqs = s.here.reqs ++ new ∧
      (∀ u ∈ s.active, (accessOf s m u).fault = none → ∃ r ∈ new, Carries s m u r) ∧
      (∀ r ∈ new, ∀ l ∈ r.lanes, l.uid ∈ s.active ∧ (accessOf s m l.uid).fault = none) ∧
      (t.core s.cur.core).faultq = s.here.faultq ++ records ∧
      records.length = min ((s.active.filter (fun u => (accessOf s m u).fault.isSome)).length) (128 - s.here.faultq.length) ∧
      (∀ u ∈ s.active, (accessOf s m u).fault ≠ none → ∀ k < m.ndst, ∀ q, s.here.cell u (nth m.dst k) = some q →
        (t.core s.cur.core).rowWord q.1 q.2 = 0#32) ∧
      (∀ r w, 1 ≤ (s.here.row r).count →
        (∀ u ∈ s.active, (accessOf s m u).fault ≠ none → ∀ k < m.ndst, s.here.cell u (nth m.dst k) ≠ some (r, w)) →
        (t.core s.cur.core).rowWord r w = s.here.rowWord r w) ∧
      (∀ u, u ∉ s.cur.run → (t.core s.cur.core).th u = s.thread u) ∧
      (∀ u ∈ s.cur.run, u ∉ s.active → (t.core s.cur.core).th u = (s.thread u).issued false) ∧
      (∀ u ∈ s.active, Thread.onlyNotes
        { ((s.thread u).issued true) with flags := if (accessOf s m u).fault = none then raised s u m.flag else (s.thread u).flags }
        ((t.core s.cur.core).th u))

/-- PREF requests the line of each lane that does not fault and whose translation the core holds, without a destination, a record or a
flag, and drops every other; FREC hands out the fault
queue's records, oldest first, one to each lane in order, eight words of 0 where it is empty; QPOP takes its warp's oldest
entry into two registers; BUFSET and QPUSH set a record and post an entry from the front end (R197 to R201).
Where the spec leaves it open the model's choice stands (log 20, 96). -/
def Obligations.PrefetchesQueuesAndRecords : Prop :=
  (∀ (s : State) (lk : Link) (b : BitVec 5) (x : Reg) (sz : BitVec 3), WarpReady s (.pref lk b x sz) → Listed s →
    s.reads (if s.ext.c3 = 0#7 then [x] else [x, s.ext.c3]) → bSpace (s.here.buf s.cur.draw b.toNat) = 0 →
    (∀ r ∈ s.here.reqs, r.stage ≠ .stuck) →
    let rec_ : BufRec := s.here.buf s.cur.draw b.toNat
    let at_ (u : Nat) : Access := s.form s.cur.core (s.vfOf s.cur.core) rec_
      ((s.here.readReg s.cur.draw u x).toNat + if s.ext.c3 = 0#7 then 0 else (s.here.readReg s.cur.draw u s.ext.c3).toNat) 1 false
    let key (u : Nat) : Key := s.keyOf (s.vfOf s.cur.core) rec_ (at_ u).index (at_ u).off (at_ u).addr
    let held (u : Nat) : Prop := (at_ u).fault = none ∧
      (s.here.heldLines s (key u).vf (s.linesOf (key u) ((at_ u).addr / 64 * 64))).isSome = true
    ∃ t, exec (.pref lk b x sz) s = .next t ∧ t.completed ∧
      Moved s t { s.here with reqs := (t.core s.cur.core).reqs, nextReq := (t.core s.cur.core).nextReq } (fun _ y => y) ∧
      ∃ new, (t.core s.cur.core).reqs = s.here.reqs ++ new ∧
        (∀ r ∈ new, r.kind = .prefetch (sz == 0#3) ∧ r.lanes = [] ∧ ∃ u ∈ s.active, held u ∧ r.key = key u ∧ r.va = (at_ u).addr / 64 * 64) ∧
        ∀ u ∈ s.active, held u → ∃ r ∈ new, r.key = key u ∧ r.va = (at_ u).addr / 64 * 64) ∧
  (∀ (s : State) (lk : Link) (d : Reg), WarpReady s (.frec lk d) → noHelpers s → WritesBlock s d 8 4 →
    (∀ r ∈ s.here.faultq, r.length = 8) →
    ∃ t, exec (.frec lk d) s = .next t ∧ t.completed ∧
      Blocks (withHere s { s.here with faultq := s.here.faultq.drop s.active.length }) t d 8
        (fun u k => ((s.here.faultq.getD (s.active.idxOf u) (List.replicate 8 0#32)).getD k 0#32))) ∧
  (∀ (s : State) (lk : Link) (d : Reg) (before after : List QEntry) (e : QEntry) (w : Warp), WarpReady s (.qpop lk d) →
    Converged s → WritesBlock s d 2 4 → s.here.warps.find? (fun x => x.id == s.cur.warp) = some w →
    AMap.lookD s.here.wq w.role [] = before ++ e :: after → (∀ x ∈ before, s.cur.warp ∉ x.left) → s.cur.warp ∈ e.left →
    ∃ t, exec (.qpop lk d) s = .next t ∧ t.completed ∧
      Blocks (withHere s { s.here with wq := AMap.put s.here.wq w.role (before ++
        (if e.left.filter (· ≠ s.cur.warp) = [] then after else { e with left := e.left.filter (· ≠ s.cur.warp) } :: after)) }) t d 2
        (fun _ k => BitVec.ofNat 32 (e.value.toNat / 2 ^ (32 * k)))) ∧
  (∀ (s : State) (lk : BitVec 2) (f : FrontEnd) (d a b : Reg), FrontReady s (.bufset lk d a b) f → feSrcOk a = true →
    feSrcOk b = true →
    let r : BufRec := BitVec.ofNat 128 ((f.read s.cur.draw b).toNat * 2 ^ 64 + (f.read s.cur.draw a).toNat)
    recValid r = true →
    ∃ t, exec (.bufset lk d a b) s = .next t ∧ t.completed ∧ s.onlyHere t ∧
      (∀ n, AMap.lookD (t.core s.cur.core).bufs n 0#128 = if n = d.toNat then r else AMap.lookD s.here.bufs n 0#128) ∧
      (∀ e ∈ (t.core s.cur.core).bufOld, e ∈ s.here.bufOld ∨ e = (d.toNat, AMap.lookD s.here.bufs d.toNat 0#128, s.here.clock)) ∧
      { (t.core s.cur.core) with bufs := s.here.bufs, bufOld := s.here.bufOld } = { s.here with fe := some { f with pc := f.pc + 4#32 } }) ∧
  (∀ (s : State) (lk : BitVec 2) (f : FrontEnd) (h : Header) (a b : Reg), FrontReady s (.qpush lk a b) f → feSrcOk a = true →
    feSrcOk b = true → s.header s.cur.core = some h →
    let q := (f.read s.cur.draw b).toNat % 4
    (AMap.lookD s.here.wq q []).length < 32 → bufsStand s →
    let members := (s.here.warps.filter (fun w => decide (q < h.nroles) && w.role == q &&
      s.here.threads.any (fun p => p.2.warp == w.id && p.2.helper.isNone))).map (fun w => w.id)
    ∃ t, exec (.qpush lk a b) s = .next t ∧ t.completed ∧ s.onlyHere t ∧
      (∀ n, AMap.lookD (t.core s.cur.core).wq n [] =
        if n = q ∧ members ≠ [] then AMap.lookD s.here.wq q [] ++ [⟨f.read s.cur.draw a, members⟩] else AMap.lookD s.here.wq n []) ∧
      { (t.core s.cur.core) with wq := s.here.wq } = { s.here with fe := some { f with pc := f.pc + 4#32 } })

/-- ACQ waits until the thread's loads are complete and drops every L1 word that the core does not own; REL waits until the
thread's stores are registered and its loads complete; FENCE does both; in front-end code each completes at once. No
register changes (R185, R209, R210, R223). -/
def Obligations.OrderingWordsWaitAndInvalidate : Prop :=
  (∀ (i : Instr) (s : State) (lk : Link), i = .acq lk ∨ i = .rel lk ∨ i = .fence lk → WarpReady s i → Listed s →
    (∀ u ∈ s.active, ∀ r ∈ s.here.reqs, r.ofThread u = true → r.unread = false ∧ (i ≠ .acq lk → r.unregistered = false)) →
    ∃ t, exec i s = .next t ∧ t.completed ∧
      Moved s t (if i = .rel lk ∨ s.active = [] then s.here else
        { s.here with l1 := s.here.l1.map (fun l => { l with valid := l.valid &&& l.owned }), epoch := s.here.epoch + 1 }) (fun _ y => y)) ∧
  (∀ (i : Instr) (s : State) (lk : Link) (f : FrontEnd), i = .acq lk ∨ i = .rel lk ∨ i = .fence lk → FrontReady s i f →
    ∃ t, exec i s = .next t ∧ t.completed ∧ s.onlyHere t ∧
      t.core s.cur.core = { (if i = .rel lk then s.here else s.here.acquire) with fe := some { f with pc := f.pc + 4#32 } })

/-- BINIT, BEXPECT and BARRIVE act on the barrier that each thread names, in lane order, by the events of R214; BARRIVE
answers the phase in which it was counted once the thread's loads are complete. Only the barriers' bytes and the destination
change (R213, R214, R224 to R226).
BWAIT completes once the phase it names has passed, and observes it; BTEST makes the test without waiting and answers 1
or 0, a 1 observing (R216, R227, R228).
Where the spec leaves it open the model's choice stands (log 71). -/
def Obligations.BarrierObjectsChange : Prop :=
  ((∀ (s : State) (lk : Link) (a b : Reg) (i : Instr) (f : Nat → Bar → Bar), WarpReady s i → Listed s → s.reads [a, b] →
     (∀ u ∈ s.active, isBarrier s (barOf s a u)) →
     (i = .binit lk a b ∧ (∀ u ∈ s.active, (s.here.readReg s.cur.draw u b).toNat % 65536 ≠ 0) ∧
         f = (fun u => initiated ((s.here.readReg s.cur.draw u b).toNat % 65536))) ∨
       (i = .bexpect lk a b ∧ f = (fun u => expected (s.here.readReg s.cur.draw u b).toNat)) →
     ∃ t, exec i s = .next t ∧ t.completed ∧ (∀ n, (t.core s.cur.core).bar n = barsAfter s a f s.active n) ∧
       onlyBars s.here (t.core s.cur.core) (fun n => ∃ u ∈ s.active, barOf s a u = n) ∧
       Moved s t { s.here with scratch := (t.core s.cur.core).scratch, recheck := (t.core s.cur.core).recheck } (fun _ y => y)) ∧
   (∀ (s : State) (lk : Link) (d a : Reg), WarpReady s (.barrive lk d a) → s.reads [a] → s.writes d 4 →
     (∀ u ∈ s.active, isBarrier s (barOf s a u)) →
     (∀ u ∈ s.active, ∀ r ∈ s.here.reqs, r.ofThread u = true → r.unread = false) →
     ∃ t, exec (.barrive lk d a) s = .next t ∧ t.completed ∧
       (∀ n, (t.core s.cur.core).bar n = barsAfter s a (fun _ => arrived) s.active n) ∧
       onlyBars s.here (t.core s.cur.core) (fun n => ∃ u ∈ s.active, barOf s a u = n) ∧
       Plain (withHere s { s.here with scratch := (t.core s.cur.core).scratch, recheck := (t.core s.cur.core).recheck }) t d
         (fun u => arrivalPhase (barsAfter s a (fun _ => arrived) (s.active.takeWhile (fun v => !(v == u))) (barOf s a u))) (fun _ y => y)) ∧
   (∀ (i : Instr) (s : State) (f : FrontEnd) (lk : Link) (d a b : Reg) (g : Bar → Bar), FrontReady s i f →
     feSrcOk a = true → isBarrier s (frontBar s f a) →
     (i = .binit lk a b ∧ feSrcOk b = true ∧ d = 108#7 ∧ (f.read s.cur.draw b).toNat % 65536 ≠ 0 ∧
         g = initiated ((f.read s.cur.draw b).toNat % 65536)) ∨
       (i = .bexpect lk a b ∧ feSrcOk b = true ∧ d = 108#7 ∧ g = expected ((f.read s.cur.draw b).toNat % 2 ^ 48)) ∨
       (i = .barrive lk d a ∧ feDstOk d = true ∧ f.noLater d (f.last + 4) ∧ g = arrived) →
     ∃ t f', exec i s = .next t ∧ t.completed ∧ s.onlyHere t ∧
       (∀ n, (t.core s.cur.core).bar n = if n = frontBar s f a then g (s.here.bar n) else s.here.bar n) ∧
       onlyBars s.here (t.core s.cur.core) (fun n => n = frontBar s f a) ∧
       f.resulted f' d ((arrivalPhase (s.here.bar (frontBar s f a))).setWidth 64) ∧
       { (t.core s.cur.core) with scratch := s.here.scratch, recheck := s.here.recheck } = { s.here with fe := some f' })) ∧
  ((∀ (s : State) (lk : Link) (a b : Reg), WarpReady s (.bwait lk a b) → Listed s → s.reads [a, b] →
     (∀ u ∈ s.active, isBarrier s (barOf s a u) ∧ passed (s.here.bar (barOf s a u)).phase (s.here.readReg s.cur.draw u b) = true) →
     ∃ t, exec (.bwait lk a b) s = .next t ∧ t.completed ∧
       Moved s t (if s.active = [] then s.here else s.here.acquire) (fun _ y => y)) ∧
   (∀ (s : State) (lk : Link) (d a b : Reg), WarpReady s (.btest lk d a b) → s.reads [a, b] → s.writes d 4 →
     (∀ u ∈ s.active, isBarrier s (barOf s a u)) →
     let done (u : Nat) : Bool := passed (s.here.bar (barOf s a u)).phase (s.here.readReg s.cur.draw u b)
     ∃ t, exec (.btest lk d a b) s = .next t ∧ t.completed ∧
       Plain (if s.active.any done then withHere s s.here.acquire else s) t d (fun u => if done u then 1#32 else 0#32) (fun _ y => y)) ∧
   (∀ (s : State) (f : FrontEnd) (lk : Link) (d a b : Reg), feSrcOk a = true → feSrcOk b = true → isBarrier s (frontBar s f a) →
     let done : Bool := passed (s.here.bar (frontBar s f a)).phase ((f.read s.cur.draw b).setWidth 32)
     (FrontReady s (.bwait lk a b) f → done = true →
       ∃ t, exec (.bwait lk a b) s = .next t ∧ t.completed ∧ s.onlyHere t ∧
         t.core s.cur.core = { s.here.acquire with fe := some { f with pc := f.pc + 4#32 } }) ∧
     (FrontReady s (.btest lk d a b) f → feDstOk d = true → f.noLater d (f.last + 4) →
       ∃ t f', exec (.btest lk d a b) s = .next t ∧ t.completed ∧ s.onlyHere t ∧
         f.resulted f' d (if done then 1#64 else 0#64) ∧
         t.core s.cur.core = { (if done then s.here.acquire else s.here) with fe := some f' })))

/-- FREC.xlate pops one translation request for each lane in order, with the words of R201; MIGCTL's forms use the lowest
lane's operands and give every lane their result: a migration opened or the reason it is not, its progress, an entry of
the translation table served where its generation stands, after which the lines attached to it walk again or complete with XLATE, a
page's translations removed (R179, R201, R202).
Where the spec leaves it open the model's choice stands (log 32, 55). -/
def Obligations.FaultServiceWords : Prop :=
  (∀ (s : State) (lk : Link) (d : Reg), WarpReady s (.frecXlate lk d) → s.ext.sel = 1#4 → noHelpers s → isHandler s →
    WritesBlock s d 8 4 → s.active.length ≤ (s.cluster (clusterOf s.cur.core)).xpend.length →
    (∀ e ∈ (s.cluster (clusterOf s.cur.core)).xpend, AMap.has (s.cluster (clusterOf s.cur.core)).xtab e = true) →
    ∃ t, exec (.frecXlate lk d) s = .next t ∧ t.completed ∧
      (t.cluster (clusterOf s.cur.core)) = { (s.cluster (clusterOf s.cur.core)) with
        xpend := (s.cluster (clusterOf s.cur.core)).xpend.drop s.active.length } ∧
      Blocks { s with clusters := t.clusters } t d 8 (fun u k =>
        let e := (s.cluster (clusterOf s.cur.core)).xpend.getD (s.active.idxOf u) 0
        (requestWords s e (AMap.lookD (s.cluster (clusterOf s.cur.core)).xtab e ⟨0#8, 0, 0, false, false⟩)).getD k 0#32)) ∧
  (∀ (i : Instr) (s : State) (lk : Link) (d a b : Reg), WarpReady s i → noHelpers s → atLevelOne s ∨ isHandler s →
    s.reads (if s.ext.c3 = 0#7 then [a, b] else [a, b, s.ext.c3]) → s.writes d 4 → s.active ≠ [] →
    (i = .migctlQuery lk d a b → s.ext.sel = 1#4 →
      ∃ t, exec i s = .next t ∧ t.completed ∧ Plain s t d (fun _ => match moving s (pageNamed s a) with
        | some m => 0x80000000#32 ||| BitVec.ofNat 32 m.p
        | none => 0#32) (fun _ y => y)) ∧
    (i = .migctlStart lk d a b → s.ext.sel = 0#4 →
      ∃ t r m, exec i s = .next t ∧ t.completed ∧ Start s (pageNamed s a) (frameNamed s b) (leadC3 s / 256 % 4) r m ∧
        (∀ k, (t.die k).mig = match m with | some x => if k = x.1 then (s.die k).mig ++ [x.2] else (s.die k).mig | none => (s.die k).mig) ∧
        Plain { s with dies := t.dies } t d (fun _ => r) (fun _ y => y)) ∧
    (i = .migctlInvpg lk d a b → s.ext.sel = 4#4 →
      ∃ t, exec i s = .next t ∧ t.completed ∧
        (∀ k, ∀ e ∈ (t.core k).tlb, e.vf = s.vfOf s.cur.core →
          pageNamed s a * 65536 < e.va ∨ e.va + e.size ≤ pageNamed s a * 65536) ∧
        Plain (s.invalidatePage (s.vfOf s.cur.core) (pageNamed s a * 65536)) t d (fun _ => 0#32) (fun _ y => y)) ∧
    ((i = .migctlResolve lk d a b ∧ s.ext.sel = 2#4 ∧ s.here.released (s.active.headD 0) = true) ∨
        (i = .migctlAbort lk d a b ∧ s.ext.sel = 3#4) →
      (¬ entryOpen s (leadReads s a) →
        ∃ t, exec i s = .next t ∧ t.completed ∧ Plain s t d (fun _ => 1#32) (fun _ y => y)) ∧
      (entryOpen s (leadReads s a) → Serviceable s → numbered s (clusterOf s.cur.core) →
        (∀ u ∈ s.active, ∀ q, s.here.cell u d = some q → (s.here.row q.1).count = 1) →
        ∃ t, exec i s = .next t ∧ t.completed ∧ ¬ entryOpen t (leadReads s a) ∧
          (i = .migctlResolve lk d a b → linesReplay s t (clusterOf s.cur.core) (leadReads s a % 256)) ∧
          (i = .migctlAbort lk d a b → linesAborted s t (clusterOf s.cur.core) (leadReads s a % 256)) ∧
          (∀ u ∈ s.active, ∀ q, s.here.cell u d = some q → (t.core s.cur.core).rowWord q.1 q.2 = 0#32)))) ∧
  (∀ (i : Instr) (s : State) (lk : Link) (d a b : Reg), s.cur.fe = false → ¬ atLevelOne s → ¬ isHandler s →
    i = .frecXlate lk d ∨ i = .migctlStart lk d a b ∨ i = .migctlQuery lk d a b ∨ i = .migctlResolve lk d a b ∨
      i = .migctlAbort lk d a b ∨ i = .migctlInvpg lk d a b → Traps (exec i s) .illegalInstruction)

/-- An engine word completes wherever its operands are good: it acts once for its run with the operands of the lowest
active lane, raises its flag in every lane that executes it, and goes to the Jacquard unit behind the core's earlier words,
its command and records captured; NFIRE goes after the stores of its lanes. No slot, no memory and no register
changes yet (R41, R232, R236, R237, R241 to R244). -/
def Obligations.EngineWordsReachTheUnit : Prop :=
  (∀ (i : Instr) (s : State) (x : Engine) (op : EngineOp), warpEngine s i = some x → WarpReady s i → MayPost s x →
    (s.active ≠ [] → x.op = some op) →
    ∃ t, exec i s = .next t ∧ t.completed ∧
      Posted { s with clusters := t.clusters } t s.here x.flag (x.dst.getD 108#7) x.dst.toList.length ∧
      queued s t (if s.active = [] then none else
        some ⟨s.cur.core, x.slot, op, ticketIds s,
          if x.follows then s.active.flatMap (fun u => (s.here.reqs.filter (fun r => r.ofThread u && r.unregistered)).map (fun r => r.id)) else [],
          false, false⟩)) ∧
  (∀ (i : Instr) (s : State) (f : FrontEnd) (x : Engine) (op : EngineOp), frontEngine s f i = some x → FrontReady s i f →
    (∀ r ∈ x.src, feSrcOk r = true) → (∀ r ∈ x.block, r.toNat ≤ 62) → (∀ r, x.dst = some r → feDstOk r = true) →
    slotInside s x.slot = true → frontRoom f x.flag → x.op = some op →
    ∃ t, exec i s = .next t ∧ t.completed ∧ ({ s with clusters := t.clusters } : State).onlyHere t ∧
      t.core s.cur.core = { s.here with
        fe := some (frontRaised f x.flag), nextPend := s.here.nextPend + 1,
        pend := s.here.pend ++ [frontTicket s f x.flag (x.dst.getD 108#7)] } ∧
      queued s t (some ⟨s.cur.core, x.slot, op, [s.here.nextPend], [], false, false⟩)) ∧
  (∀ (i : Instr) (s : State) (x : Engine), warpEngine s i = some x → WarpReady s i → s.reads x.src → noHelpers s →
    (∀ a ∈ x.block, ∀ u ∈ s.active, s.here.blockOk u a 4 = true) →
    (∀ a, x.dst = some a → dstNamed a = true ∧ ∀ u ∈ s.active, s.here.dstOk u a = true) → s.active ≠ [] →
    x.op = none ∨ slotInside s x.slot = false → Traps (exec i s) .illegalOperand)

/-- A latch load, MSCALE, MZERO, MMA or MST is posted behind the core's earlier matrix words with all that it reads at
issue, and raises its flag in every lane; an MST with SR steps each lane's generator once for each element that the lane converts; no
latch, tile or byte of memory changes yet (R138, R249, R251, R257, R258, R260 to R267).
MRESV answers 1 where the warp holds the index or takes it free, which zeroes its four tiles, else 0; MFREE gives up an
index that the warp holds, which is free again at once unless posted work on it remains. No other index, tile or register
changes (R246, R259).
Where the spec leaves it open the model's choice stands (log 72). -/
def Obligations.MatrixWordsArePosted : Prop :=
  (∀ (i : Instr) (s : State) (x : Matrix), matrixOf s i = some x → WarpReady s i → WholeWarp s → x.needs → flagsRoom s x.flag →
     ∃ t, exec i s = .next t ∧ t.completed ∧
       Moved s t { s.here with
           pend := s.here.pend ++ tickets s x.flag 108#7 0 ++ (if x.store then lateTickets s else [])
           nextPend := s.here.nextPend + (if x.store then 2 else 1) * s.active.length
           mwords := s.here.mwords ++ [⟨s.here.nextM, s.cur.warp, x.op, ticketIds s,
             if x.store then (ticketIds s).map (fun n => n + s.active.length) else [], 0, s.active,
             if x.load then warpStored s else [], 0, false, 0⟩]
           nextM := s.here.nextM + 1 }
         (fun u y => { y with flags := raised s u x.flag, gen := Nat.repeat nextG (x.steps u) y.gen })) ∧
  ((∀ (s : State) (lk : Link) (acc : BitVec 3) (a : Reg), WarpReady s (.mresv lk acc a) → WholeWarp s → s.writes a 4 →
     let cl := s.cluster (clusterOf s.cur.core)
     let free : Bool := (cl.claim acc.toNat).state == 0
     ∃ t, exec (.mresv lk acc a) s = .next t ∧ t.completed ∧
       Plain { s with clusters := t.clusters } t a (fun _ => if holds s acc || free then 1#32 else 0#32) (fun _ y => y) ∧
       (∀ k, k ≠ clusterOf s.cur.core → t.cluster k = s.cluster k) ∧
       (∀ n, (t.cluster (clusterOf s.cur.core)).claim n = if free ∧ n = acc.toNat then ⟨1, s.cur.core, s.cur.warp⟩ else cl.claim n) ∧
       (∀ sub < 4, ∀ n < 8, (t.cluster (clusterOf s.cur.core)).tile sub n =
         if free ∧ n = acc.toNat then List.replicate 1024 0#32 else cl.tile sub n) ∧
       { (t.cluster (clusterOf s.cur.core)) with claims := cl.claims, accs := cl.accs } = cl) ∧
   (∀ (s : State) (lk : Link) (acc : BitVec 3), WarpReady s (.mfree lk acc) → WholeWarp s →
     let cl := s.cluster (clusterOf s.cur.core)
     ∃ t, exec (.mfree lk acc) s = .next t ∧ t.completed ∧ Moved { s with clusters := t.clusters } t s.here (fun _ y => y) ∧
       (∀ k, k ≠ clusterOf s.cur.core → t.cluster k = s.cluster k) ∧
       (holds s acc = false → t.cluster (clusterOf s.cur.core) = cl) ∧
       (holds s acc = true → accPosted s acc → (t.cluster (clusterOf s.cur.core)).claim acc.toNat = ⟨2, s.cur.core, s.cur.warp⟩) ∧
       (holds s acc = true → ¬ accPosted s acc → ((t.cluster (clusterOf s.cur.core)).claim acc.toNat).state = 0) ∧
       (∀ n, n ≠ acc.toNat → (cl.claim n).state ≠ 2 → (t.cluster (clusterOf s.cur.core)).claim n = cl.claim n) ∧
       { (t.cluster (clusterOf s.cur.core)) with claims := cl.claims } = cl))

/-- TREG acts once for its run with the descriptor of the lowest lane, or of the front end: it refuses a descriptor that
breaks R270, a full table and an entry that is not free, each with its own result, and else fills the entry it names or the
lowest free one at the next generation; no other entry and no memory changes (R270, R273, R277).
TDROP and TINV hold their run, or the front end, until the home slices have applied them: TDROP sets the entry dropping
and marks the requests for it that are held, which then fault at replay, TINV leaves it as it is until it begins; a tensor that is not registered ends either word at once; a pool, a nonzero
upper half and a bad mode raise ILLEGAL_OPERAND (R278, R281).
Where the spec leaves it open the model's choice stands (log 78). -/
def Obligations.TensorsAreRegisteredAndDropped : Prop :=
  ((∀ (s : State) (lk : Link) (d a : Reg), WarpReady s (.treg lk d a) → noHelpers s → s.writes d 4 → s.active ≠ [] → feUid ∉ s.active →
     s.here.blockOk (s.active.headD 0) a 8 = true → noWrap s (fun j => leadReads s (nth a j)) →
     ∃ t r x, exec (.treg lk d a) s = .next t ∧ t.completed ∧ Registers s (fun j => leadReads s (nth a j)) r x ∧ tensorsSet s t x ∧
       Plain { s with vfs := t.vfs, cores := droppedLines s x } t d (fun _ => r) (fun _ y => y)) ∧
   (∀ (s : State) (lk : Link) (f : FrontEnd) (d a : Reg), FrontReady s (.treg lk d a) f → feDstOk d = true → f.noLater d (s.here.clock + 4) →
     a.toNat ≤ 60 → noWrap s (frontWord s f a) →
     ∃ t f' r x, exec (.treg lk d a) s = .next t ∧ t.completed ∧ Registers s (frontWord s f a) r x ∧ tensorsSet s t x ∧
       f.resulted f' d (r.setWidth 64) ∧ ({ s with vfs := t.vfs, cores := droppedLines s x } : State).onlyHere t ∧
       t.core s.cur.core = { (({ s with cores := droppedLines s x } : State).core s.cur.core) with fe := some f' })) ∧
  ((∀ (i : Instr) (s : State) (lk : Link) (a b : Reg) (job : SliceJob) (x : Option (Nat × Tensor)),
     let n := leadReads s a
     let e := s.tensor (myVf s) n
     WarpReady s i → Listed s → noHelpers s → s.reads (if i = .tdrop lk a then [a] else [a, b]) → s.active ≠ [] → feUid ∉ s.active →
     n < 2 ^ 16 → e.format ≠ 2 →
     (i = .tdrop lk a ∧ job = .drop ∧ x = some (n, { e with state := 2 })) ∨
       (i = .tinv lk a b ∧ n ≠ 0 ∧ leadReads s b < 2 ∧ job = .inv (decide (leadReads s b = 1)) ∧ x = none) →
     ∃ t, exec i s = .next t ∧ t.completed ∧
       (n ≠ 0 → e.state = 1 → tensorsSet s t x ∧
         let s' : State := { s with vfs := t.vfs, cores := if x.isSome then goneMarked s n else s.cores }
         Moved s' t s'.here (sliced s job n)) ∧
       (n = 0 ∨ e.state ≠ 1 → Moved s t s.here (fun _ y => y))) ∧
   (∀ (i : Instr) (s : State) (lk : Link) (f : FrontEnd) (a b : Reg) (job : SliceJob) (x : Option (Nat × Tensor)),
     let n := frontLow s f a
     let e := s.tensor (myVf s) n
     FrontReady s i f → feSrcOk a = true → n < 2 ^ 16 → e.format ≠ 2 →
     (i = .tdrop lk a ∧ job = .drop ∧ x = some (n, { e with state := 2 })) ∨
       (i = .tinv lk a b ∧ feSrcOk b = true ∧ n ≠ 0 ∧ (f.read s.cur.draw b).toNat < 2 ∧
         job = .inv (decide ((f.read s.cur.draw b).toNat = 1)) ∧ x = none) →
     ∃ t, exec i s = .next t ∧ t.completed ∧
       (n ≠ 0 → e.state = 1 → tensorsSet s t x ∧
         FrontEffect { s with vfs := t.vfs, cores := if x.isSome then goneMarked s n else s.cores } t
           { f with pc := f.pc + 4#32, hold := .slices job n false [] }) ∧
       (n = 0 ∨ e.state ≠ 1 → FrontEffect s t { f with pc := f.pc + 4#32 })) ∧
   (∀ (i : Instr) (s : State) (lk : Link) (a b : Reg), WarpReady s i → s.active ≠ [] → s.reads [a, b] →
     i = .tdrop lk a ∨ i = .tinv lk a b →
     2 ^ 16 ≤ leadReads s a ∨ (s.tensor (myVf s) (leadReads s a)).format = 2 ∨
       (i = .tinv lk a b ∧ (leadReads s a = 0 ∨ 2 ≤ leadReads s b)) → Traps (exec i s) .illegalOperand))

/-- TFETCH posts a fill for each line of the tiles that its lanes name whose translation the core holds, THALO pushes lines
outside its tile to the cores that it names and answers how many lines the halo has, TLOOK answers what the home slice
holds of a line; none waits, and no byte of memory and no line changes (R275, R279, R280, R282).
Where the spec leaves it open the model's choice stands (log 79, 96). -/
def Obligations.TilesAreFetchedPushedAndLookedUp : Prop :=
  (∀ (s : State) (lk : Link) (a b : Reg), WarpReady s (.tfetch lk a b) → Listed s → s.reads [a, b] →
    (∀ u ∈ s.active, (reads s u a).toNat < 2 ^ 24) →
    ∃ t s', exec (.tfetch lk a b) s = .next t ∧ t.completed ∧
      fetched s s' (s.active.map (fun u => ((reads s u a).toNat, (reads s u b).toNat))) ∧ Moved s' t s'.here (fun _ y => y)) ∧
  (∀ (s : State) (lk : Link) (d a b : Reg), WarpReady s (.thalo lk d a b) → noHelpers s → s.reads [a, b] → s.writes d 4 →
    s.active ≠ [] → GoodHalo s (leadReads s a) →
    ∃ t s', exec (.thalo lk d a b) s = .next t ∧ t.completed ∧ haloed s s' (leadReads s a) (leadReads s b) ∧
      Plain s' t d (fun _ => BitVec.ofNat 32 (haloCount s (leadReads s a) (leadReads s b))) (fun _ y => y)) ∧
  (∀ (s : State) (lk : Link) (d a b : Reg), WarpReady s (.tlook lk d a b) → s.reads [a, b] → s.writes d 4 →
    ∃ t w, exec (.tlook lk d a b) s = .next t ∧ t.completed ∧ Plain s t d w (fun _ y => y) ∧
      ∀ u ∈ s.active, looked s (reads s u a).toNat (reads s u b).toNat (w u)) ∧
  (∀ (s : State) (f : FrontEnd) (lk : Link) (d a b : Reg), feSrcOk a = true → feSrcOk b = true →
    (FrontReady s (.tfetch lk a b) f → frontLow s f a < 2 ^ 24 →
      ∃ t s', exec (.tfetch lk a b) s = .next t ∧ t.completed ∧ fetched s s' [(frontLow s f a, frontLow s f b)] ∧
        s'.onlyHere t ∧ t.core s.cur.core = { s'.here with fe := some { f with pc := f.pc + 4#32 } }) ∧
    (FrontReady s (.thalo lk d a b) f → feDstOk d = true → f.noLater d (f.last + 4) → GoodHalo s (frontLow s f a) →
      ∃ t s' f', exec (.thalo lk d a b) s = .next t ∧ t.completed ∧ haloed s s' (frontLow s f a) (frontLow s f b) ∧
        f.resulted f' d (BitVec.ofNat 64 (haloCount s (frontLow s f a) (frontLow s f b) % 2 ^ 32)) ∧
        s'.onlyHere t ∧ t.core s.cur.core = { s'.here with fe := some f' }) ∧
    (FrontReady s (.tlook lk d a b) f → feDstOk d = true → f.noLater d (f.last + 4) →
      ∃ t w f', exec (.tlook lk d a b) s = .next t ∧ t.completed ∧ looked s (frontLow s f a) (frontLow s f b) w ∧
        f.resulted f' d (w.setWidth 64) ∧ FrontEffect s t f'))

/-- SNAP freezes each thread that executes it into an entry of its own, with the thread's registers and state and the
handle in vH, and writes the handle and 0 in the live thread; where no entry or row is to be had it writes 0 and all ones. No
other register, entry or byte of memory changes, and it succeeds where there are entries and rows for all (R284, R285,
R287, R296).
REST holds each thread that executes it and is not at rest with the handle and DST value that it read, and gives one at rest, in 8
cycles and two for each row copied, the state and registers of its handle's entry, the PC after
the SNAP, and its own DST value in the register that the SNAP named; identity, groups, the entry and every other thread
stand (R297).
Where the spec leaves it open the model's choice stands (log 60, 61). -/
def Obligations.SnapshotsFreezeAndResumeThreads : Prop :=
  (∀ (s : State) (lk : Link) (d a : Reg), WarpReady s (.snap lk d a) → Listed s → noHelpers s → RowsCounted s.here →
     OneReg s d → OneReg s a → d ≠ a → (∀ r ∈ [d, a], s.here.Owns s.cur.run r ∨ rowsToSpare s.here s.active) →
     ∃ t, exec (.snap lk d a) s = .next t ∧ t.completed ∧ s.onlyHere t ∧ rowsOnly s.here (t.core s.cur.core) ∧
       (∀ u, u ∉ s.cur.run → (t.core s.cur.core).th u = s.thread u) ∧
       (∀ u ∈ s.cur.run, u ∉ s.active → (t.core s.cur.core).th u = (s.thread u).issued false) ∧
       (∀ u ∈ s.active, rowsMoved { ((s.thread u).issued true) with busy := doneAt s.here (t.core s.cur.core) 8 }
         ((t.core s.cur.core).th u)) ∧
       valuesKept s.here (t.core s.cur.core) (fun u r => u ∈ s.active ∧ (r = d ∨ r = a)) ∧
       (∀ u ∈ s.active, (∃ e, Frozen s t d a u e) ∨
         (regWord (t.core s.cur.core) u a = some 0#32 ∧ regWord (t.core s.cur.core) u d = some 0xFFFFFFFF#32)) ∧
       (s.active.length ≤ ((List.range 4096).filter (fun e => (s.here.entry e).state == 0)).length →
         rowsToSpare s.here s.active → ∀ u ∈ s.active, ∃ e, Frozen s t d a u e)) ∧
  (∀ (s : State) (lk : Link) (d a : Reg), WarpReady s (.rest lk d a) → Listed s → noHelpers s → s.reads [d, a] →
     (∀ u ∈ s.active, handleGood s.here u (reads s u a) ∧ resumes s.here (entryNamed (reads s u a)) ∧ atRest s u) → RowsCounted s.here → rowsToSpare s.here s.active →
     ∃ t, exec (.rest lk d a) s = .next t ∧ t.completed ∧ s.onlyHere t ∧ rowsOnly s.here (t.core s.cur.core) ∧
       (∀ u, u ∉ s.cur.run → (t.core s.cur.core).th u = s.thread u) ∧
       (∀ u ∈ s.cur.run, u ∉ s.active → (t.core s.cur.core).th u = (s.thread u).issued false) ∧
       valuesKept s.here (t.core s.cur.core) (fun u _ => u ∈ s.active) ∧
       ∀ u ∈ s.active,
         let e := entryNamed (reads s u a)
         let x := s.here.entry e
         (∃ busy, s.here.clock + 8 ≤ busy ∧ busy ≤ doneAt s.here (t.core s.cur.core) 8 ∧
           (s.active = [u] → busy = doneAt s.here (t.core s.cur.core) 8) ∧
           rowsMoved { (s.thread u) with
             map := ((t.core s.cur.core).th u).map, pred := x.pred, flags := x.flags, setA := x.setA, setB := x.setB, fstat := x.fstat,
             gen := x.genG, yc := x.yc, dl := x.dl, pc := x.pc, y0 := [], y1 := [], y2 := [], y3 := [], wait := 0#12, hold := .run,
             busy := busy } ((t.core s.cur.core).th u)) ∧
         ∀ r, regWord (t.core s.cur.core) u r =
           if r = x.resume ∧ (entryWord s.here e r).isSome then some (reads s u d) else entryWord s.here e r) ∧
  (∀ (s : State) (lk : Link) (d a : Reg), WarpReady s (.rest lk d a) → Listed s → noHelpers s → s.reads [d, a] →
     (∀ u ∈ s.active, handleGood s.here u (reads s u a) ∧ ¬ atRest s u) →
     ∃ t, exec (.rest lk d a) s = .next t ∧ t.completed ∧
       Moved s t s.here (fun u y => { y with hold := .rest (entryNamed (reads s u a)) (reads s u d) }))

/-- SPAWN starts siblings of each lane's entry, up to the number asked, all of them where a slice has contexts and rows and the launch TIDs
for them, and answers how many: each with the entry's state
and registers, its number plus one in the register that the SNAP named, the next TID of the launch, and a place in the
spawning thread's groups; the others' registers, the entries and every byte of memory stand (R139, R298, R299).
Where the spec leaves it open the model's choice stands (log 82). -/
def Obligations.SiblingsStart : Prop :=
  ∀ (i : Instr) (s : State) (lk : Link) (d a : Reg) (n : BitVec 4) (l : Launch) (k : Nat), WarpReady s i → Listed s → noHelpers s →
    i = .spawn lk d a n ∨ i = .spawnFar lk d a n → (n = 0#4 → s.cur.ext.isSome = true ∧ s.ext.c3 ≠ 0#7) →
    s.reads (if n = 0#4 then [a, s.ext.c3] else [a]) → OneReg s d → s.here.Owns s.cur.run d →
    (∀ u ∈ s.active, handleGood s.here u (reads s u a) ∧ resumes s.here (entryNamed (reads s u a))) → RowsCounted s.here →
    WarpsNumbered s.here →
    s.here.launch = some k → s.launch k = some l → l.spawnNext < 2 ^ 31 → l.hdr.width = 16 ∨ l.hdr.width = 32 ∨ l.hdr.width = 64 →
    let total := (s.active.map (asked s n)).sum
    ∃ (t : State) (new : List (Nat × Nat × Nat)), exec i s = .next t ∧ t.completed ∧
      (∀ v, AMap.has (t.core s.cur.core).threads v = (AMap.has s.here.threads v || new.any (fun x => x.1 == v))) ∧
      (∀ j (h : j < new.length), Sibling s t l
        (if i = .spawn lk d a n then some (entrySlice s a (new[j]).2.1) else none)
        (new[j]).2.1 (entryNamed (reads s (new[j]).2.1 a)) (new[j]).2.2 j (new[j]).1) ∧
      (∀ u ∈ s.active, (new.filter (fun x => x.2.1 == u)).map (fun x => x.2.2) =
          List.range (new.filter (fun x => x.2.1 == u)).length ∧
        (new.filter (fun x => x.2.1 == u)).length ≤ asked s n u ∧
        regWord (t.core s.cur.core) u d = some (BitVec.ofNat 32 (new.filter (fun x => x.2.1 == u)).length)) ∧
      (l.spawnNext + total < 2 ^ 31 →
        (∀ u ∈ s.active, roomIn s.here (entrySlice s a u) total ∨
          (i = .spawnFar lk d a n ∧ ∃ slice < 16, roomIn s.here slice total)) →
        ∀ u ∈ s.active, (new.filter (fun x => x.2.1 == u)).length = asked s n u) ∧
      t.launch k = some { l with spawnNext := l.spawnNext + new.length } ∧
      valuesKept s.here (t.core s.cur.core) (fun u r => u ∈ s.active ∧ r = d) ∧
      (∀ u, AMap.has s.here.threads u = true → u ∉ s.cur.run → (t.core s.cur.core).th u = s.thread u) ∧
      (∀ u ∈ s.cur.run, if u ∈ s.active then
          Thread.onlyNotes { ((s.thread u).issued true) with busy := spawnDone s.here (t.core s.cur.core) } ((t.core s.cur.core).th u)
        else (t.core s.cur.core).th u = (s.thread u).issued false) ∧
      ({ s with launches := t.launches } : State).onlyHere t ∧ (t.core s.cur.core).scratch = s.here.scratch ∧
      (∀ j, j ≠ k → t.launch j = s.launch j)

/-- DROP names each lane's entry, which is freed at its next generation at the end of the cycle, once where lanes name one entry; HINFO answers the word of an entry
that N selects and 0 for a handle that fails; a handle that fails traps every other word of a lane that executes it as
FOREIGN_HANDLE or STALE_HANDLE with the handle as INFO (R285, R286, R300, R301). -/
def Obligations.HandlesAreCheckedDroppedAndRead : Prop :=
  (∀ (s : State) (lk : Link) (a : Reg), WarpReady s (.drop lk a) → Listed s → noHelpers s → s.reads [a] →
    (∀ u ∈ s.active, handleGood s.here u (reads s u a)) →
    ∃ t, exec (.drop lk a) s = .next t ∧ t.completed ∧
      Moved s t { s.here with drops := (t.core s.cur.core).drops } (fun _ y => { y with busy := s.here.clock + 4 }) ∧
      (∀ x, x ∈ (t.core s.cur.core).drops ↔ x ∈ s.here.drops ∨ ∃ u ∈ s.active, x = (entryNamed (reads s u a), s.here.clock))) ∧
  (∀ c : Core, RowsCounted c → (c.drops.map (fun x => x.1)).Nodup → (∀ x ∈ c.drops, (c.entry x.1).state = 1) →
    (∀ p ∈ c.threads, ∀ e v, p.2.hold ≠ .rest e v) →
    rowsOnly c { c.flushDrops with drops := c.drops } ∧ c.flushDrops.drops = [] ∧ c.flushDrops.threads = c.threads ∧
      (∀ u r, AMap.has c.threads u = true → regWord c.flushDrops u r = regWord c u r) ∧
      ∀ e, c.flushDrops.entry e =
        if c.drops.any (fun x => x.1 == e) then
          { Entry.reset with gen := if (c.entry e).gen = 255#8 then 1#8 else (c.entry e).gen + 1#8 }
        else c.entry e) ∧
  (∀ (s : State) (lk : Link) (d a : Reg) (n : BitVec 4), WarpReady s (.hinfo lk d a n) → s.reads [a] → s.writes d 4 →
    (∀ u ∈ s.active, s.here.blockOk u d 1 = true) →
    ∃ (t : State) (w : Nat → Word), exec (.hinfo lk d a n) s = .next t ∧ t.completed ∧
      Plain s t d w (fun _ y => { y with busy := s.here.clock + 4 }) ∧
      ∀ u ∈ s.active, (¬ handleGood s.here u (reads s u a) → w u = 0#32) ∧
        (handleGood s.here u (reads s u a) →
          let x := s.here.entry (entryNamed (reads s u a))
          (n = 0#4 → w u = BitVec.ofNat 32 (2 ^ 31 + getAt x.map 0 0 / 1024 * 2 ^ 24 + x.map.length * 2 ^ 20 +
            (x.map.filter (fun r => decide (1 < (s.here.row r).count))).length * 2 ^ 16)) ∧
          (n = 1#4 → w u = x.pc) ∧ (n = 2#4 → w u = x.maker) ∧
          (n = 3#4 → ∀ f < 32, (w u).getLsbD f = (decide (f < 12) && !(getAt x.flags f 0 == 0))))) ∧
  (∀ (i : Instr) (s : State) (lk : Link) (d a : Reg) (n : BitVec 4) (u : Nat), WarpReady s i → Listed s → noHelpers s →
    i = .rest lk d a ∨ (i = .spawn lk d a n ∧ n ≠ 0#4) ∨ (i = .spawnFar lk d a n ∧ n ≠ 0#4) ∨ i = .drop lk a →
    s.reads [d, a] → (∀ v ∈ s.active, s.here.blockOk v d 1 = true) →
    u ∈ s.active → ¬ handleGood s.here u (reads s u a) → (∀ v ∈ s.active.takeWhile (fun v => !(v == u)), handleGood s.here v (reads s v a)) →
    ∃ t info slot, exec i s = .next t ∧ t.cur.status = .trapped info slot ∧ info.info = reads s u a ∧ info.lane = laneOf s u ∧
      info.cause = if (reads s u a).toNat / 2 ^ 12 % 2 ^ 9 = s.here.bind.toNat then .staleHandle else .foreignHandle)

/-- OFFER parks each thread for the cycles that its register names, or answers 0 where it names none. RECRUIT starts up to N
helpers for each thread that has no team, in lanes that are parked or hold no thread, with the recruiter's registers and
state, its own packet and reserve of rows, and answers how many and why no more; other registers and all memory stand (R302
to R305).
Where the spec leaves it open the model's choice stands (log 83, 85). -/
def Obligations.HelpersAreRecruited : Prop :=
  (∀ (s : State) (lk : Link) (d a : Reg), WarpReady s (.offer lk d a) → noHelpers s → s.reads [a] → s.writes d 4 →
    (∀ u ∈ s.active, s.here.blockOk u d 1 = true) →
    let n (u : Nat) : Nat := (reads s u a).toNat % 65536
    ∃ t, exec (.offer lk d a) s = .next t ∧ t.completed ∧ s.onlyHere t ∧ s.here.onlyThreads (t.core s.cur.core) ∧
      (∀ u, u ∉ s.cur.run → (t.core s.cur.core).th u = s.thread u) ∧
      (∀ u ∈ s.cur.run, u ∉ s.active → (t.core s.cur.core).th u = (s.thread u).issued false) ∧
      (∀ u ∈ s.active, Thread.onlyNotes (if n u = 0 then (s.thread u).issued true
        else { ((s.thread u).issued true) with hold := .parked (n u) d }) ((t.core s.cur.core).th u)) ∧
      (∀ u ∈ s.active, n u = 0 → ∀ q, s.here.cell u d = some q → (t.core s.cur.core).rowWord q.1 q.2 = 0#32) ∧
      ∀ r w, (∀ u ∈ s.active, n u = 0 → s.here.cell u d ≠ some (r, w)) → (t.core s.cur.core).rowWord r w = s.here.rowWord r w) ∧
  (∀ (s : State) (lk : Link) (d a : Reg) (n : BitVec 4), WarpReady s (.recruit lk d a n) → Listed s → noHelpers s →
    s.reads [a] → OneReg s d → s.here.Owns s.cur.run d ∧ rowsToSpare s.here s.active → RowsCounted s.here →
    (s.here.warps.map (fun w => w.id)).Nodup → lanesOf s ≤ 64 → (∀ u ∈ s.active, inSegment s (reads s u a).toNat) →
    ∃ (t : State) (new : List (Nat × Nat × Nat)), exec (.recruit lk d a n) s = .next t ∧ t.completed ∧ s.onlyHere t ∧
      rowsOnly s.here (t.core s.cur.core) ∧
      (∀ v, AMap.has (t.core s.cur.core).threads v = (AMap.has s.here.threads v || new.any (fun x => x.1 == v))) ∧
      (∀ x ∈ new, Started s t (reads s x.2.1 a).toNat x.2.1 x.2.2 x.1) ∧
      (∀ u ∈ s.active, ∃ got w, (new.filter (fun x => x.2.1 == u)).map (fun x => x.2.2) = List.range got ∧
        recruited s n.toNat got u w ∧ regWord (t.core s.cur.core) u d = some w ∧
        (0 < got → ∃ e, (s.here.entry e).state = 0 ∧ ((t.core s.cur.core).entry e).state = 2 ∧
          rowsMoved { ((s.thread u).issued true) with team := some ⟨e, got, none, []⟩, busy := doneAt s.here (t.core s.cur.core) 10 }
            ((t.core s.cur.core).th u)) ∧
        (got = 0 → rowsMoved { ((s.thread u).issued true) with busy := doneAt s.here (t.core s.cur.core) 10 }
          ((t.core s.cur.core).th u)) ∧
        (s.active = [u] → (s.thread u).team = none → roomForTeam s.here →
          n.toNat ≤ ((List.range (lanesOf s)).filter (fun i => mayServe s.here (s.thread u).warp i)).length → got = n.toNat)) ∧
      (∀ u, AMap.has s.here.threads u = true → u ∉ s.cur.run → (t.core s.cur.core).th u = s.thread u) ∧
      valuesKept s.here (t.core s.cur.core) (fun u r => u ∈ s.active ∧ r = d))

/-- HEND ends each helper that executes it with its value noted in the recruiter's team and its status bits added to the
recruiter's, HKILL ends every helper of its thread and answers how many, HWAIT answers the combination of a finished
team's values and which helpers gave one, acquires and closes the team; no byte of memory changes (R161, R307, R308, R310).
Where the spec leaves it open the model's choice stands (log 39). -/
def Obligations.HelpersEndAndAreJoined : Prop :=
  (∀ (s : State) (lk : Link) (a : Reg) (n : BitVec 4), WarpReady s (.hend lk a n) → Listed s → InTeams s n.toNat → s.reads [a] →
    RowsCounted s.here → parkedOwn s.here →
    ∃ t, exec (.hend lk a n) s = .next t ∧ t.completed ∧ s.onlyHere t ∧ (t.core s.cur.core).scratch = s.here.scratch ∧
      (∀ v, AMap.has (t.core s.cur.core).threads v = (AMap.has s.here.threads v && !(s.active.contains v))) ∧
      (∀ u ∈ s.active, ∃ h x, (s.thread u).helper = some h ∧ ((t.core s.cur.core).th h.recruiter).team = some x ∧
        AMap.look x.ends h.index = some (.value (reads s u a)) ∧ x.op = some n.toNat ∧
        (s.thread u).fstat &&& ((t.core s.cur.core).th h.recruiter).fstat = (s.thread u).fstat ∧
        (isParked s.here (lanePark s u) → ¬ isParked (t.core s.cur.core) (lanePark s u))) ∧
      ∀ v r, v ∉ s.active → (∀ u ∈ s.active, v = lanePark s u → ¬ isParked s.here v) →
        regWord (t.core s.cur.core) v r = regWord s.here v r) ∧
  (∀ (s : State) (lk : Link) (d : Reg), WarpReady s (.hwait lk d) → noHelpers s → WritesBlock s d 2 4 →
    (∀ u ∈ s.active, ∀ x, (s.thread u).team = some x → teamGood x) → (∀ u ∈ s.active, ∀ x, (s.thread u).team = some x → ∀ k, x.op = some k → k < 4) →
    ∃ t, exec (.hwait lk d) s = .next t ∧ t.completed ∧
      Blocks (withHere s { (if s.active.any (fun u => (s.thread u).team.isSome) then s.here.acquire else s.here) with
          threads := closed s.here s.active }) t d 2
        (fun u k => match (s.thread u).team with
          | some x => if k = 0 then teamValue s x else teamBits x
          | none => 0#32)
        (fun y => { y with busy := s.here.clock + 8 })) ∧
  (∀ (s : State) (lk : Link) (d : Reg), WarpReady s (.hkill lk d) → Listed s → noHelpers s → OneReg s d → s.here.Owns s.cur.run d →
    RowsCounted s.here → parkedOwn s.here → (∀ u ∈ s.active, ¬ isParked s.here u) →
    ∃ t, exec (.hkill lk d) s = .next t ∧ t.completed ∧ s.onlyHere t ∧ (t.core s.cur.core).scratch = s.here.scratch ∧
      (∀ v, AMap.has (t.core s.cur.core).threads v = (AMap.has s.here.threads v && !(s.active.any (fun u => (helpersOf s.here u).contains v)))) ∧
      (∀ u ∈ s.active, regWord (t.core s.cur.core) u d = some (BitVec.ofNat 32 (helpersOf s.here u).length) ∧
        ∀ x, (s.thread u).team = some x → (helpersOf s.here u).length + x.ends.length = x.n →
          ∃ y, ((t.core s.cur.core).th u).team = some y ∧ ∀ v ∈ helpersOf s.here u, ∀ h, (s.thread v).helper = some h →
            AMap.look y.ends h.index = some .killed) ∧
      ∀ v r, v ∉ s.active → (∀ u ∈ s.active, ∀ w ∈ helpersOf s.here u, v ≠ w ∧ (v = lanePark s w → ¬ isParked s.here v)) →
        regWord (t.core s.cur.core) v r = regWord s.here v r)

/-- A pool word makes its threads wait and hands the operation of each lane that executes it to the agent of its pool, in
lane order, behind the operations there; no register is written. A lane whose A is no pool of the VF, whose tag is above 15
or whose bitmap has bits above 15 raises ILLEGAL_OPERAND (R323, R330).
Where the spec leaves it open the model's choice stands (log 73). -/
def Obligations.PoolWordsAreQueued : Prop :=
  (∀ (i : Instr) (s : State) (x : PoolWord), poolWordOf i = some x → WarpReady s i → Listed s →
    (∀ u ∈ s.active, s.here.blockOk u x.dst 3 = true ∧ s.here.blockOk u x.src x.args = true ∧ isPool s (blockArg s x.src u 0) ∧
      (x.op (blockArg s x.src u)).isSome = true) →
    (∀ k < 3, s.here.Owns s.cur.run (nth x.dst k)) →
    ∃ t, exec i s = .next t ∧ t.completed ∧
      (s.active = [] → Moved s t s.here (fun _ y => y)) ∧
      (s.active ≠ [] →
        Moved { s with vfs := t.vfs } t
          { s.here with nextPool := s.here.nextPool + 1
                        poolWords := AMap.put s.here.poolWords s.here.nextPool (s.active, none) }
          (fun _ y => { y with hold := .pool s.here.nextPool }) ∧
        poolsSet s t (fun v n p => if v = myVf s then
          { p with queue := p.queue ++ (s.active.filter (fun u => blockArg s x.src u 0 == n)).filterMap (laneAsked s x) } else p))) ∧
  (∀ (i : Instr) (s : State) (x : PoolWord), poolWordOf i = some x → WarpReady s i →
    (∀ u ∈ s.active, s.here.blockOk u x.dst 3 = true ∧ s.here.blockOk u x.src x.args = true) →
    (∃ u ∈ s.active, (let n := blockArg s x.src u 0
      n = 0 ∨ 4096 ≤ n ∨ (s.tensor (myVf s) n).state ≠ 1 ∨ (s.tensor (myVf s) n).format ≠ 2) ∨ x.op (blockArg s x.src u) = none) →
    Traps (exec i s) .illegalOperand)

/-- KVNEW.pool on a good descriptor registers a pool with no page and no record in use: its entry is of FORMAT 2, DST is
the entry, DST + 1 NPAGES and DST + 2 zero. A bad descriptor or a named entry in use fails with BADDESC, a full table with
NOREC: 0xFFFF_FFFF in DST, the reason in DST + 1, DST + 2 unchanged and the predicate set (R324, R331).
Where the spec leaves it open the model's choice stands (log 75, 76). -/
def Obligations.PoolsAreMade : Prop :=
  (∀ (s : State) (lk : Link) (d a : Reg) (pd : BitVec 3) (pe : Bool) (p : Pool) (vbase id n : Nat),
    let w := fun j => leadReads s (nth a j)
    WarpReady s (.kvnewPool lk d a pd pe) → WritesBlock s d 3 4 → predLast s (predNamed pd pe) → s.active ≠ [] →
    (∀ u ∈ s.active, s.here.blockOk u a 8 = true) → describesPool w p vbase id → GoodPool w p vbase → takesEntry s id n →
    ∃ t, exec (.kvnewPool lk d a pd pe) s = .next t ∧ t.completed ∧ t.tensor (myVf s) n = poolEntry s n vbase p.npages ∧
      (∃ q, t.pool (myVf s) n = some q ∧ { q with headers := [], seqs := [] } = p ∧ (∀ g, g < p.npages → q.header (myVf s) g =
          ⟨myVf s, if g < p.nhbm then 0 else 1, false, 0, 0, 0#16, 0#16, List.replicate 16 0, 0#32, 0xFFFFFFFF#32, 0xFFFFFFFF#32,
            0xFFFFFFFF#32, false⟩) ∧ ∀ j, j < p.nseq → (q.seq j).live = false) ∧
      (∀ v m, v ≠ myVf s ∨ m ≠ n → t.tensor v m = s.tensor v m ∧ t.pool v m = s.pool v m) ∧
      (∀ u ∈ s.active, ∀ k < 3, ∀ q, s.here.cell u (nth d k) = some q →
        (t.core s.cur.core).rowWord q.1 q.2 = getAt [BitVec.ofNat 32 n, BitVec.ofNat 32 p.npages, 0#32] k 0#32) ∧
      ∀ u ∈ s.active, Thread.onlyNotes { (marked (predNamed pd pe) false ((s.thread u).issued true)) with
          busy := s.here.clock + 300 + (p.npages + p.nseq + 15) / 16 } ((t.core s.cur.core).th u)) ∧
  (∀ (s : State) (lk : Link) (d a : Reg) (pd : BitVec 3) (pe : Bool) (reason : Word),
    WarpReady s (.kvnewPool lk d a pd pe) → WritesBlock s d 3 4 → predLast s (predNamed pd pe) → s.active ≠ [] →
    (∀ u ∈ s.active, s.here.blockOk u a 8 = true) → NoPool s (fun j => leadReads s (nth a j)) reason →
    ∃ t, exec (.kvnewPool lk d a pd pe) s = .next t ∧ t.completed ∧
      RunResults s t d [0xFFFFFFFF#32, reason] (marked (predNamed pd pe) true))

/-- KVNEW.drop sets the entry of its pool dropping and makes its run wait for the home slices (R278, R331). KVFORK.cow takes
the oldest copy request of its cluster and has the agent serve it, which copies the page's payload and header and puts the new page in
the old one's place; with none it waits; outside the handler role it raises ILLEGAL_INSTRUCTION (R322, R325, R333).
Where the spec leaves it open the model's choice stands (log 78). -/
def Obligations.PoolsAreDroppedAndCopied : Prop :=
  (∀ (s : State) (lk : Link) (d a : Reg) (pd : BitVec 3) (pe : Bool),
    let n := leadReads s a
    WarpReady s (.kvnewDrop lk d a pd pe) → Listed s → s.active ≠ [] → feUid ∉ s.active →
    (∀ u ∈ s.active, s.here.blockOk u d 3 = true ∧ s.here.blockOk u a 1 = true ∧ isPool s (blockArg s a u 0)) →
    (∀ k < 3, s.here.Owns s.cur.run (nth d k)) →
    ∃ t, exec (.kvnewDrop lk d a pd pe) s = .next t ∧ t.completed ∧
      tensorsSet s t (some (n, { (s.tensor (myVf s) n) with state := 2 })) ∧
      let s' : State := { s with vfs := t.vfs, cores := goneMarked s n }
      Moved s' t s'.here (sliced s (.pool d (predNamed pd pe)) n)) ∧
  (∀ (s : State) (lk : Link) (d : Reg) (pd : BitVec 3) (pe : Bool) (r : CopyReq) (rs : List CopyReq),
    WarpReady s (.kvforkCow lk d pd pe) → WritesBlock s d 3 4 → predLast s (predNamed pd pe) → isHandler s → s.active ≠ [] →
    (s.cluster (clusterOf s.cur.core)).copies = r :: rs → (∀ q, s.pool r.vf r.t = some q → q.queue.Nodup) →
    ∃ t n, exec (.kvforkCow lk d pd pe) s = .next t ∧ t.completed ∧ CopyAnswer s t r n ∧
      (t.cluster (clusterOf s.cur.core)).copies = rs ∧
      (∀ l, l ∈ ((t.pool r.vf r.t).map (·.queue)).getD [] → l.copying = some r.g → l.op.seq = some r.s →
        ∃ m, m ∈ ((s.pool r.vf r.t).map (·.queue)).getD [] ∧ m ≠ l ∧ m.copying = some r.g ∧ m.op.seq = some r.s) ∧
      (∀ u ∈ s.active, ∀ k < 3, ∀ q, s.here.cell u (nth d k) = some q →
        (t.core s.cur.core).rowWord q.1 q.2 = getAt [BitVec.ofNat 32 r.t, BitVec.ofNat 32 r.s, n] k 0#32) ∧
      ∀ u ∈ s.active, Thread.onlyNotes (marked (predNamed pd pe) false ((s.thread u).issued true)) ((t.core s.cur.core).th u)) ∧
  (∀ (s : State) (lk : Link) (d : Reg) (pd : BitVec 3) (pe : Bool),
    WarpReady s (.kvforkCow lk d pd pe) → isHandler s → s.active ≠ [] → (∀ u ∈ s.active, s.here.blockOk u d 3 = true) →
    (s.cluster (clusterOf s.cur.core)).copies = [] →
    ∃ t, exec (.kvforkCow lk d pd pe) s = .next t ∧ t.cur.status = .waitingAll ∧ { t with cur := s.cur } = s) ∧
  (∀ (s : State) (lk : Link) (d : Reg) (pd : BitVec 3) (pe : Bool), WarpReady s (.kvforkCow lk d pd pe) → ¬ isHandler s →
    Traps (exec (.kvforkCow lk d pd pe) s) .illegalInstruction)

/-- XQSEND, XQRECV and XQRECV.draft check the control value of the lowest lane and make their run wait: XQSEND with the
sixteen registers that it sends, the others with the destination of the message, XQRECV.draft with VOCAB and VOCABPAD as it meets
them. A die absent from DEVCAP raises UNIT_ABSENT, another bad control value ILLEGAL_OPERAND (R343, R344). -/
def Obligations.QueueWordsWait : Prop :=
  (∀ (i : Instr) (s : State) (lk : Link) (c b : Reg) (fits : Hold → Prop), WarpReady s i → Listed s → s.active ≠ [] → feUid ∉ s.active →
    (∀ u ∈ s.active, s.here.blockOk u c 1 = true ∧ s.here.blockOk u b 16 = true) →
    let ctrl := reads s (s.active.headD 0) c
    let place : WordAt := ⟨s.cur.pc, s.cur.gpc, s.cur.glen⟩
    (i = .xqsend lk c b ∧
        fits = fun h => h = .xqsend ctrl ((List.range 16).map (fun j => reads s (s.active.headD 0) (nth b j))) (comesBack s)) ∨
      (i = .xqrecv lk b c ∧ (∀ k < 16, s.here.Owns s.cur.run (nth b k)) ∧
        fits = fun h => h = .xqrecv b ctrl none place (comesBack s)) ∨
      (i = .xqrecvDraft lk b c ∧ (∀ k < 16, s.here.Owns s.cur.run (nth b k)) ∧
        fits = fun h => ∃ x y : DWord, meetsSys s noUid 0x02 (s.here.vocab.setWidth 64) x ∧
          meetsSys s noUid 0x03 (s.here.vocabpad.setWidth 64) y ∧
          h = .xqrecv b ctrl (some (x.setWidth 32, y.setWidth 32)) place (comesBack s)) →
    (GoodControl s (leadReads s c) → ∃ t h, exec i s = .next t ∧ t.completed ∧ fits h ∧ Moved s t s.here (queueing s h)) ∧
    (s.devcap.getLsbD (24 + leadReads s c % 4) = false → Traps (exec i s) .unitAbsent) ∧
    (s.devcap.getLsbD (24 + leadReads s c % 4) = true → ¬ GoodControl s (leadReads s c) → Traps (exec i s) .illegalOperand))

/-- GSTEP advances each lane's block by its token or, where the table does not allow the token, leaves the block and sets
the predicate; a push at depth 8 raises GRAMMAR_STACK. GMASK gives each lane its mask of 32 tokens, the number of allowed
tokens and the lowest, from the die's caches where they hold them. GSTEP.bind binds or unbinds a slot of the die, or answers 1 or 2. No byte of memory changes
(R347, R348, R349).
Where the spec leaves it open the model's choice stands (log 80, 97, 108). -/
def Obligations.GrammarWordsReadTheirTable : Prop :=
  (∀ (s : State) (lk : Link) (d a : Reg) (pd : BitVec 3) (pe : Bool) (g : Nat → GrammarSlot),
    WarpReady s (.gstep lk d a pd pe) → Listed s → Coherent s →
    s.devcap.getLsbD (8 + dieOf s.cur.core) = true → s.funcBit (myVf s) 3 = false → (∀ u ∈ s.active, s.here.blockOk u a 1 = true) →
    WritesBlock s d 5 4 → predLast s (predNamed pd pe) →
    (∀ u ∈ s.active, GoodBlock s d u (g u) ∧ actionGood s (g u) (gState s d u) (gTop s d u) (reads s u a).toNat) →
    ((∃ u ∈ s.active, laneAllows s d a u (g u) = true ∧ (laneAction s d a u (g u)).2.1 = 1 ∧ gDepth s d u = 8) →
      Traps (exec (.gstep lk d a pd pe) s) .grammarStack) ∧
    ((∀ u ∈ s.active, laneAllows s d a u (g u) = true → (laneAction s d a u (g u)).2.1 = 1 → gDepth s d u < 8) →
      ∃ (t : State) (w : Nat → Nat → Nat), exec (.gstep lk d a pd pe) s = .next t ∧ t.completed ∧ TableRead s t ∧ t.dies = s.dies ∧
        (∀ u ∈ s.active, if laneAllows s d a u (g u) then NewBlock s d a u (g u) (w u) else ∀ k < 5, w u k = blockArg s d u k) ∧
        (∀ u ∈ s.active, ∀ k < 5, ∀ q, s.here.cell u (nth d k) = some q → (t.core s.cur.core).rowWord q.1 q.2 = BitVec.ofNat 32 (w u k)) ∧
        ∀ u ∈ s.active, Thread.onlyNotes (marked (predNamed pd pe) (!(laneAllows s d a u (g u))) ((s.thread u).issued true))
          ((t.core s.cur.core).th u))) ∧
  (∀ (s : State) (lk : Link) (d a : Reg) (pd : BitVec 3) (pe : Bool) (g : GrammarSlot),
    WarpReady s (.gmask lk d a pd pe) → Listed s → Coherent s → s.active ≠ [] →
    s.devcap.getLsbD (8 + dieOf s.cur.core) = true → s.funcBit (myVf s) 3 = false → (∀ u ∈ s.active, s.here.blockOk u a 6 = true) →
    WritesBlock s d 3 4 → predLast s (predNamed pd pe) →
    let v := s.active.headD 0
    let ok (tok : Nat) : Bool := tokenAllowed s g (gState s a v) (gTop s a v) (gTop s a v) tok
    let all := (List.range g.ntok).filter ok
    let first (u : Nat) : Nat := 512 * blockArg s a v 5 + 32 * (laneOf s u % 16)
    let key (chunk : Nat) : MaskKey := ⟨g.vf, blockWord s a v / 2 ^ 28, gState s a v, gTop s a v, chunk⟩
    let die := s.die (dieOf s.cur.core)
    let mask (u : Nat) : Word := match heldMask (key (blockArg s a v 5)) die.chunks with
      | some m => BitVec.ofNat 32 (m.toNat / 2 ^ (32 * (laneOf s u % 16)))
      | none => lanesWord 0 (fun b => ok (first u + b))
    let sum : Word × Word := match heldMask (key 0) die.sums with
      | some x => x
      | none => (BitVec.ofNat 32 all.length, match all with | x :: _ => BitVec.ofNat 32 x | [] => 0xFFFFFFFF#32)
    GoodBlock s a v g → (∀ tok < g.ntok, actionGood s g (gState s a v) (gTop s a v) tok) →
    ∃ t, exec (.gmask lk d a pd pe) s = .next t ∧ t.completed ∧ TableRead s t ∧
      (∀ u ∈ s.active, ∀ k < 3, ∀ q, s.here.cell u (nth d k) = some q → (t.core s.cur.core).rowWord q.1 q.2 = match k with
        | 0 => mask u
        | 1 => sum.1
        | _ => sum.2) ∧
      ∀ u ∈ s.active, Thread.onlyNotes (marked (predNamed pd pe) (decide (sum.1 = 1#32)) ((s.thread u).issued true))
        ((t.core s.cur.core).th u)) ∧
  (∀ (s : State) (lk : Link) (d a : Reg) (pd : BitVec 3) (pe : Bool),
    let slot := leadReads s a
    let va := leadReads s (nth a 1) + 2 ^ 32 * (leadReads s (nth a 2) % 2 ^ 20)
    let w (j : Nat) : Nat := vaNum s (myVf s) (va + 4 * j) 4
    let table := (s.die (dieOf s.cur.core)).grammar
    let fits : Prop := (1 ≤ w 0 ∧ w 0 ≤ 65536) ∧ (1 ≤ w 1 ∧ w 1 ≤ 16384) ∧ (1 ≤ w 2 ∧ w 2 ≤ 65536) ∧ (1 ≤ w 3 ∧ w 3 ≤ 2 ^ 20) ∧
      w 4 % 64 = 0 ∧ w 5 % 64 = 0 ∧ (∀ j, 6 ≤ j → j < 16 → w j = 0) ∧ w 4 + 2 * w 3 < 2 ^ 32 ∧ w 5 + 4 * (w 0 * w 1 * w 2) < 2 ^ 32
    WarpReady s (.gstepBind lk d a pd pe) → Listed s → Coherent s → s.active ≠ [] →
    s.devcap.getLsbD (8 + dieOf s.cur.core) = true → s.funcBit (myVf s) 3 = false → (∀ u ∈ s.active, s.here.blockOk u a 3 = true) →
    WritesBlock s d 1 4 → slot < 16 → (va = 0 ∨ vaGood s (myVf s) va 64) →
    ∃ t r x, exec (.gstepBind lk d a pd pe) s = .next t ∧ t.completed ∧ (∀ pa, t.physByte pa = s.physByte pa) ∧
      (∀ u ∈ s.active, ∀ q, s.here.cell u d = some q → (t.core s.cur.core).rowWord q.1 q.2 = r) ∧
      (∀ n, AMap.look (t.die (dieOf s.cur.core)).grammar n = if n = slot then x else AMap.look table n) ∧
      ((∃ y, AMap.look table slot = some y ∧ y.vf ≠ myVf s) → r = 2#32 ∧ x = AMap.look table slot) ∧
      ((∀ y, AMap.look table slot = some y → y.vf = myVf s) →
        (va = 0 → r = 0#32 ∧ x = none) ∧
        (va ≠ 0 → fits → r = 0#32 ∧ x = some ⟨myVf s, va, w 0, w 1, w 2, w 3, w 4, w 5⟩) ∧
        (va ≠ 0 → ¬ fits → r = 1#32 ∧ x = AMap.look table slot)))

/-- SYSRD writes the register that B names: a thread's own in each lane, 64 bits in front-end code, any other as it stands or as it
stood before another thread's SYSWR of the last 4 cycles; a number that is not listed, a 64-bit register in warp code, and at PL0 one reserved to PL1 raise ILLEGAL_INSTRUCTION.
KVQUOTA.rd writes the quota register that its selector names (R328, R338, R355, R380).
Where the spec leaves it open the model's choice stands (log 68). -/
def Obligations.SystemRegistersAreRead : Prop :=
  (∀ (s : State) (lk : Link) (d b : Reg), WarpReady s (.sysrd lk d b) → s.writes d 4 →
    isRegister b.toNat → b.toNat < 0x20 → (readsAtOne b.toNat → atLevelOne s) →
    (∀ u ∈ s.active, ∀ e ∈ (s.thread u).early, e.code ≠ fstatCode) →
    ∃ t, exec (.sysrd lk d b) s = .next t ∧ t.completed ∧
      (isThreads b.toNat → Plain s t d (fun u => threadRegister s u b.toNat) (fun _ y => y)) ∧
      (¬ isThreads b.toNat → ∃ got : Nat → DWord, (∀ u ∈ s.active, seesRegister s u b.toNat (got u)) ∧
        Plain s t d (fun u => (got u).setWidth 32) (fun _ y => y))) ∧
  (∀ (s : State) (lk : Link) (d b : Reg) (f : FrontEnd), FrontReady s (.sysrd lk d b) f → feDstOk d = true → f.noLater d (f.last + 4) →
    isRegister b.toNat → (readsAtOne b.toNat → f.pl = true) → ¬ isThreads b.toNat →
    ∃ t f' got, exec (.sysrd lk d b) s = .next t ∧ t.completed ∧ seesRegister s feUid b.toNat got ∧ FrontEffect s t f' ∧
      f.resulted f' d got) ∧
  (∀ (s : State) (lk : Link) (d b : Reg), WarpReady s (.sysrd lk d b) →
    ¬ isRegister b.toNat ∨ 0x20 ≤ b.toNat ∨ (readsAtOne b.toNat ∧ ¬ atLevelOne s) → Traps (exec (.sysrd lk d b) s) .illegalInstruction) ∧
  (∀ (s : State) (lk : Link) (d a : Reg), WarpReady s (.kvquotaRd lk d a) → s.writes d 4 → s.active ≠ [] →
    (∀ u ∈ s.active, s.here.blockOk u d 1 = true ∧ s.here.blockOk u a 1 = true) →
    (atLevelOne s → GoodSelector s (leadReads s a) false → ∃ t, exec (.kvquotaRd lk d a) s = .next t ∧ t.completed ∧
      Plain s t d (fun _ => BitVec.ofNat 32 (quotaOf s (leadReads s a))) (fun _ y => { y with busy := s.here.clock + 40 })) ∧
    (atLevelOne s → ¬ GoodSelector s (leadReads s a) false → Traps (exec (.kvquotaRd lk d a) s) .illegalOperand) ∧
    (¬ atLevelOne s → Traps (exec (.kvquotaRd lk d a) s) .illegalInstruction))

/-- SYSWR writes A of the lowest lane to the register that B names by the register's map, FSTAT from each lane: bits clear
where A holds 1. Read-only registers ignore it, and what is reserved to PL1 raises ILLEGAL_INSTRUCTION at PL0. KVQUOTA.wr
sets QUOTA and BORROW of a VF and LOWMARK of the partition (R136, R183, R328, R338, R345, R354, R360, R364, R369, R375, R380).
What another register stood at is kept for the words of other threads in the next 4 cycles; KVQUOTA.wr writes 40 cycles after its
issue, and its run waits till then.
Where the spec leaves it open the model's choice stands (log 21, 67, 81). -/
def Obligations.SystemRegistersAreWritten : Prop :=
  (∀ (s : State) (lk : Link) (a b : Reg) (l : Nat), WarpReady s (.syswr lk a b) → Listed s → noHelpers s → s.reads [a] →
    isRegister b.toNat → b.toNat < 0x20 → (writesAtOne b.toNat → atLevelOne s) → s.active ≠ [] → s.here.launch = some l →
    (∀ u ∈ s.active, ∀ e ∈ (s.thread u).early, e.code ≠ fstatCode) →
    (0x18 ≤ b.toNat → leadReads s a % 256 ≤ 0x0F) →
    let w := reads s (s.active.headD 0) a
    ∃ t, exec (.syswr lk a b) s = .next t ∧ t.completed ∧
      (b.toNat ≠ 0x00 → Remembered s t (s.active.headD 0) b.toNat) ∧
      let s' : State := { s with sysOld := t.sysOld }
      (b.toNat = 0x00 → Moved s t s.here (fun u y => { y with fstat := y.fstat &&& ~~~(reads s u a &&& 0xDF#32) })) ∧
      (b.toNat = 0x01 → Moved s' t { s.here with lost := w.toNat / 2 ^ 16, ftrap := BitVec.ofNat 3 (w.toNat / 4) } (fun _ y => y)) ∧
      (b.toNat = 0x02 → Moved s' t { s.here with vocab := w &&& 0xFFFFF#32 } (fun _ y => y)) ∧
      (b.toNat = 0x03 → Moved s' t { s.here with vocabpad := w } (fun _ y => y)) ∧
      (writesIgnored b.toNat → Moved s' t s.here (fun _ y => y)) ∧
      (b.toNat = 0x0D → Moved { s' with vfs := t.vfs } t s.here (fun _ y => y) ∧
        vfSet s t (myVf s) (fun x => { x with pretimers := pretimersOf w.toNat })) ∧
      (b.toNat = 0x0E → Moved { s' with parts := t.parts } t s.here (fun _ y => y) ∧ partSet s t (fun p => { p with ckRate := rateOf w.toNat })) ∧
      (b.toNat = 0x0F → (∀ c, (t.cluster c).handler = if c = clusterOf s.cur.core then claimed s l w (s.cluster c) else (s.cluster c).handler) ∧
        (w.getLsbD 31 = true → Moved { s' with clusters := t.clusters } t s.here (fun _ y => y))) ∧
      (0x18 ≤ b.toNat → Moved { s' with vfs := t.vfs } t s.here (fun _ y => y) ∧
        vfSet s t (myVf s) (fun x => { x with perfsel := AMap.put x.perfsel (b.toNat - 0x18) (w &&& 0x800000FF#32) }) ∧
        (AMap.lookD (t.vf (myVf s)).perfcnt (b.toNat - 0x18) 0#64).toNat ≤ 1)) ∧
  (∀ (s : State) (lk : Link) (a b : Reg) (f : FrontEnd), FrontReady s (.syswr lk a b) f → feSrcOk a = true →
    isRegister b.toNat → (writesAtOne b.toNat → f.pl = true) → (0x18 ≤ b.toNat → b.toNat < 0x20 → (f.read s.cur.draw a).toNat % 256 ≤ 0x0F) →
    let w := f.read s.cur.draw a
    let f' : FrontEnd := { f with pc := f.pc + 4#32 }
    ∃ t, exec (.syswr lk a b) s = .next t ∧ t.completed ∧ (t.core s.cur.core).fe = some f' ∧
      (b.toNat ≠ 0x00 → Remembered s t feUid b.toNat) ∧
      let s' : State := { s with sysOld := t.sysOld }
      (b.toNat = 0x02 → t.core s.cur.core = { s.here with fe := some f', vocab := w.setWidth 32 &&& 0xFFFFF#32 } ∧ s'.onlyHere t) ∧
      (writesIgnored b.toNat → FrontEffect s' t f') ∧
      (b.toNat = 0x20 → FrontEffect { s' with vfs := t.vfs, launches := t.launches } t f' ∧
        vfSet s t (myVf s) (fun x => { x with trapbase := w &&& 0xFFEFFFFFFFFFFFC1#64 }) ∧
        ∀ l, (s.launch l = none → t.launch l = none) ∧
          ∀ x, s.launch l = some x → ∃ y, t.launch l = some y ∧ holdsHandler s (myVf s) (w &&& 0xFFEFFFFFFFFFFFC1#64) x y) ∧
      (b.toNat = 0x22 → FrontEffect { s' with parts := t.parts } t f' ∧ partSet s t (fun p => { p with ckBuf := w &&& 0xFFFFFFFFFFFFF000#64 })) ∧
      (b.toNat = 0x23 → FrontEffect { s' with parts := t.parts } t f' ∧ partSet s t (fun p => { p with ckRsv := w &&& 0xFFFFFFFFFFE00000#64 }))) ∧
  (∀ (s : State) (lk : Link) (a b : Reg), WarpReady s (.syswr lk a b) →
    (¬ isRegister b.toNat ∨ 0x20 ≤ b.toNat ∨ (writesAtOne b.toNat ∧ ¬ atLevelOne s) → Traps (exec (.syswr lk a b) s) .illegalInstruction) ∧
    (isRegister b.toNat → 0x18 ≤ b.toNat → b.toNat < 0x20 → s.reads [a] → noHelpers s → s.active ≠ [] → 0x0F < leadReads s a % 256 →
      Traps (exec (.syswr lk a b) s) .illegalOperand)) ∧
  (∀ (s : State) (lk : Link) (d a : Reg), WarpReady s (.kvquotaWr lk d a) → Listed s → atLevelOne s → s.active ≠ [] →
    feUid ∉ s.active → (∀ u ∈ s.active, s.here.blockOk u d 1 = true ∧ s.here.blockOk u a 1 = true) → GoodSelector s (leadReads s a) true →
    let x := leadReads s a
    ∃ t, exec (.kvquotaWr lk d a) s = .next t ∧ t.completed ∧ Moved s t s.here (queueing s
      (.later (s.here.clock + 40) (.quota (myVf s) (x % 64) (x / 64 % 2) (x / 256 % 4) (leadReads s d))))) ∧
  (∀ (s : State) (k u own v tier reg n done : Nat), u ≠ feUid → AMap.has (s.core k).threads u = true → (AMap.keys (s.core k).threads).Nodup →
    feUid ∉ AMap.keys (s.core k).threads → ((s.core k).th u).hold = .later done (.quota own v tier reg n) → done ≤ s.now →
    s.tearing k = false → (∀ f, (s.core k).fe = some f → ∀ m job, f.hold ≠ .later m job) →
    (∀ w ≠ u, ∀ m job, ((s.core k).th w).hold ≠ .later m job) →
    let t := s.runLate k
    { t with cores := s.cores, vfs := s.vfs, parts := s.parts } = s ∧ (∀ j ≠ k, t.core j = s.core j) ∧
      { (t.core k) with threads := (s.core k).threads } = s.core k ∧
      (∀ w, (t.core k).th w = if w = u ∨ ((s.core k).th w).hold = .follow u then { ((s.core k).th w) with hold := .run } else (s.core k).th w) ∧
      (∀ w, t.vf w = if w = v ∧ reg = 0 then { (s.vf w) with quota := AMap.put (s.vf w).quota tier n }
        else if w = v ∧ reg = 1 then { (s.vf w) with borrow := AMap.put (s.vf w).borrow tier n } else s.vf w) ∧
      ∀ p, AMap.look t.parts p = if 3 ≤ reg ∧ s.partOfVf own = some p then
        (AMap.look s.parts p).map (fun y => { y with lowmark := AMap.put y.lowmark tier n }) else AMap.look s.parts p) ∧
  (∀ (s : State) (lk : Link) (d a : Reg), WarpReady s (.kvquotaWr lk d a) → ¬ atLevelOne s →
    Traps (exec (.kvquotaWr lk d a) s) .illegalInstruction)

/-- TRAP raises USER_TRAP with A[15:0] of the lowest lane that executes it. At PL0 with a handler segment every thread of the
run is frozen into a trap entry and enters its handler; otherwise, and in front-end code, the launch ends with a record of
it; with no lane it has no effect (R357, R358, R359, R363, R378).
Where the spec leaves it open the model's choice stands (log 77). -/
def Obligations.TrapsEnterTheirHandler : Prop :=
  (∀ (s : State) (lk : Link) (a : Reg), WarpReady s (.trap lk a) → Listed s → noHelpers s → s.reads [a] → s.active ≠ [] →
    (∀ u ∈ s.cur.run, (s.thread u).pl = false ∧ (s.thread u).intrap = false) → (∀ b, meetsBase s b → vectors b) →
    (∀ u ∈ s.cur.run, ∀ v ∈ s.cur.run, laneOf s u = laneOf s v → u = v) →
    RowsCounted s.here → rowsToSpare s.here s.cur.run →
    s.cur.run.length ≤ ((List.range 4096).filter (fun e => (s.here.entry e).state == 0)).length →
    ∃ t b, exec (.trap lk a) s = .next t ∧ t.trappedBy .userTrap ∧ s.onlyHere t ∧ rowsOnly s.here (t.core s.cur.core) ∧
      meetsBase s b ∧ (∀ u ∈ s.cur.run, ∃ e, Vectored s t a b u e) ∧ (∀ u, u ∉ s.cur.run → (t.core s.cur.core).th u = s.thread u) ∧
      ∀ e, (s.here.entry e).state ≠ 0 → (t.core s.cur.core).entry e = s.here.entry e) ∧
  (∀ (s : State) (lk : Link) (a : Reg) (l : Nat) (x : Launch), WarpReady s (.trap lk a) → Listed s → noHelpers s → s.reads [a] →
    s.active ≠ [] → s.here.launch = some l → s.launch l = some x → x.tearing = false → x.vf = myVf s →
    (∀ u ∈ s.cur.run, ∀ v ∈ s.cur.run, laneOf s u = laneOf s v → u = v) →
    let first := s.thread (s.cur.run.headD 0)
    (first.intrap = true ∨ first.pl = true ∨ ∀ b, meetsBase s b → ¬ vectors b) →
    ∃ t, exec (.trap lk a) s = .next t ∧ t.trappedBy .userTrap ∧
      LaunchEnds s t l x ⟨userRecord s first.intrap (!first.intrap && !first.pl) true, s.cur.pc, BitVec.ofNat 32 (trapCode s a), first.tid⟩) ∧
  (∀ (s : State) (lk : Link) (a : Reg) (f : FrontEnd) (l : Nat) (x : Launch), FrontReady s (.trap lk a) f → feSrcOk a = true →
    s.here.launch = some l → s.launch l = some x → x.tearing = false → x.vf = myVf s →
    ∃ t, exec (.trap lk a) s = .next t ∧ t.trappedBy .userTrap ∧
      LaunchEnds s t l x ⟨BitVec.ofNat 32 (15 + 2 ^ 13 + 2 ^ 16 + 2 ^ 17 * wordSlot s + 2 ^ 24 * s.cur.glen), s.cur.pc,
        BitVec.ofNat 32 ((f.read s.cur.draw a).toNat % 2 ^ 16), f.tid⟩) ∧
  (∀ (s : State) (lk : Link) (a : Reg), WarpReady s (.trap lk a) → Listed s → s.active = [] →
    ∃ t, exec (.trap lk a) s = .next t ∧ t.completed ∧ Moved s t s.here (fun _ y => y))

/-- TRET.retry and TRET.next give each thread back the state of its trap entry, at PL0 and out of the trap: at the PC of the
trapping group, or for `.next` past its words with the values given in DST; named predicates take C3's bits; the entry is
dropped. A thread that is not at rest is held with the values that it read. TRET.end drops the entry and ends the thread. At PL0, or out of a trap, it raises ILLEGAL_INSTRUCTION, with another
handle ILLEGAL_OPERAND (R373, R379). -/
def Obligations.ReturnsLeaveTheHandler : Prop :=
  (∀ (i : Instr) (s : State) (lk : Link) (d a b : Reg) (next : Bool),
    i = (if next then .tretNext lk d a b else .tretRetry lk d a b) → WarpReady s i → Listed s → noHelpers s → atLevelOne s →
    s.reads (if s.ext.c3 = 0#7 then [a] else [a, s.ext.c3]) →
    (∀ u ∈ s.active, ∀ k < resultsAsked s, b.toNat + k < 128 ∧ s.here.srcOk u (nth b k) = true) →
    dstNamed d = true → (d = 108#7 → b = 0#7) → (d ≠ 108#7 → ∀ u ∈ s.active, s.here.blockOk u d (resultsAsked s) = true) →
    MayReturn s a → (∀ u ∈ s.active, atRest s u) → RowsCounted s.here → rowsToSpare s.here s.active →
    ∃ t, exec i s = .next t ∧ t.completed ∧ s.onlyHere t ∧ rowsOnly s.here (t.core s.cur.core) ∧
      (∀ u, u ∉ s.cur.run → (t.core s.cur.core).th u = s.thread u) ∧
      (∀ u ∈ s.cur.run, u ∉ s.active → (t.core s.cur.core).th u = (s.thread u).issued false) ∧
      (∀ u, AMap.has s.here.threads u = true → u ∉ s.active → ∀ r, regWord (t.core s.cur.core) u r = regWord s.here u r) ∧
      (∀ e, (s.here.entry e).state ≠ 0 → (∀ u ∈ s.active, entryNamed (reads s u a) ≠ e) →
        (t.core s.cur.core).entry e = s.here.entry e ∧ ∀ r, entryWord (t.core s.cur.core) e r = entryWord s.here e r) ∧
      ∀ u ∈ s.active,
        let e := entryNamed (reads s u a)
        let x := s.here.entry e
        ((t.core s.cur.core).entry e).state = 0 ∧
        (∃ busy, s.here.clock + 8 ≤ busy ∧ busy ≤ doneAt s.here (t.core s.cur.core) 8 ∧
        rowsMoved { (s.thread u) with
          map := ((t.core s.cur.core).th u).map, hold := .run, busy := busy,
          pred := if s.ext.c3 = 0#7 then x.pred else (reads s u s.ext.c3).setWidth 8,
          flags := x.flags, setA := x.setA, setB := x.setB, fstat := x.fstat,
          gen := x.genG, yc := x.yc, dl := x.dl, pc := x.pc + BitVec.ofNat 32 (if next then 4 * groupWords s u else 0), y0 := [], y1 := [], y2 := [], y3 := [],
          wait := 0#12, inHandler := false, pl := false, intrap := false, trapEntry := none } ((t.core s.cur.core).th u)) ∧
        (∀ k < resultsAsked s, next = true → d ≠ 108#7 → (entryWord s.here e (nth d k)).isSome = true →
          regWord (t.core s.cur.core) u (nth d k) = some (reads s u (nth b k))) ∧
        ∀ r, (∀ k < resultsAsked s, next = true → d ≠ 108#7 → r ≠ nth d k) → regWord (t.core s.cur.core) u r = entryWord s.here e r) ∧
  (∀ (i : Instr) (s : State) (lk : Link) (d a b : Reg) (next : Bool),
    i = (if next then .tretNext lk d a b else .tretRetry lk d a b) → WarpReady s i → Listed s → noHelpers s → atLevelOne s →
    s.reads (if s.ext.c3 = 0#7 then [a] else [a, s.ext.c3]) →
    (∀ u ∈ s.active, ∀ k < resultsAsked s, b.toNat + k < 128 ∧ s.here.srcOk u (nth b k) = true) →
    dstNamed d = true → (d = 108#7 → b = 0#7) → (d ≠ 108#7 → ∀ u ∈ s.active, s.here.blockOk u d (resultsAsked s) = true) →
    MayReturn s a → (∀ u ∈ s.active, ¬ atRest s u) →
    ∃ t, exec i s = .next t ∧ t.completed ∧ Moved s t s.here (fun u y => { y with
      hold := .tret (if next then 4 * groupWords s u else 0) d
        (if next = true ∧ d ≠ 108#7 then (List.range (resultsAsked s)).map (fun k => reads s u (nth b k)) else [])
        (if s.ext.c3 = 0#7 then none else some ((reads s u s.ext.c3).setWidth 8)) })) ∧
  (∀ (s : State) (lk : Link) (d a b : Reg), WarpReady s (.tretEnd lk d a b) → Listed s → noHelpers s → atLevelOne s →
    s.reads (if s.ext.c3 = 0#7 then [a] else [a, s.ext.c3]) →
    (∀ u ∈ s.active, ∀ k < resultsAsked s, b.toNat + k < 128 ∧ s.here.srcOk u (nth b k) = true) →
    dstNamed d = true → (d = 108#7 → b = 0#7) → (d ≠ 108#7 → ∀ u ∈ s.active, s.here.blockOk u d (resultsAsked s) = true) →
    MayReturn s a → (∀ u ∈ s.active, atRest s u) → RowsCounted s.here → (AMap.keys s.here.groups).Nodup →
    ∃ t, exec (.tretEnd lk d a b) s = .next t ∧ t.completed ∧ s.sameVfs t ∧ (∀ k, k ≠ s.cur.core → t.core k = s.core k) ∧
      { t with cores := s.cores, cur := s.cur, vfs := s.vfs, clusters := s.clusters } = s ∧
      (∀ u ∈ s.active, AMap.has (t.core s.cur.core).threads u = false ∧ ((t.core s.cur.core).entry (entryNamed (reads s u a))).state = 0) ∧
      (∀ u, u ∉ s.active → AMap.has (t.core s.cur.core).threads u = AMap.has s.here.threads u) ∧
      ∀ g u, isMember (t.core s.cur.core) g u = (isMember s.here g u && !(s.active.contains u))) ∧
  (∀ (i : Instr) (s : State) (lk : Link) (d a b : Reg), i = .tretRetry lk d a b ∨ i = .tretNext lk d a b ∨ i = .tretEnd lk d a b →
    WarpReady s i →
    (¬ atLevelOne s → Traps (exec i s) .illegalInstruction) ∧
    ((∃ u ∈ s.active, (s.thread u).intrap = false) → Traps (exec i s) .illegalInstruction) ∧
    (atLevelOne s → (d = 108#7 → b = 0#7) → (∀ u ∈ s.active, (s.thread u).intrap = true) →
      (∃ u ∈ s.active, reads s u a ≠ (s.thread u).trapRec.r3) → Traps (exec i s) .illegalOperand)) ∧
  (∀ (i : Instr) (s : State) (lk : Link) (f : FrontEnd) (d a b : Reg), i = .tretRetry lk d a b ∨ i = .tretNext lk d a b ∨ i = .tretEnd lk d a b →
    FrontReady s i f → Traps (exec i s) .illegalInstruction)

/-- WDOG answers DL × 1,024 − YC, its own unit counted, in front-end code 0xFFFF_FFFF; WDOG.set first sets DL. PERF answers a
counter, less events of the last cycles that it may miss (R381, R384).
Where the spec leaves it open the model's choice stands (log 22, 53). -/
def Obligations.DeadlinesAndCountersAreRead : Prop :=
  (∀ (s : State) (lk : Link) (d : Reg), WarpReady s (.wdog lk d) → s.writes d 4 →
    ∃ t, exec (.wdog lk d) s = .next t ∧ t.completed ∧ Plain s t d (fun u => unitsOf ((s.thread u).issued true)) (fun _ y => y)) ∧
  (∀ (s : State) (lk : Link) (d : Reg) (f : FrontEnd), FrontReady s (.wdog lk d) f → feDstOk d = true → f.noLater d (f.last + 4) →
    ∃ t f', exec (.wdog lk d) s = .next t ∧ t.completed ∧ FrontEffect s t f' ∧ f.resulted f' d 0xFFFFFFFF#64) ∧
  (∀ (s : State) (lk : Link) (d a : Reg), WarpReady s (.wdogSet lk d a) → s.writes d 4 → s.reads [a] →
    (atLevelOne s → (∀ u ∈ s.active, 1 ≤ (reads s u a).toNat ∧ (reads s u a).toNat ≤ 255) →
      ∃ t, exec (.wdogSet lk d a) s = .next t ∧ t.completed ∧
        Plain s t d (fun u => unitsOf { ((s.thread u).issued true) with dl := (reads s u a).toNat }) (fun u y => { y with dl := (reads s u a).toNat })) ∧
    (atLevelOne s → (∃ u ∈ s.active, (reads s u a).toNat = 0 ∨ 256 ≤ (reads s u a).toNat) → Traps (exec (.wdogSet lk d a) s) .illegalOperand) ∧
    (¬ atLevelOne s → Traps (exec (.wdogSet lk d a) s) .illegalInstruction)) ∧
  (∀ (s : State) (lk : Link) (d a : Reg), WarpReady s (.perf lk d a) → WritesBlock s d 2 4 → s.reads [a] → s.active ≠ [] →
    let n := leadReads s a
    (n < 8 → ∃ (t : State) (v : DWord), exec (.perf lk d a) s = .next t ∧ t.completed ∧
      Blocks s t d 2 (fun _ k => BitVec.ofNat 32 (v.toNat / 2 ^ (32 * k))) (fun y => { y with busy := s.here.clock + 80 }) ∧
      counted s t n v) ∧
    (8 ≤ n → Traps (exec (.perf lk d a) s) .illegalOperand)) ∧
  (∀ (s : State) (lk : Link) (d a : Reg) (f : FrontEnd), FrontReady s (.perf lk d a) f → feDstOk d = true → feSrcOk a = true →
    f.noLater d (f.last + 84) → (f.read s.cur.draw a).toNat < 8 →
    ∃ t f' v, exec (.perf lk d a) s = .next t ∧ t.completed ∧ FrontEffect s t f' ∧ f.resulted { f' with last := f.last } d v ∧
      f'.last = f.last + 79 ∧ counted s t (f.read s.cur.draw a).toNat v)

/-- HALTCTX takes the context of a VF up the ladder at once, or only asks, and answers its state and rung 40 cycles later; the words of
CKPT start, ask for, abort and restore the checkpoint of the partition, hold their run, and answer CKPTCTL as it stands 40 cycles
after their issue. Outside the system VF they raise
ILLEGAL_INSTRUCTION, on a bad selector ILLEGAL_OPERAND (R365, R370, R374, R382, R383).
Where the spec leaves it open the model's choice stands (log 58, 88, 89). -/
def Obligations.ContextsAndCheckpointsAreSteered : Prop :=
  (∀ (s : State) (lk : Link) (d a : Reg), WarpReady s (.haltctx lk d a) → s.writes d 4 → noHelpers s → s.reads [a] → s.active ≠ [] →
    let x := leadReads s a
    (ofSystem s → GoodContext s x → ∃ t, exec (.haltctx lk d a) s = .next t ∧ t.completed ∧
      stands t (x % 64) = haltedTo s (x % 64) (x / 256) ∧
      OneValue s t d (BitVec.ofNat 32 ((t.vf (x % 64)).ctx * 2 ^ 30 + (t.vf (x % 64)).rung * 2 ^ 28)) 40 ∧
      (haltedTo s (x % 64) (x / 256) = stands s (x % 64) → Plain s t d
        (fun _ => BitVec.ofNat 32 ((s.vf (x % 64)).ctx * 2 ^ 30 + (s.vf (x % 64)).rung * 2 ^ 28)) (fun _ y => { y with busy := s.here.clock + 40 }))) ∧
    (ofSystem s → ¬ GoodContext s x → Traps (exec (.haltctx lk d a) s) .illegalOperand) ∧
    (¬ ofSystem s → Traps (exec (.haltctx lk d a) s) .illegalInstruction)) ∧
  (∀ (s : State) (lk : Link) (d : Reg) (p : Nat) (x : Part), WarpReady s (.ckptQuery lk d) → Listed s → s.writes d 4 → noHelpers s → ofSystem s →
    s.active ≠ [] → feUid ∉ s.active → s.partOfVf (myVf s) = some p → AMap.look s.parts p = some x →
    ∃ t, exec (.ckptQuery lk d) s = .next t ∧ t.completed ∧
      Moved s t s.here (queueing s (.later (s.here.clock + 40) (.ckpt d false)))) ∧
  (∀ (s : State) (lk : Link) (d : Reg) (p : Nat) (x : Part), WarpReady s (.ckptAbort lk d) → Listed s → s.writes d 4 → noHelpers s → ofSystem s →
    s.active ≠ [] → feUid ∉ s.active → s.partOfVf (myVf s) = some p → AMap.look s.parts p = some x → x.sysvf = myVf s →
    ∃ t y, exec (.ckptAbort lk d) s = .next t ∧ t.completed ∧ AMap.look t.parts p = some y ∧ ckptHeld s t d false ∧
      (x.ckState = 1 ∨ x.ckState = 2 → y.ckState = 4 ∧ y.ckErr = 3 ∧ y.pieces = []) ∧
      (x.ckState ≠ 1 → x.ckState ≠ 2 → y = x)) ∧
  (∀ (s : State) (lk : Link) (d : Reg) (p : Nat) (x : Part), WarpReady s (.ckptCut lk d) → Listed s → s.writes d 4 → noHelpers s → ofSystem s →
    s.active ≠ [] → feUid ∉ s.active → s.partOfVf (myVf s) = some p → AMap.look s.parts p = some x → x.sysvf = myVf s →
    ∃ t y, exec (.ckptCut lk d) s = .next t ∧ t.completed ∧ AMap.look t.parts p = some y ∧ ckptHeld s t d false ∧
      (x.ckState = 0 ∨ x.ckState = 3 ∨ x.ckState = 4 → y.ckState = 1 ∧ y.ckErr = 0 ∧
        ∀ v, stands t v = if coveredBy x v then haltedTo s v 0 else stands s v) ∧
      (x.ckState = 1 ∨ x.ckState = 2 ∨ x.ckState = 5 → y = x)) ∧
  (∀ (s : State) (lk : Link) (d : Reg) (p : Nat) (x : Part), WarpReady s (.ckptRestore lk d) → Listed s → s.writes d 4 → noHelpers s → ofSystem s →
    s.active ≠ [] → feUid ∉ s.active → s.partOfVf (myVf s) = some p → AMap.look s.parts p = some x → x.sysvf = myVf s →
    ∃ t y mid, exec (.ckptRestore lk d) s = .next t ∧ t.completed ∧ AMap.look t.parts p = some y ∧ ckptHeld s t d mid ∧
      (x.ckState = 0 ∨ x.ckState = 3 ∨ x.ckState = 4 →
        ((y.ckState = 3 ∧ y.ckErr = 0) ∨ (y.ckState = 4 ∧ y.ckErr = 4))) ∧
      (x.ckState = 1 ∨ x.ckState = 2 ∨ x.ckState = 5 → y = x ∧ mid = false)) ∧
  (∀ (s : State) (k u done p : Nat) (d : Reg) (mid : Bool) (x : Part), u ≠ feUid → AMap.has (s.core k).threads u = true →
    (AMap.keys (s.core k).threads).Nodup → feUid ∉ AMap.keys (s.core k).threads → ((s.core k).th u).hold = .later done (.ckpt d mid) →
    done ≤ s.now → s.tearing k = false → (∀ f, (s.core k).fe = some f → ∀ m job, f.hold ≠ .later m job) →
    (∀ w ≠ u, ∀ m job, ((s.core k).th w).hold ≠ .later m job) →
    s.partOfVf (s.vfOf k) = some p → AMap.look s.parts p = some x →
    let run (w : Nat) : Prop := AMap.has (s.core k).threads w = true ∧ (w = u ∨ ((s.core k).th w).hold = .follow u)
    (∀ w, run w → (s.core k).noLater [w] d 4) →
    let t := s.runLate k
    { t with cores := s.cores } = s ∧ (∀ j ≠ k, t.core j = s.core j) ∧ (s.core k).onlyThreads (t.core k) ∧
      (∀ w, run w → Thread.onlyNotes { ((s.core k).th w) with hold := .run } ((t.core k).th w) ∧
        ∀ q, (s.core k).cell w d = some q → (t.core k).rowWord q.1 q.2 = ckptctlOf (if mid then { x with ckState := 5, ckErr := 0 } else x)) ∧
      (∀ w, ¬ run w → (t.core k).th w = (s.core k).th w) ∧
      ∀ r w, (∀ v, run v → (s.core k).cell v d ≠ some (r, w)) → (t.core k).rowWord r w = (s.core k).rowWord r w) ∧
  (∀ (i : Instr) (s : State) (lk : Link) (d : Reg), i = .ckptCut lk d ∨ i = .ckptQuery lk d ∨ i = .ckptAbort lk d ∨ i = .ckptRestore lk d →
    WarpReady s i → ¬ ofSystem s → Traps (exec i s) .illegalInstruction)

/-- TRANSLATION_WALK makes a line ready under its translation, from the core's cache or from the page tables through the
cache, or attaches it to its page's one entry; where the operand log or the table is full the line waits (R176, R178).
LOAD_DATA_ARRIVAL writes what the L1 and the home slice hold to each lane's destination and installs the sectors, a poisoned
sector giving 0 and a record; STORE_REGISTRATION changes just the bytes that its lanes name and makes the core their words'
owner; STORE_GRANT marks the words owned where they are present (R181, R184). ATOMIC_PERFORMANCE applies the lanes in
ascending order and ATOMIC_RESULT_ARRIVAL returns what they found (R205, R208, R209, R219, R222).
Where the spec leaves it open the model's choice stands (log 16, 17, 18, 32). -/
def Obligations.RequestsAreServed : Prop :=
  (∀ (s : State) (k n : Nat) (r : Req) (e : TlbEntry), requestOf s k n = some r → walking s r →
    (s.core k).tlb.find? (fun e => e.vf == r.key.vf && decide (e.va ≤ r.va) && decide (r.va < e.va + e.size) && (e.w || !(asksWrite r))) = some e →
    exec (.translationWalk k n) s = .next { s with cores := AMap.put s.cores k { (s.core k) with
      reqs := reqsWith (s.core k) n (fun _ => { r with stage := .ready, pas := [s.redirect (e.pa + (r.va - e.va))] }) } }) ∧
  (∀ (s : State) (k n : Nat) (r : Req) (l : Leaf), requestOf s k n = some r → walking s r → cacheMisses s k r →
    s.leafOf r.key.vf r.va = some l → l.w = true ∨ asksWrite r = false →
    ∃ t, exec (.translationWalk k n) s = .next t ∧ (∀ j, j ≠ k → t.core j = s.core j) ∧ { t with cores := s.cores } = s ∧
      { (t.core k) with tlb := (s.core k).tlb } = { (s.core k) with
        reqs := reqsWith (s.core k) n (fun _ => { r with stage := .ready, pas := [s.redirect (l.pa + r.va % l.size)] }) } ∧
      ⟨r.key.vf, r.va / l.size * l.size, l.pa, l.size, l.w, l.tier⟩ ∈ (t.core k).tlb) ∧
  (∀ (s : State) (k n : Nat) (r : Req) (p : Bool) (x : Nat × XEntry), requestOf s k n = some r → walking s r → cacheMisses s k r →
    walkFaults s r p → logHasRoom (s.core k) r → pageEntry s k r = some x →
    exec (.translationWalk k n) s = .next { s with
      cores := AMap.put s.cores k { (s.core k) with reqs := reqsWith (s.core k) n (fun _ => { r with stage := .faulted x.1 }) }
      clusters := AMap.put s.clusters (clusterOf k) { (s.cluster (clusterOf k)) with
        xtab := AMap.put (s.cluster (clusterOf k)).xtab x.1
          { x.2 with write := x.2.write || asksWrite r, protect := x.2.protect || p } } }) ∧
  (∀ (s : State) (k n : Nat) (r : Req) (p : Bool) (e : Nat), requestOf s k n = some r → walking s r → cacheMisses s k r →
    walkFaults s r p → logHasRoom (s.core k) r → pageEntry s k r = none → e < 256 →
    AMap.has (s.cluster (clusterOf k)).xtab e = false → (∀ m < e, AMap.has (s.cluster (clusterOf k)).xtab m = true) →
    (s.cluster (clusterOf k)).handler.isSome = true → s.funcBit r.key.vf 0 = false →
    let g := AMap.lookD (s.cluster (clusterOf k)).xgen e 0#8 + 1#8
    ∃ t, exec (.translationWalk k n) s = .next t ∧ s.sameVfs t ∧
      { t with vfs := s.vfs } = { s with
        cores := AMap.put s.cores k { (s.core k) with reqs := reqsWith (s.core k) n (fun _ => { r with stage := .faulted e }) }
        clusters := AMap.put s.clusters (clusterOf k) { (s.cluster (clusterOf k)) with
          xtab := AMap.put (s.cluster (clusterOf k)).xtab e ⟨g, r.key.vf, r.va / 65536, asksWrite r, p⟩
          xgen := AMap.put (s.cluster (clusterOf k)).xgen e g
          xpend := (s.cluster (clusterOf k)).xpend ++ [e] } }) ∧
  (∀ (s : State) (k n : Nat) (r : Req) (p : Bool), requestOf s k n = some r → walking s r → cacheMisses s k r → walkFaults s r p →
    ¬ logHasRoom (s.core k) r ∨ (pageEntry s k r = none ∧ ∀ e < 256, AMap.has (s.cluster (clusterOf k)).xtab e = true) →
    exec (.translationWalk k n) s = .next { s with cores := AMap.put s.cores k { (s.core k) with
      reqs := reqsWith (s.core k) n (fun _ => { r with stage := .stuck }) } }) ∧
  (∀ (s : State) (k n : Nat) (r : Req) (sz : BitVec 3) (pa : Nat), requestOf s k n = some r → r.kind = .load sz → r.stage = .ready →
    sz.toNat ≤ 6 → r.width = widthOf sz → PlainLine s r pa → inTurn (s.core k) r → Returns (s.core k) (laneIds r) →
    groupsOpen (s.core k) →
    (∀ l ∈ r.lanes, ∀ j < r.width, s.physPoison (pa + l.addr % 64 + j) = false) →
    ∃ t, exec (.loadDataArrival k n) s = .next t ∧ onlyCore s t k ∧ (∀ a, t.physByte a = s.physByte a) ∧
      (∀ a, t.physPoison a = s.physPoison a) ∧
      Landed { (s.core k) with reqs := (s.core k).reqs.filter (fun x => x.id ≠ n), l1 := (t.core k).l1 } (t.core k) (laneIds r)
        (byLane r (fun l => loaded sz (seenByte s k r pa) (l.addr % 64))) ∧
      (t.core k).l1.filter (fun x => x.key ≠ r.key) = (s.core k).l1.filter (fun x => x.key ≠ r.key) ∧
      (r.epoch ≠ (s.core k).epoch → (t.core k).l1 = (s.core k).l1) ∧
      (r.epoch = (s.core k).epoch → ∀ l ∈ r.lanes, ∀ j < r.width, ∃ x, (t.core k).l1.find? (fun x => x.key == r.key) = some x ∧
        x.valid.getLsbD ((l.addr % 64 + j) / 4) = true ∧ getAt x.data (l.addr % 64 + j) 0#8 = seenByte s k r pa (l.addr % 64 + j))) ∧
  (∀ (s : State) (k n : Nat) (r : Req) (sz : BitVec 3) (pa : Nat), requestOf s k n = some r → r.kind = .load sz → r.stage = .ready →
    PlainLine s r pa → inTurn (s.core k) r → Returns (s.core k) (laneIds r) → groupsOpen (s.core k) → r.key.t = 0 →
    (AMap.look (s.vf r.key.vf).pools 0 = none) → (s.core k).faultq.length + r.lanes.length ≤ 128 →
    (∀ l ∈ r.lanes, s.physPoison (pa + l.addr % 64) = true ∧ ¬ sectorHeld s k r (l.addr % 64 / 16)) →
    ∃ t, exec (.loadDataArrival k n) s = .next t ∧ s.sameVfs t ∧ onlyCore s { t with vfs := s.vfs } k ∧
      Landed { (s.core k) with
          reqs := (s.core k).reqs.filter (fun x => x.id ≠ n), l1 := (t.core k).l1
          faultq := (s.core k).faultq ++ r.lanes.map (fun l => faultWords r l 5) } (t.core k) (laneIds r)
        (fun _ => [0#32, 0#32, 0#32, 0#32])) ∧
  (∀ (s : State) (k n : Nat) (r : Req) (sz : BitVec 3), requestOf s k n = some r → r.kind = .load sz → r.stage = .ready → r.space ≠ 0 →
    sz.toNat ≤ 6 → r.width = widthOf sz → inTurn (s.core k) r → Returns (s.core k) (laneIds r) → groupsOpen (s.core k) →
    ∃ t, exec (.loadDataArrival k n) s = .next t ∧ onlyCore s t k ∧ t.brocade = s.brocade ∧
      Landed { (s.core k) with reqs := (s.core k).reqs.filter (fun x => x.id ≠ n) } (t.core k) (laneIds r)
        (byLane r (fun l => loaded sz (s.core r.target).scratch.read l.addr))) ∧
  (∀ (s : State) (k n : Nat) (r : Req) (pa : Nat), requestOf s k n = some r → r.kind = .store → r.stage = .ready →
    PlainLine s r pa → inTurn (s.core k) r → s.frozen pa = false → Returns (s.core k) (laneIds r) → groupsOpen (s.core k) →
    (∀ i < 64, s.physPoison (pa + i) = false) →
    ∃ t, exec (.storeRegistration k n) s = .next t ∧ { t with cores := s.cores, brocade := s.brocade } = s ∧
      (∀ a, t.physByte a = r.lanes.foldl (fun f l => written f (pa + l.addr % 64) l.data) s.physByte a) ∧
      (∀ a, t.physPoison a = s.physPoison a) ∧
      (∀ i < 16, touches r i = true → ∃ l, t.lineOf r.key = some l ∧ AMap.look l.owner i = some k) ∧
      (∀ j, j ≠ k → { (t.core j) with l1 := (s.core j).l1 } = s.core j ∧ ∀ l x, s.lineOf r.key = some l → x ∈ (t.core j).l1 → x.key = r.key →
        ∀ i < 16, touches r i = true → (i, j) ∈ l.owner → x.valid.getLsbD i = false ∧ x.owned.getLsbD i = false) ∧
      (∀ x ∈ (t.core k).l1, x.key = r.key → ∀ i < 64, touches r (i / 4) = true → x.valid.getLsbD (i / 4) = true →
        ∃ y ∈ (s.core k).l1, y.key = r.key ∧
          getAt x.data i 0#8 = r.lanes.foldl (fun f l => written f (l.addr % 64) l.data) (fun i => getAt y.data i 0#8) i) ∧
      Landed { (s.core k) with reqs := reqsWith (s.core k) n (fun _ => { r with stage := .done }), l1 := (t.core k).l1 } (t.core k)
        (laneIds r) (fun _ => [])) ∧
  (∀ (s : State) (k n : Nat) (r : Req), requestOf s k n = some r → r.kind = .store → r.stage = .ready → r.space ≠ 0 →
    inTurn (s.core k) r → Returns (s.core k) (laneIds r) → groupsOpen (s.core k) →
    ∃ t, exec (.storeRegistration k n) s = .next t ∧ { t with cores := s.cores } = s ∧
      (∀ j a, (t.core j).scratch.read a = if j = r.target then
        r.lanes.foldl (fun f l => written f l.addr l.data) (s.core j).scratch.read a else (s.core j).scratch.read a) ∧
      (∀ j, j ≠ k → { (t.core j) with scratch := (s.core j).scratch } = s.core j) ∧
      Landed { (s.core k) with reqs := (s.core k).reqs.filter (fun x => x.id ≠ n), scratch := (t.core k).scratch } (t.core k)
        (laneIds r) (fun _ => [])) ∧
  (∀ (s : State) (k n : Nat) (r : Req), requestOf s k n = some r → r.kind = .store → r.stage = .done →
    ∃ (t : State) (f : L1Line → BitVec 16), exec (.storeGrant k n) s = .next t ∧ t = { s with cores := AMap.put s.cores k { (s.core k) with
        reqs := (s.core k).reqs.filter (fun x => x.id ≠ n)
        l1 := (s.core k).l1.map (fun l => if l.key = r.key then { l with owned := f l } else l) } } ∧
      ∀ (l : L1Line) i, i < 16 → ((f l).getLsbD i = true ↔ l.owned.getLsbD i = true ∨
        (touches r i = true ∧ l.valid.getLsbD i = true ∧ ∃ h, s.lineOf r.key = some h ∧ AMap.look h.owner i = some k))) ∧
  (∀ (s : State) (k n : Nat) (r : Req) (pa : Nat) (op : AtomOp) (w ret acq : Bool), requestOf s k n = some r →
    r.kind = .atomic op w ret acq → r.stage = .ready → PlainLine s r pa → inTurn (s.core k) r → s.frozen pa = false →
    (∀ m ∈ r.after, ∀ x ∈ (s.core k).reqs, x.id = m → x.unregistered = false ∧ x.unread = false) → groupsOpen (s.core k) →
    (∀ i < 64, s.physPoison (pa + i) = false) → (op = .cas → ∀ l ∈ r.lanes, l.data2.length = r.width) →
    let after (ls : List LaneReq) : Nat → Byte := ls.foldl (fun f l => performed op r.width (pa + l.addr % 64) l f) s.physByte
    ∃ (t : State) (x : Req), exec (.atomicPerformance k n) s = .next t ∧ { t with cores := s.cores, brocade := s.brocade } = s ∧
      (∀ a, t.physByte a = after r.lanes a) ∧ (∀ a, t.physPoison a = s.physPoison a) ∧
      (∀ l i, t.lineOf r.key = some l → i < 16 → touches r i = true → AMap.look l.owner i = none) ∧
      (∀ j, j ≠ k → { (t.core j) with l1 := (s.core j).l1 } = s.core j) ∧ (∀ y ∈ (t.core k).l1, y.key = r.key → y.valid = 0#16) ∧
      { (t.core k) with l1 := (s.core k).l1 } = { (s.core k) with reqs := reqsWith (s.core k) n (fun _ => x) } ∧
      { x with lanes := r.lanes } = { r with stage := .done } ∧ x.lanes.length = r.lanes.length ∧
      ∀ (j : Nat) (l : LaneReq), r.lanes[j]? = some l → x.lanes[j]? = some { l with
        result := some ((List.range r.width).map (fun i => after (r.lanes.take j) (pa + l.addr % 64 + i))) }) ∧
  (∀ (s : State) (k n : Nat) (r : Req) (op : AtomOp) (w ret acq : Bool), requestOf s k n = some r → r.kind = .atomic op w ret acq →
    r.stage = .ready → r.space ≠ 0 → inTurn (s.core k) r →
    (∀ m ∈ r.after, ∀ x ∈ (s.core k).reqs, x.id = m → x.unregistered = false ∧ x.unread = false) → groupsOpen (s.core k) →
    (∀ l ∈ r.lanes, l.data.length = r.width ∧ (op = .cas → l.data2.length = r.width)) →
    let after (ls : List LaneReq) : Nat → Byte := ls.foldl (fun f l => performed op r.width l.addr l f) (s.core r.target).scratch.read
    ∃ (t : State) (x : Req), exec (.atomicPerformance k n) s = .next t ∧ { t with cores := s.cores } = s ∧
      (∀ j a, (t.core j).scratch.read a = if j = r.target then after r.lanes a else (s.core j).scratch.read a) ∧
      (∀ j, j ≠ k → { (t.core j) with scratch := (s.core j).scratch } = s.core j) ∧
      { (t.core k) with scratch := (s.core k).scratch } = { (s.core k) with reqs := reqsWith (s.core k) n (fun _ => x) } ∧
      { x with lanes := r.lanes } = { r with stage := .done } ∧ x.lanes.length = r.lanes.length ∧
      ∀ (j : Nat) (l : LaneReq), r.lanes[j]? = some l → x.lanes[j]? = some { l with
        result := some ((List.range r.width).map (fun i => after (r.lanes.take j) (l.addr + i))) }) ∧
  (∀ (s : State) (k n : Nat) (r : Req) (op : AtomOp) (w ret acq : Bool), requestOf s k n = some r → r.kind = .atomic op w ret acq →
    r.stage = .done → r.width = 4 ∨ r.width = 8 → Returns (s.core k) (laneIds r) → groupsOpen (s.core k) →
    (ret = true → ∀ l ∈ r.lanes, ∃ bs, l.result = some bs ∧ bs.length = r.width) →
    ∃ t, exec (.atomicResultArrival k n) s = .next t ∧ onlyCore s t k ∧ t.brocade = s.brocade ∧
      let c := (s.core k)
      Landed { (if acq = true then { c with
            l1 := c.l1.map (fun l => { l with valid := l.valid &&& l.owned }), epoch := c.epoch + 1 } else c) with
          reqs := c.reqs.filter (fun x => x.id ≠ n) } (t.core k) (laneIds r)
        (byLane r (fun l => if ret = true then (List.range (r.width / 4)).map
          (fun i => BitVec.ofNat 32 (numAt (fun i => getAt (l.result.getD []) i 0#8) (4 * i) 4)) else []))) ∧
  (∀ (s : State) (k n : Nat) (i : Instr), requestOf s k n = none →
    i = .translationWalk k n ∨ i = .loadDataArrival k n ∨ i = .storeRegistration k n ∨ i = .storeGrant k n ∨
      i = .atomicPerformance k n ∨ i = .atomicResultArrival k n → exec i s = .next s)

/-- MIGRATION_LINE_COPY moves one line with what Brocade holds of it and advances P; with the last line the leaf names the new
frame and tier and every core loses the page's translations (R190). BROCADE_SWEEP writes a stale line's dirty sectors back and
removes it, so that no byte of memory changes (R273). TINV_SLICE_APPLY makes the old generation unreachable at one slice,
takes its owners' words and, when the last slice has applied, completes the word (R278, R281). TWILL_CHASE fills the next page
of a chain and no byte changes (R335).
Where the spec leaves it open the model's choice stands (log 55, 78). -/
def Obligations.LinesMove : Prop :=
  (∀ (s : State) (d n : Nat) (m : Migration), (s.die d).mig[n]? = some m → MayMove s m → m.p < 1023 →
    ∃ t, exec (.migrationLineCopy d n) s = .next t ∧
      (t.die d).mig = (s.die d).mig.set n { m with p := m.p + 1 } ∧ (∀ e, { (t.die e) with mig := (s.die e).mig } = s.die e) ∧
      (∀ e, e ≠ d → t.die e = s.die e) ∧ bytesKept s t (inNewLine m) ∧
      (∀ i < 64, t.physByte (m.new + 64 * m.p + i) = s.physByte (m.old + 64 * m.p + i) ∧
        t.physPoison (m.new + 64 * m.p + i) = s.physPoison (m.old + 64 * m.p + i)) ∧
      (∀ k, t.core k = { (s.core k) with reqs := (s.core k).reqs.map (fun r =>
        { r with pas := r.pas.map (fun a => if a = m.old + 64 * m.p then m.new + 64 * m.p else a) }) }) ∧
      { t with mem := s.mem, poison := s.poison, brocade := s.brocade, cores := s.cores, dies := s.dies } = s) ∧
  (∀ (s : State) (d n : Nat) (m : Migration), (s.die d).mig[n]? = some m → MayMove s m → m.p = 1023 →
    (∀ l ∈ s.brocade, l.pa = some (m.leafAt / 64 * 64) → ∀ i < 8, l.poison.getLsbD (m.leafAt % 64 / 16) = false) →
    ∃ t, exec (.migrationLineCopy d n) s = .next t ∧ (t.die d).mig = (s.die d).mig.eraseIdx n ∧ (∀ e, e ≠ d → t.die e = s.die e) ∧
      (∀ a, ¬ inNewLine m a → ¬ (m.leafAt ≤ a ∧ a < m.leafAt + 8) → t.physByte a = s.physByte a) ∧
      (∀ i < 64, t.physByte (m.new + 64 * m.p + i) = s.physByte (m.old + 64 * m.p + i)) ∧
      (let e := numAt s.physByte m.leafAt 8
       let e' := numAt t.physByte m.leafAt 8
       e' % 2 ^ 8 = e % 2 ^ 8 ∧ (m.new < 2 ^ 52 → e' / 2 ^ 8 % 2 ^ 44 = m.new / 2 ^ 8) ∧ e' / 2 ^ 52 % 2 ^ 7 = e / 2 ^ 52 % 2 ^ 7 ∧
       (m.tier < 4 → e' / 2 ^ 59 % 4 = m.tier) ∧ e' / 2 ^ 61 = e / 2 ^ 61) ∧
      (∀ k, ∀ x ∈ (t.core k).tlb, ¬ (x.vf = m.vf ∧ x.va ≤ m.page * 65536 ∧ m.page * 65536 < x.va + x.size)) ∧
      { t with mem := s.mem, poison := s.poison, brocade := s.brocade, cores := s.cores, dies := s.dies } = s) ∧
  (∀ (s : State) (n : Nat) (l : BLine), s.brocade[n]? = some l → Coherent s → l.key.t ≠ 0 →
    l.gen ≠ s.genAt l.key ∨ (s.tensor l.key.vf l.key.t).state ≠ 1 →
    ∃ t, exec (.brocadeSweep n) s = .next t ∧ t.brocade = s.brocade.eraseIdx n ∧ bytesKept s t (fun _ => False) ∧ ownersLose t l ∧
      onlyL1s s t ∧ { t with mem := s.mem, poison := s.poison, brocade := s.brocade, cores := s.cores } = s) ∧
  (∀ (s : State) (n : Nat), (∀ l, s.brocade[n]? = some l → l.key.t = 0 ∨
      (l.gen = s.genAt l.key ∧ (s.tensor l.key.vf l.key.t).state = 1)) → exec (.brocadeSweep n) s = .next s) ∧
  (∀ (s : State) (k lead n slice : Nat) (discard : Bool), (s.core k).holdOf lead = .slices (.inv discard) n false [] →
    slice < s.slices → mayStart s k lead n (.inv discard) → Coherent s → n ≠ 0 →
    let v := s.vfOf k
    let e := s.tensor v n
    e.state = 1 → e.late = [] → e.gen < 4096 →
    ∃ t, exec (.tinvSliceApply k lead slice) s = .next t ∧ Applied s t v n slice discard ∧
      t.tensor v n = { e with gen := (e.gen + 1) % 4096, late := (t.tensor v n).late } ∧
      (∀ q : Key, q.vf = v → q.t = n → t.lineOf q = if s.home q = slice then none else s.lineOf q) ∧
      (t.core k).holdOf lead = .slices (.inv discard) n true ((List.range s.slices).erase slice) ∧
      (∀ u, u ≠ lead → (t.core k).th u = (s.core k).th u) ∧ (∀ w q, ¬ (w = v ∧ q = n) → t.tensor w q = s.tensor w q) ∧
      { t with mem := s.mem, poison := s.poison, brocade := s.brocade, cores := s.cores, vfs := s.vfs } = s) ∧
  (∀ (s : State) (k lead n slice : Nat) (job : SliceJob), (s.core k).holdOf lead = .slices job n false [] →
    slice < s.slices → mayStart s k lead n job → (∀ x, job ≠ .inv x) → Coherent s →
    ∃ t, exec (.tinvSliceApply k lead slice) s = .next t ∧ Applied s t (s.vfOf k) n slice false ∧
      (t.core k).holdOf lead = .slices job n true ((List.range s.slices).erase slice) ∧ t.vfs = s.vfs ∧
      { t with mem := s.mem, poison := s.poison, brocade := s.brocade, cores := s.cores } = s) ∧
  (∀ (s : State) (k lead n slice : Nat) (discard : Bool), (s.core k).holdOf lead = .slices (.inv discard) n false [] →
    slice < s.slices → mayStart s k lead n (.inv discard) → (s.tensor (s.vfOf k) n).state ≠ 1 →
    ∃ t, exec (.tinvSliceApply k lead slice) s = .next t ∧ (∀ u, waitWith (s.core k) lead u → (t.core k).holdOf u = .run) ∧
      (∀ u, onlyHold ((s.core k).th u) ((t.core k).th u)) ∧ { t with cores := s.cores } = s) ∧
  (∀ (s : State) (k lead n slice : Nat) (job : SliceJob) (left : List Nat), (s.core k).holdOf lead = .slices job n true left →
    slice < s.slices → slice ∈ left → left.Nodup → left ≠ [slice] → Coherent s →
    ∃ t, exec (.tinvSliceApply k lead slice) s = .next t ∧ Applied s t (s.vfOf k) n slice (job == .inv true) ∧
      (t.core k).holdOf lead = .slices job n true (left.erase slice) ∧
      { t with mem := s.mem, poison := s.poison, brocade := s.brocade, cores := s.cores, vfs := s.vfs } = s) ∧
  (∀ (s : State) (k lead n slice : Nat) (job : SliceJob), (s.core k).holdOf lead = .slices job n true [slice] →
    slice < s.slices → Coherent s → n ≠ 0 → (job = .drop ∨ ∃ x, job = .inv x) →
    ∃ t, exec (.tinvSliceApply k lead slice) s = .next t ∧ Applied s t (s.vfOf k) n slice (job == .inv true) ∧
      (∀ u, waitWith (s.core k) lead u → (t.core k).holdOf u = .run) ∧ (∀ u, onlyHold ((s.core k).th u) ((t.core k).th u)) ∧
      (∀ x ∈ (t.core k).l1, ¬ (x.key.vf = s.vfOf k ∧ x.key.t = n)) ∧
      (t.tensor (s.vfOf k) n).state = (if job = .drop then 0 else (s.tensor (s.vfOf k) n).state) ∧
      (t.tensor (s.vfOf k) n).gen = (s.tensor (s.vfOf k) n).gen ∧
      (∀ w q, ¬ (w = s.vfOf k ∧ q = n) → t.tensor w q = s.tensor w q) ∧
      { t with mem := s.mem, poison := s.poison, brocade := s.brocade, cores := s.cores, vfs := s.vfs } = s) ∧
  (∀ (s : State) (d : Nat) (c : Chase) (cs : List Chase), (s.die d).chases = c :: cs →
    c.left = 0 ∨ nextIn s c = 0xFFFFFFFF#32 ∨ s.pool c.vf c.t = none →
    exec (.twillChase d) s = .next { s with dies := AMap.put s.dies d { (s.die d) with chases := cs } }) ∧
  (∀ (s : State) (d : Nat) (c : Chase) (cs : List Chase) (p : Pool), (s.die d).chases = c :: cs → c.left ≠ 0 →
    nextIn s c ≠ 0xFFFFFFFF#32 → s.pool c.vf c.t = some p → (nextIn s c).toNat < p.npages → Coherent s → c.t ≠ 0 →
    (s.tensor c.vf c.t).format = 2 → (s.tensor c.vf c.t).vbase % 64 = 0 →
    let at_ (i : Nat) : Nat := (s.tensor c.vf c.t).vbase + (nextIn s c).toNat * (64 + 8192 * p.pay) + i
    (∀ i < 64 + 8192 * p.pay, ∀ pa, s.walk c.vf (at_ i / 64 * 64) false = .ok pa → s.physPoison (pa + at_ i % 64) = false) →
    (∀ l ∈ s.brocade, l.key.vf = c.vf → l.key.t = c.t → l.key.trow = (nextIn s c).toNat → l.poison = 0#4) →
    (s.header1 c.vf c.t (nextIn s c).toNat).poison = false → (s.header1 c.vf c.t (nextIn s c).toNat).lost = false →
    ∃ t, exec (.twillChase d) s = .next t ∧
      (t.die d) = { (s.die d) with chases := { c with page := (nextIn s c).toNat, left := c.left - 1 } :: cs } ∧
      (∀ e, e ≠ d → t.die e = s.die e) ∧ bytesKept s t (fun _ => False) ∧ onlyL1s s t ∧
      (∀ n < 1 + 128 * p.pay, ∀ pa, s.walk c.vf (at_ (64 * n)) false = .ok pa →
        (t.lineOf ⟨c.vf, c.t, (nextIn s c).toNat, n / 1024, n % 1024⟩).isSome = true) ∧
      { t with mem := s.mem, poison := s.poison, brocade := s.brocade, cores := s.cores, dies := s.dies } = s) ∧
  (∀ (s : State) (d : Nat) (c : Chase) (cs : List Chase), (s.die d).chases = c :: cs → c.left ≠ 0 → nextIn s c ≠ 0xFFFFFFFF#32 →
    (s.header1 c.vf c.t (nextIn s c).toNat).poison = true →
    ∃ t, exec (.twillChase d) s = .next t ∧ (t.die d).chases = cs)

/-- Each cycle of a SLEEP, an OFFER or a wait for a window peer or a row is counted in YC as the next cycle begins; SLEEP_WAKE and
OFFER_TIMEOUT let a thread go on once all have passed, the second with 0 in vD; WATCHDOG ends the
launch where one more would pass the deadline (R68, R69, R88, R302). BARRIER_RECHECK checks a barrier once more (R214). An XQSEND
that waits enqueues its message and an XQRECV takes the oldest of its VF, its SEQNO checked (R342 to R345). A word that is no
instruction, or a packet outside the segment, raises its trap (R54, R55).
Where the spec leaves it open the model's choice stands (log 86). -/
def Obligations.WaitingThreadsGoOn : Prop :=
  (∀ (s : State) (k u : Nat), ((s.core k).th u).hold = .sleep 0 →
    ∃ t, exec (.sleepWake k u) s = .next t ∧ t.cur = s.cur ∧
      oneThread s t k u { ((s.core k).th u) with hold := .run } ∧ (t.core k).rows = (s.core k).rows) ∧
  (∀ (s : State) (k u : Nat) (d : Reg), ((s.core k).th u).hold = .parked 0 d → placeOwned (s.core k) u d → (s.core k).noLater [u] d 4 →
    ∃ t, exec (.offerTimeout k u) s = .next t ∧
      oneThread s t k u { ((s.core k).th u) with hold := .run } ∧ wrote (s.core k) (t.core k) u d [0#32]) ∧
  (∀ (s : State) (k u : Nat) (n : Nat) (d : Reg), ((s.core k).th u).hold = .sleep (n + 1) ∨ ((s.core k).th u).hold = .parked (n + 1) d →
    exec (.sleepWake k u) s = .next s ∧ exec (.offerTimeout k u) s = .next s) ∧
  (∀ s : State, (∀ p ∈ s.cores, p.2.drops = [] ∧ (∀ f, p.2.fe = some f → ∀ n job, f.hold ≠ .later n job) ∧
      ∀ q ∈ p.2.threads, (∀ e v, q.2.hold ≠ .rest e v) ∧ (∀ m d v r, q.2.hold ≠ .tret m d v r) ∧ ∀ n job, q.2.hold ≠ .later n job) →
    ∃ t, doMove s .cycle = .next t ∧ t.now = s.now + 1 ∧
      ∀ k, AMap.has s.cores k = true → (t.core k).clock = s.now + 1 ∧ (t.core k).rows = (s.core k).rows ∧
        ∀ u, AMap.has (s.core k).threads u = true → (t.core k).th u = afterCycle ((s.core k).th u)) ∧
  (∀ (s : State) (k u l : Nat) (x : Launch), spends ((s.core k).th u) = true →
    1024 * ((s.core k).th u).dl < ((s.core k).th u).yc + 1 → (s.core k).launch = some l → s.launch l = some x → x.tearing = false →
    ∃ t, exec (.watchdog k u) s = .next t ∧ t.trappedBy .watchdog ∧
      let y := (s.core k).th u
      let pc := if y.hold = .run then y.pc else y.pc - 4#32
      LaunchEnds s t l x ⟨endRecord 16 y.lane 1 (pc.toNat / 4 % 3) false y.intrap false, pc, 0#32, y.tid⟩) ∧
  (∀ (s : State) (k u : Nat), spends ((s.core k).th u) = false ∨ ((s.core k).th u).yc + 1 ≤ 1024 * ((s.core k).th u).dl →
    exec (.watchdog k u) s = .next s) ∧
  (∀ (s : State) (k b : Nat), b ∈ (s.core k).recheck → (s.core k).recheck.Nodup →
    ∃ t, exec (.barrierRecheck k b) s = .next t ∧ (∀ j, j ≠ k → t.core j = s.core j) ∧ { t with cores := s.cores } = s ∧
      (t.core k).bar b = checked ((s.core k).bar b) ∧ onlyBars (s.core k) (t.core k) (fun m => m = b) ∧
      (b ∈ (t.core k).recheck ↔ (t.core k).bar b ≠ (s.core k).bar b ∧ ((t.core k).bar b).left = 0) ∧
      (∀ m, m ≠ b → (m ∈ (t.core k).recheck ↔ m ∈ (s.core k).recheck)) ∧
      { (t.core k) with scratch := (s.core k).scratch, recheck := (s.core k).recheck } = s.core k) ∧
  (∀ (s : State) (k lead : Nat) (ctrl : Word) (ws : List Word) (back : Option Word), (s.core k).holdOf lead = .xqsend ctrl ws back → Queueing s k lead →
    (∀ u, waitWith (s.core k) lead u → ∀ r ∈ (s.core k).reqs, r.ofThread u = true → r.unregistered = false ∧ r.unread = false) →
    let dst := ctrl.toNat % 4
    let ch := ctrl.toNat / 4 % 2
    let q := queueOf s dst (k / 128) ch
    q.length < 64 → (q.filter (fun m => m.vf == s.vfOf k)).length < 16 →
    ∃ t, exec (.messageEnqueued k lead) s = .next t ∧ { t with cores := s.cores, dies := s.dies, vfs := s.vfs } = s ∧ s.sameVfs t ∧
      (∀ d b c, b < 4 → c < 2 → k / 128 < 4 → queueOf t d b c =
        if d = dst ∧ b = k / 128 ∧ c = ch then q ++ [⟨s.vfOf k, BitVec.ofNat 16 (ctrl.toNat / 2 ^ 16), ws⟩] else queueOf s d b c) ∧
      (∀ d, { (t.die d) with xq := (s.die d).xq } = s.die d) ∧ (∀ j, j ≠ k → t.core j = s.core j) ∧
      { (t.core k) with threads := (s.core k).threads } = s.core k ∧
      ∀ u, (t.core k).th u = if waitWith (s.core k) lead u then { ((s.core k).th u) with hold := .run } else (s.core k).th u) ∧
  (∀ (s : State) (k lead : Nat) (d : Reg) (ctrl : Word) (draft : Option (Word × Word)) (w : WordAt) (back : Option Word) (m : XqMsg) (pre post : List XqMsg),
    (s.core k).holdOf lead = .xqrecv d ctrl draft w back → Queueing s k lead →
    let src := ctrl.toNat % 4
    let ch := ctrl.toNat / 4 % 2
    queueOf s (k / 128) src ch = pre ++ m :: post → (∀ x ∈ pre, x.vf ≠ s.vfOf k) → m.vf = s.vfOf k →
    m.seqno = BitVec.ofNat 16 (ctrl.toNat / 2 ^ 16) → m.words.length = 16 → ((s.core k).threads.map (·.1)).Nodup →
    (∀ u, waitWith (s.core k) lead u → (∀ j < 16, placeOwned (s.core k) u (nth d j)) ∧ blockApart (s.core k) u d 16 ∧
      ∀ j < 16, (s.core k).noLater [u] (nth d j) 4) →
    (∀ u v, waitWith (s.core k) lead u → waitWith (s.core k) lead v → u ≠ v → ∀ i j q,
      (s.core k).cell u (nth d i) = some q → (s.core k).cell v (nth d j) ≠ some q) →
    ∃ (t : State) (vals : List Word), exec (.messageEnqueued k lead) s = .next t ∧ { t with cores := s.cores, dies := s.dies } = s ∧
      (match draft with | some lim => drafted lim.1 lim.2 m.words vals | none => vals = m.words) ∧
      (∀ e b c, b < 4 → c < 2 → queueOf t e b c = if e = k / 128 ∧ b = src ∧ c = ch then pre ++ post else queueOf s e b c) ∧
      (∀ j, j ≠ k → t.core j = s.core j) ∧
      (∀ u, waitWith (s.core k) lead u → ∀ j < 16, ∀ q, (s.core k).cell u (nth d j) = some q →
        (t.core k).rowWord q.1 q.2 = getAt vals j 0#32) ∧
      (∀ r x, (∀ u, waitWith (s.core k) lead u → ∀ j < 16, (s.core k).cell u (nth d j) ≠ some (r, x)) →
        (t.core k).rowWord r x = (s.core k).rowWord r x) ∧
      (∀ u, Thread.onlyNotes (if waitWith (s.core k) lead u then { ((s.core k).th u) with hold := .run } else (s.core k).th u) ((t.core k).th u)) ∧
      { (t.core k) with threads := (s.core k).threads, rows := (s.core k).rows } =
        { (s.core k) with l1 := (s.core k).l1.map (fun l => { l with valid := l.valid &&& l.owned }), epoch := (s.core k).epoch + 1 }) ∧
  (∀ (s : State) (k lead : Nat) (d : Reg) (ctrl : Word) (draft : Option (Word × Word)) (w : WordAt) (back : Option Word) (m : XqMsg) (pre post : List XqMsg) (l : Nat) (x : Launch),
    (s.core k).holdOf lead = .xqrecv d ctrl draft w back → Queueing s k lead →
    queueOf s (k / 128) (ctrl.toNat % 4) (ctrl.toNat / 4 % 2) = pre ++ m :: post → (∀ y ∈ pre, y.vf ≠ s.vfOf k) → m.vf = s.vfOf k →
    m.seqno ≠ BitVec.ofNat 16 (ctrl.toNat / 2 ^ 16) → (s.core k).launch = some l → s.launch l = some x → x.tearing = false →
    (∀ u, ¬ (AMap.has (s.core k).threads u = true ∧ ((s.core k).th u).hold = .follow lead)) →
    ((s.core k).th lead).helper = none → ((s.core k).th lead).pl = true → ((s.core k).th lead).intrap = false →
    ∃ t, exec (.messageEnqueued k lead) s = .next t ∧ (∀ e b c, queueOf t e b c = queueOf s e b c) ∧
      LaunchEnds { s with cores := t.cores } t l x
        ⟨endRecord 13 ((s.core k).th lead).lane w.glen (w.pc.toNat / 4 % 3) false false false, w.pc,
          BitVec.ofNat 32 (m.seqno.toNat * 2 ^ 16 + ctrl.toNat / 2 ^ 16), ((s.core k).th lead).tid⟩ ∧
      (t.core k).rows = (s.core k).rows ∧
      ∀ u, (t.core k).th u = if u = lead then { ((s.core k).th u) with hold := .run } else (s.core k).th u) ∧
  (∀ (s : State) (packet : Bool) (slot l : Nat) (x : Launch) (f : FrontEnd), s.cur.fe = true → s.cur.run = [] → s.here.fe = some f →
    s.here.launch = some l → s.launch l = some x → x.tearing = false →
    let pc : Word := if packet = true then BitVec.ofNat 32 (12 * (s.cur.gpc.toNat / 12) + 4 * slot) else s.cur.pc
    ∃ t, exec (.unallocatedEncoding packet slot) s = .next t ∧
      t.trappedBy (if packet = true then .illegalPacket else .illegalInstruction) ∧
      LaunchEnds s t l x ⟨endRecord (if packet = true then 2 else 1) 0 s.cur.glen (pc.toNat / 4 % 3) true false false, pc, 0#32, f.tid⟩) ∧
  (∀ (s : State) (packet : Bool) (slot : Nat), s.cur.fe = false →
    ∃ t info, exec (.unallocatedEncoding packet slot) s = .next t ∧ info.cause = (if packet = true then .illegalPacket else .illegalInstruction) ∧
      t.cur.status = .trapped info (if packet = true then (slotPc s.cur.gpc slot).toNat / 4 % 3 else s.cur.pc.toNat / 4 % 3)) ∧
  (∀ (s : State) (k u : Nat) (i : Instr), (s.core k).holdOf u = .run → u < feUid →
    i = .sleepWake k u ∨ i = .offerTimeout k u ∨ i = .messageEnqueued k u → exec i s = .next s)

/-- POOL_LANE_OPERATION applies one lane operation, wholly or not at all: what the entries of R331 to R337 state, with the results
and predicate of R324; a failure leaves the pool as it was, a lane that needs a private copy posts one request and waits, and
KVWALK starts the walker of the issuing die (R323 to R325, R335).
Where the spec leaves it open the model's choice stands (log 73, 74). -/
def Obligations.PoolLanesAreApplied : Prop :=
  (∀ (s : State) (v n : Nat) (p : Pool) (l : PoolLane) (rest : List PoolLane) (left : List Nat) (y : PoolView)
    (sent : List Message) (vals : List Word), NextLane s v n p l rest left → LaneResult s v n p l.op y sent vals →
    ∃ t, exec (.poolLaneOperation v n) s = .next t ∧ PoolChanged s t v n p rest y ∧ poolOnly s t v l.core y sent ∧
      LaneEnds { (s.core l.core) with l1 := (t.core l.core).l1 } (t.core l.core) l left vals false ∧
      ((∀ q g, l.op ≠ .walk q g) ∨ getAt vals 0 0#32 = 0xFFFFFFFF#32 ∨ 64 ≤ (s.die (l.core / 128)).chases.length → t.dies = s.dies) ∧
      (∀ q g, l.op = .walk q g → getAt vals 0 0#32 ≠ 0xFFFFFFFF#32 → (s.die (l.core / 128)).chases.length < 64 →
        ∀ d, t.die d = if d = l.core / 128 then
          { (s.die d) with chases := (s.die d).chases ++ [⟨v, n, s.seq1 v n q, (getAt vals 0 0#32).toNat, 4⟩] } else s.die d)) ∧
  (∀ (s : State) (v n : Nat) (p : Pool) (l : PoolLane) (rest : List PoolLane) (left : List Nat) (reason : Word),
    NextLane s v n p l rest left → LaneFails s v n p l.op reason →
    ∃ t, exec (.poolLaneOperation v n) s = .next t ∧ PoolChanged s t v n p rest (viewOf s v n) ∧
      poolOnly s t v l.core (viewOf s v n) [] ∧ t.mem = s.mem ∧ t.dies = s.dies ∧
      LaneEnds (s.core l.core) (t.core l.core) l left [0xFFFFFFFF#32, reason] true) ∧
  (∀ (s : State) (v n : Nat) (p : Pool) (l : PoolLane) (rest : List PoolLane) (left : List Nat) (q g : Nat),
    NextLane s v n p l rest left → LaneCopies s v n p l.op q g → s.funcBit v 1 = false →
    (s.cluster (l.core / 4)).handler.isSome = true →
    ∃ t, exec (.poolLaneOperation v n) s = .next t ∧
      PoolChanged s t v n p ({ l with copying := some g } :: rest) (viewOf s v n) ∧
      poolOnly s { t with clusters := s.clusters } v l.core (viewOf s v n) [] ∧ t.cores = s.cores ∧ t.mem = s.mem ∧
      ∀ c, t.cluster c = if c = l.core / 4 then { (s.cluster c) with copies := (s.cluster c).copies ++ [⟨v, n, q, g⟩] } else s.cluster c) ∧
  (∀ (s : State) (v n : Nat), s.pool v n = none ∨ (∃ p, s.pool v n = some p ∧ p.queue = []) →
    exec (.poolLaneOperation v n) s = .next s)

/-- JACQUARD_WORD_APPLY applies one engine word of one core, in that core's order; ENGINE_LAUNCH launches the slot that became
launchable first among those that a channel can take; ENGINE_LAUNCH_COMPLETION moves the launch's next element, counts it where it
fails, stalls it on a translation fault, and after the last one completes the launch (R231 to R238, R244).
Where the spec leaves it open the model's choice stands (log 28, 66). -/
def Obligations.EngineLaunchesAdvance : Prop :=
  (∀ (s : State) (cl : Nat), (∃ pre w post, NextWord s cl pre w post) → (∀ pre w post, NextWord s cl pre w post → Returns (s.core w.core) w.pends) →
    (∀ x ∈ (s.cluster cl).jwords, x.atRest = true → 2 ≤ ((s.cluster cl).slot x.slot).state) →
    ∃ pre w post t, NextWord s cl pre w post ∧ exec (.jacquardWordApply cl) s = .next t ∧ WordApplied s t cl pre w post) ∧
  (∀ (s : State) (cl : Nat), (¬ ∃ pre w post, NextWord s cl pre w post) → exec (.jacquardWordApply cl) s = .next s) ∧
  (∀ (s : State) (cl n q : Nat), slotsListed (s.cluster cl) → canLaunch s cl n = some q →
    (∀ m p, m ≠ n → canLaunch s cl m = some p → q < p) →
    (∀ m, waitsForChannel s cl m → s.vfOf (4 * cl + m / 64) ≠ s.vfOf (4 * cl + n / 64) ∧ 4 ≤ channels (s.cluster cl)) →
    ((s.cluster cl).slot n).waitCh = false →
    let j := { ((s.cluster cl).slot n) with
      state := 3, queued := none, progress := 0, runFailed := 0, runCause := 0, idxVal := none, stalled := none }
    (j.kind ≠ 0 → exec (.engineLaunch cl) s = .next (slotBecomes s cl n j)) ∧
    (j.kind = 0 → ∀ wait, MayComplete s cl n j wait → ∃ t, exec (.engineLaunch cl) s = .next t ∧
      LaunchCompleted (slotBecomes s cl n j) t cl n j wait)) ∧
  (∀ (s : State) (cl n : Nat), slotsListed (s.cluster cl) → waitsForChannel s cl n → (∀ m < n, ¬ waitsForChannel s cl m) →
    channels (s.cluster cl) < 4 →
    exec (.engineLaunch cl) s = .next (slotBecomes s cl n { ((s.cluster cl).slot n) with waitCh := false })) ∧
  (∀ (s : State) (cl : Nat), slotsListed (s.cluster cl) → (∀ m, canLaunch s cl m = none) → (∀ m, ¬ waitsForChannel s cl m) →
    exec (.engineLaunch cl) s = .next s) ∧
  (∀ (s : State) (cl n : Nat) (j : JSlot) (x d : Nat) (src : Option Nat) (bs : List Byte), Moving s cl n j → j.progress < elements j →
    entryRead j x → nextPair j x = (src, some d) → bEsize j.cmd.src = bEsize j.cmd.dst →
    (∀ i, src = some i → holdsElement s (4 * cl + n / 64) j.cmd.src i bs) → (src = none → bs = List.replicate (2 ^ bEsize j.cmd.dst) 0#8) →
    takesElement s (4 * cl + n / 64) j.cmd.dst d →
    ∃ t, exec (.engineLaunchCompletion cl n) s = .next t ∧ s.sameVfs t ∧ elementWritten s t (4 * cl + n / 64) j.cmd.dst d bs ∧
      { t with cores := s.cores, brocade := s.brocade, vfs := s.vfs, clusters := s.clusters } = s ∧
      t.clusters = (slotBecomes s cl n (advanced j none)).clusters) ∧
  (∀ (s : State) (cl n : Nat) (j : JSlot) (x : Nat) (src : Option Nat), Moving s cl n j → j.progress < elements j → j.kind = 3 →
    entryRead j x → nextPair j x = (src, none) →
    exec (.engineLaunchCompletion cl n) s = .next (slotBecomes s cl n (advanced j none))) ∧
  (∀ (s : State) (cl n : Nat) (j : JSlot) (bs : List Byte), Moving s cl n j → j.progress < elements j → j.kind ≠ 1 → j.idxVal = none →
    bEsize j.cmd.idx = 2 → holdsElement s (4 * cl + n / 64) j.cmd.idx (descSrc j + j.progress / descLen j) bs →
    ∃ t, exec (.engineLaunchCompletion cl n) s = .next t ∧ bytesKept s t (fun _ => False) ∧ onlyL1s s t ∧
      { t with cores := s.cores, brocade := s.brocade, clusters := s.clusters } = s ∧
      t.clusters = (slotBecomes s cl n { j with idxVal := some (numAt (fun i => getAt bs i 0#8) 0 4, 0) }).clusters) ∧
  (∀ (s : State) (cl n : Nat) (j : JSlot) (x i d c : Nat), Moving s cl n j → j.progress < elements j → entryRead j x →
    nextPair j x = (some i, some d) →
    (s.form (4 * cl + n / 64) (s.vfOf (4 * cl + n / 64)) j.cmd.src i (2 ^ bEsize j.cmd.src) false).fault = some c →
    exec (.engineLaunchCompletion cl n) s = .next (slotBecomes s cl n (advanced j (some c)))) ∧
  (∀ (s : State) (cl n : Nat) (j : JSlot) (x i d c : Nat) (bs : List Byte), Moving s cl n j → j.progress < elements j → entryRead j x →
    nextPair j x = (some i, some d) → bEsize j.cmd.src = bEsize j.cmd.dst → holdsElement s (4 * cl + n / 64) j.cmd.src i bs →
    (s.form (4 * cl + n / 64) (s.vfOf (4 * cl + n / 64)) j.cmd.dst d (2 ^ bEsize j.cmd.dst) true).fault = some c →
    ∃ t, exec (.engineLaunchCompletion cl n) s = .next t ∧ bytesKept s t (fun _ => False) ∧ onlyL1s s t ∧
      { t with cores := s.cores, brocade := s.brocade, clusters := s.clusters } = s ∧
      t.clusters = (slotBecomes s cl n (advanced j (some c))).clusters) ∧
  (∀ (s : State) (cl n : Nat) (j : JSlot) (x i d pa : Nat), Moving s cl n j → j.progress < elements j → entryRead j x →
    nextPair j x = (some i, some d) → InMemory s (4 * cl + n / 64) j.cmd.src i false pa → s.physPoison pa = true →
    bTensor j.cmd.src = 0 → AMap.look (s.vf (s.vfOf (4 * cl + n / 64))).pools 0 = none →
    ∃ t, exec (.engineLaunchCompletion cl n) s = .next t ∧ bytesKept s t (fun _ => False) ∧ onlyL1s s t ∧
      { t with cores := s.cores, brocade := s.brocade, clusters := s.clusters } = s ∧
      t.clusters = (slotBecomes s cl n (advanced j (some 5))).clusters) ∧
  (∀ (s : State) (cl n : Nat) (j : JSlot) (c : Nat), Moving s cl n j → j.progress < elements j → j.kind ≠ 1 → j.idxVal = none →
    (s.form (4 * cl + n / 64) (s.vfOf (4 * cl + n / 64)) j.cmd.idx (descSrc j + j.progress / descLen j) (2 ^ bEsize j.cmd.idx) false).fault = some c →
    exec (.engineLaunchCompletion cl n) s = .next (slotBecomes s cl n { j with idxVal := some (0, c) })) ∧
  (∀ (s : State) (cl n : Nat) (j : JSlot) (x c : Nat), Moving s cl n j → j.progress < elements j → j.kind ≠ 1 → j.idxVal = some (x, c) →
    c ≠ 0 → exec (.engineLaunchCompletion cl n) s = .next (slotBecomes s cl n (advanced j (some c)))) ∧
  (∀ (s : State) (cl n : Nat) (j : JSlot) (x i d : Nat) (p : Bool) (e : Nat × XEntry), Moving s cl n j → j.progress < elements j →
    entryRead j x → nextPair j x = (some i, some d) → elementUnmapped s (4 * cl + n / 64) j.cmd.src i false p →
    (s.cluster cl).xtab.find? (fun q => q.2.vf == s.vfOf (4 * cl + n / 64) &&
      q.2.page == (s.form (4 * cl + n / 64) (s.vfOf (4 * cl + n / 64)) j.cmd.src i (2 ^ bEsize j.cmd.src) false).addr / 64 * 64 / 65536) = some e →
    exec (.engineLaunchCompletion cl n) s = .next { s with clusters := AMap.put s.clusters cl { (s.cluster cl) with
      xtab := AMap.put (s.cluster cl).xtab e.1 e.2, jslots := AMap.put (s.cluster cl).jslots n { j with stalled := some e.1 } } }) ∧
  (∀ (s : State) (cl n : Nat) (j : JSlot) (wait : Option EngineWord), Moving s cl n j → elements j ≤ j.progress →
    s.tearing (4 * cl + n / 64) = false → MayComplete s cl n j wait →
    ∃ t, exec (.engineLaunchCompletion cl n) s = .next t ∧ LaunchCompleted s t cl n j wait) ∧
  (∀ (s : State) (cl n : Nat), ((s.cluster cl).slot n).state ≠ 3 ∨ ((s.cluster cl).slot n).stalled ≠ none ∨ s.stopped (4 * cl + n / 64) = true →
    exec (.engineLaunchCompletion cl n) s = .next s)

/-- MATRIX_WORD_APPLY posts a core's next MMA or applies its first word, a latch load row by row; LATCH_LOAD_COMPLETE lowers a
load's flag; MATRIX_PASS_GRANT takes the entry that goes before the others with its latches as they stand, and
MATRIX_PASS_COMPLETE writes its tiles; MST_CREDIT writes the next element of a matrix store and at the end credits its barrier
(R246 to R254, R260 to R268).
Where the spec leaves it open the model's choice stands (log 27, 29, 30, 31). -/
def Obligations.MatrixWordsApply : Prop :=
  (∀ (s : State) (k : Nat) (w h : MatrixWord) (rest : List MatrixWord) (token : Bool), HeadWord s k h rest → h.isMma = true →
    (s.core k).mwords.find? (fun x => x.isMma && x.age == 0) = some w →
    (token = true ↔ ∃ g x, (s.core k).token = some g ∧ AMap.look (s.core k).groups g = some x ∧ ∃ m ∈ x.members, ((s.core k).th m.1).warp = w.warp) →
    let c := s.cluster (clusterOf k)
    exec (.matrixWordApply k) s = .next { s with
      cores := AMap.put s.cores k { (s.core k) with
        mwords := (s.core k).mwords.map (fun x => if x.id = w.id then { x with age := c.nextAge + 1, prio := token } else x) }
      clusters := AMap.put s.clusters (clusterOf k) { c with nextAge := c.nextAge + 1 } }) ∧
  (∀ (s : State) (k : Nat) (w : MatrixWord) (rest : List MatrixWord) (side : Bool) (mask : BitVec 4) (g sel : Nat) (rows : List (Nat × Word)),
    HeadWord s k w rest → allPosted (s.core k) → w.op = .mscale side mask g sel rows → g < 8 → sel = 0 ∨ (4 ≤ sel ∧ sel ≤ 7) →
    (rows.map (fun r => r.1)).Nodup → (∀ r ∈ rows, r.1 < 32) → (∀ p ∈ (s.core k).scale, p.2.length = 32) →
    ∃ t, exec (.matrixWordApply k) s = .next t ∧ onlyEngine s t k ∧ t.cluster (clusterOf k) = s.cluster (clusterOf k) ∧
      Landed { (s.core k) with mwords := rest, scale := (t.core k).scale } (t.core k) w.pends (fun _ => []) ∧
      ∀ sd < 2, ∀ sub < 4, ∀ row < 32, ∀ b < 32, scaleByte (t.core k) sd sub row b =
        match rows.find? (fun r => r.1 == row) with
        | some r =>
          if sd = side.toNat ∧ mask.getLsbD sub = true ∧ 4 * g ≤ b ∧ b < 4 * g + 4 ∧ (sel = 0 ∨ b = 4 * g + sel - 4) then
            BitVec.ofNat 8 (r.2.toNat / 256 ^ (b - 4 * g))
          else scaleByte (s.core k) sd sub row b
        | none => scaleByte (s.core k) sd sub row b) ∧
  (∀ (s : State) (k : Nat) (w : MatrixWord) (rest : List MatrixWord) (mask : BitVec 4) (acc : Nat), HeadWord s k w rest →
    allPosted (s.core k) → w.op = .mzero mask acc → acc < 8 → ¬ passRuns s k acc →
    ∃ t, exec (.matrixWordApply k) s = .next t ∧ onlyEngine s t k ∧ claimsSettled s t (clusterOf k) ∧
      samePasses s t k ∧ Landed { (s.core k) with mwords := rest } (t.core k) w.pends (fun _ => []) ∧
      ∀ sub < 4, ∀ n < 8, ∀ r < 32, ∀ c < 32, cellOf (t.cluster (clusterOf k)) sub n r c =
        if mask.getLsbD sub = true ∧ n = acc then 0#32 else cellOf (s.cluster (clusterOf k)) sub n r c) ∧
  (∀ (s : State) (k : Nat) (w : MatrixWord) (rest : List MatrixWord) (acc mode : Nat) (clear : Bool) (ofmt : Nat) (b : BufRec) (idx pitch bar : Nat)
    (rm : BitVec 3) (sr sat : Bool) (gens : List DWord), HeadWord s k w rest → allPosted (s.core k) →
    w.op = .mst acc mode clear ofmt b idx pitch bar rm sr sat gens → (sr = true → gens.length = w.uids.length) →
    acc < 8 → ofmt ≤ 6 → ¬ passRuns s k acc → w.uids ≠ [] → w.uids.Nodup → (∀ u ∈ w.uids, AMap.has (s.core k).threads u = true) →
    let n := (shapeOf mode).1 * (shapeOf mode).2
    let size := if ofmt = 0 ∨ ofmt = 5 then 4 else if ofmt = 1 ∨ ofmt = 2 then 2 else 1
    ∃ (t : State) (c : Core), exec (.matrixWordApply k) s = .next t ∧ onlyEngine s t k ∧ claimsSettled s t (clusterOf k) ∧
      samePasses s t k ∧
      { c with threads := (s.core k).threads } = { (s.core k) with
        mwords := rest
        msts := (s.core k).msts ++ [⟨w.id, b,
          (List.range n).map (fun e => (idx + e / (shapeOf mode).2 * pitch + e % (shapeOf mode).2,
            bytesOf (outValue s k w acc mode ofmt rm sr sat gens e).1 size)), bar, n * size, w.late, none⟩] } ∧
      (∀ u, match firstIdx (fun v => v == u) w.uids 0 with
        | some i => Thread.onlyNotes (afterOutput s k w acc mode ofmt rm sr sat gens i ((s.core k).th u)) (c.th u)
        | none => c.th u = (s.core k).th u) ∧
      Landed c (t.core k) w.pends (fun _ => []) ∧
      ∀ sub < 4, ∀ m < 8, ∀ r < 32, ∀ x < 32, cellOf (t.cluster (clusterOf k)) sub m r x =
        if clear = true ∧ m = acc then 0#32 else cellOf (s.cluster (clusterOf k)) sub m r x) ∧
  (∀ (s : State) (k : Nat) (w : MatrixWord) (rest : List MatrixWord) (load : Nat → Nat → Nat → Nat → Option Byte), HeadWord s k w rest →
    allPosted (s.core k) → (∀ r ∈ (s.core k).reqs, r.id ∈ w.after → r.unregistered = false ∧ r.unread = false) →
    (∀ p ∈ (s.core k).latch, p.2.length = 512) →
    (∃ mask b idx pitch, w.op = .mldb mask b idx pitch ∧ w.progress < 32 ∧ reachable s k b (sourceRow b idx pitch w.progress) ∧
      load = fun sd sub row x => if sd = 1 ∧ mask.getLsbD sub = true ∧ row = w.progress then
        some (recByte s k b (sourceRow b idx pitch w.progress + x)) else none) ∨
    (∃ mask b idx pitch rows r j, w.op = .mgath mask b idx pitch rows ∧ rows[w.progress]? = some (r, j) ∧ r < 32 ∧
      (j = 2 ^ 32 - 1 ∨ reachable s k b (sourceRow b idx pitch j)) ∧
      load = fun sd sub row x => if sd = 0 ∧ mask.getLsbD sub = true ∧ row = r then
        some (if j = 2 ^ 32 - 1 then 0#8 else recByte s k b (sourceRow b idx pitch j + x)) else none) ∨
    (∃ mask wide b idx pitch, w.op = .mtrn mask wide b idx pitch ∧ w.progress < 32 ∧ bEsize b = wide.toNat ∧
      (let per := if wide = true then 8 else 16
       (∀ g < per, reachable s k b (sourceRow b idx pitch (per * w.progress + g))) ∧
       load = fun sd sub row x => let e := x / 2 ^ wide.toNat
         if sd = 1 ∧ mask.getLsbD sub = true ∧ e / per = w.progress then
           some (recByte s k b (sourceRow b idx pitch e + 2 ^ wide.toNat * row + x % 2 ^ wide.toNat)) else none)) →
    ∃ t, exec (.matrixWordApply k) s = .next t ∧ (∀ j, j ≠ k → t.core j = s.core j) ∧ { t with cores := s.cores } = s ∧
      { (t.core k) with latch := (s.core k).latch } = { (s.core k) with mwords := { w with progress := w.progress + 1 } :: rest } ∧
      ∀ sd < 2, ∀ sub < 4, ∀ row < 32, ∀ x < 512,
        latchByte (t.core k) sd sub row x = (load sd sub row x).getD (latchByte (s.core k) sd sub row x)) ∧
  (∀ (s : State) (k : Nat) (w : MatrixWord) (rest : List MatrixWord), HeadWord s k w rest →
    (∀ r ∈ (s.core k).reqs, r.id ∈ w.after → r.unregistered = false ∧ r.unread = false) →
    (∃ mask b idx pitch, w.op = .mldb mask b idx pitch ∧ 32 ≤ w.progress) ∨
      (∃ mask b idx pitch rows, w.op = .mgath mask b idx pitch rows ∧ rows.length ≤ w.progress) ∨
      (∃ mask wide b idx pitch, w.op = .mtrn mask wide b idx pitch ∧ 32 ≤ w.progress) →
    ∃ t, exec (.latchLoadComplete k) s = .next t ∧ onlyEngine s t k ∧ t.clusters = s.clusters ∧
      Landed { (s.core k) with mwords := rest } (t.core k) w.pends (fun _ => [])) ∧
  (∀ (s : State) (cl k : Nat) (w : MatrixWord) (rest : List MatrixWord) (acc mode : Nat) (zero : Bool) (fmt : Nat),
    ((s.cluster cl).pass = none ∨ (s.cluster cl).ending = none) → (∀ q, (s.cluster cl).pass = some q → q.acc < 8) → eligible s cl k w → (∀ j x, eligible s cl j x → j = k ∨ goesBefore w x) → HeadWord s k w rest →
    (∀ j x, eligible s cl j x → ((s.core j).mwords.map (fun y => y.id)).Nodup) → w.op = .mma acc mode zero fmt → fmt ≤ 10 →
    ∃ (t : State) (p : Pass), exec (.matrixPassGrant cl) s = .next t ∧ s.sameVfs t ∧
      { t with cores := s.cores, vfs := s.vfs, clusters := s.clusters } = s ∧
      (∀ j, j ≠ cl → t.cluster j = s.cluster j) ∧
      { (t.cluster cl) with accs := (s.cluster cl).accs } = { (s.cluster cl) with
        pass := some p, ending := if (s.cluster cl).pass = none then (s.cluster cl).ending else (s.cluster cl).pass } ∧
      (∀ sub < 4, ∀ n < 8, (t.cluster cl).tile sub n = match (s.cluster cl).pass with
        | some q => if n = q.acc then getAt q.tiles sub [] else (s.cluster cl).tile sub n
        | none => (s.cluster cl).tile sub n) ∧
      p.core = k ∧ p.acc = acc ∧ p.word = w ∧ (p.tcBad = true ↔ readsTen s k mode fmt) ∧ p.tiles.length = 4 ∧
      (∀ sub < 4, (getAt p.tiles sub []).length = 1024 ∧ ∀ i < 32, ∀ j < 32,
        getAt (getAt p.tiles sub []) (32 * i + j) 0#32 = BitVec.ofNat 32 (passedCell s (t.cluster cl) k acc mode zero fmt sub i j)) ∧
      t.core k = { (s.core k) with mwords := rest } ∧
      (∀ j x r, j ≠ k → eligible s cl j x → (s.core j).mwords = x :: r → t.core j = { (s.core j) with mwords := { x with passed := x.passed + 1 } :: r }) ∧
      ∀ j, j ≠ k → (¬ ∃ x, eligible s cl j x) → t.core j = s.core j) ∧
  (∀ (s : State) (cl : Nat) (p : Pass) (early : Bool),
    (early = true ∧ (s.cluster cl).ending = some p) ∨ (early = false ∧ (s.cluster cl).ending = none ∧ (s.cluster cl).pass = some p) →
    p.core / 4 = cl → p.acc < 8 → Returns (s.core p.core) p.word.pends →
    ∃ (t : State) (c : Core), exec (.matrixPassComplete cl) s = .next t ∧ onlyEngine s t p.core ∧ claimsSettled s t cl ∧
      (t.cluster cl).ending = none ∧ (t.cluster cl).pass = (if early = true then (s.cluster cl).pass else none) ∧
      { c with threads := (s.core p.core).threads } = s.core p.core ∧
      (∀ u, if p.tcBad = true ∧ AMap.has (s.core p.core).threads u = true ∧ ((s.core p.core).th u).warp = p.word.warp then
        Thread.onlyNotes { ((s.core p.core).th u) with fstat := ((s.core p.core).th u).fstat ||| 128#32 } (c.th u)
        else c.th u = (s.core p.core).th u) ∧
      Landed c (t.core p.core) p.word.pends (fun _ => []) ∧
      ∀ sub < 4, ∀ n < 8, (t.cluster cl).tile sub n =
        if early = false ∧ n = p.acc then getAt p.tiles sub [] else (s.cluster cl).tile sub n) ∧
  (∀ (s : State) (k id : Nat) (m : MstWrite) (e : Nat × List Byte) (es : List (Nat × List Byte)), Storing s k id m → m.elems = e :: es →
    e.2.length = 2 ^ bEsize m.buf → takesElement s k m.buf e.1 →
    ∃ t, exec (.mstCredit k id) s = .next t ∧ elementWritten (mstBecomes s k { m with elems := es }) t k m.buf e.1 e.2 ∧
      { t with cores := s.cores, brocade := s.brocade } = s ∧ (t.core k).msts = (s.core k).msts.map (fun x => if x.id = m.id then { m with elems := es } else x)) ∧
  (∀ (s : State) (k id : Nat) (m : MstWrite) (e : Nat × List Byte) (es : List (Nat × List Byte)) (c : Nat), Storing s k id m →
    m.elems = e :: es → (s.form k (s.vfOf k) m.buf e.1 e.2.length true).fault = some c →
    exec (.mstCredit k id) s = .next (mstBecomes s k { m with elems := es })) ∧
  (∀ (s : State) (k id : Nat) (m : MstWrite) (e : Nat × List Byte) (es : List (Nat × List Byte)) (p : Bool) (x : Nat × XEntry), Storing s k id m →
    m.elems = e :: es → e.2.length = 2 ^ bEsize m.buf → elementUnmapped s k m.buf e.1 true p →
    (s.cluster (clusterOf k)).xtab.find? (fun q => q.2.vf == s.vfOf k &&
      q.2.page == (s.form k (s.vfOf k) m.buf e.1 (2 ^ bEsize m.buf) true).addr / 64 * 64 / 65536) = some x →
    exec (.mstCredit k id) s = .next { (mstBecomes s k { m with stalled := some x.1 }) with
      clusters := AMap.put s.clusters (clusterOf k) { (s.cluster (clusterOf k)) with
        xtab := AMap.put (s.cluster (clusterOf k)).xtab x.1 { x.2 with write := true, protect := x.2.protect || p } } }) ∧
  (∀ (s : State) (k id : Nat) (m : MstWrite), Storing s k id m → m.elems = [] → s.tearing k = false → Returns (s.core k) m.late →
    ∃ t, exec (.mstCredit k id) s = .next t ∧ (∀ j, j ≠ k → t.core j = s.core j) ∧ { t with cores := s.cores } = s ∧
      barCredited (s.core k) (t.core k) m.bar m.bytes ∧
      Landed { (s.core k) with msts := (s.core k).msts.filter (fun x => x.id ≠ id), scratch := (t.core k).scratch, recheck := (t.core k).recheck }
        (t.core k) m.late (fun _ => [])) ∧
  (∀ (s : State) (k : Nat), ((s.core k).mwords = [] ∨ s.stopped k = true →
      exec (.matrixWordApply k) s = .next s ∧ exec (.latchLoadComplete k) s = .next s) ∧
    ((∀ j w, ¬ eligible s k j w) ∨ ((s.cluster k).pass ≠ none ∧ (s.cluster k).ending ≠ none) → exec (.matrixPassGrant k) s = .next s) ∧
    ((s.cluster k).pass = none → (s.cluster k).ending = none → exec (.matrixPassComplete k) s = .next s) ∧
    ∀ id, (∀ x ∈ (s.core k).msts, x.id ≠ id) → exec (.mstCredit k id) s = .next s)

/-- GRAPHLOAD, its end, TRIGGER, GRAPHSTAT and RUN_START move a graph slot; SCHEDULER_DISPATCH places the next ready instance or
starts a core of one placed before; LAUNCH_COMPLETE and TEARDOWN_COMPLETE end launches, their nodes and runs (R89 to R102, R362). The
order of the cores' starts is free (R28).
Where the spec leaves it open the model's choice stands (log 13, 40, 64, 65). -/
def Obligations.GraphsRun : Prop :=
  (∀ (s : State) (v n : Nat) (va : BitVec 64), s.boot = .running → ¬ occupied (graphSlot s v n) →
    exec (.graphloadLoad v n va) s = .next (withSlot s v n { (graphSlot s v n) with loading := some (va.toNat / 2 ^ 6 % 2 ^ 46 * 64) })) ∧
  (∀ (s : State) (v n : Nat) (va : BitVec 64), s.boot = .running → occupied (graphSlot s v n) →
    exec (.graphloadLoad v n va) s = .next (withSlot s v n { (graphSlot s v n) with err := 5 }) ∧
    exec (.graphloadUnload v n) s = .next (withSlot s v n { (graphSlot s v n) with err := 5 })) ∧
  (∀ (s : State) (v n : Nat), s.boot = .running → ¬ occupied (graphSlot s v n) →
    exec (.graphloadUnload v n) s = .next (withSlot s v n { (graphSlot s v n) with state := 0, nodes := [] })) ∧
  (∀ (s : State) (v n va : Nat) (r : List Node ⊕ Nat), (graphSlot s v n).loading = some va → Coherent s → Loads s v va r →
    ∃ t, exec (.graphLoadComplete v n) s = .next t ∧ onlyRead s t ∧
      t.vfs = (withSlot s v n (match r with
        | .inl ns => { (graphSlot s v n) with loading := none, state := 1, nodes := ns }
        | .inr e => { (graphSlot s v n) with loading := none, state := 0, nodes := [], err := 1, errNode := e })).vfs) ∧
  (∀ (s : State) (v n : Nat), (graphSlot s v n).loading = none → exec (.graphLoadComplete v n) s = .next s) ∧
  (∀ (s : State) (v n : Nat) (p : BitVec 64), s.boot = .running → let x := graphSlot s v n
    (x.loading ≠ none ∨ x.state = 0 ∨ x.state = 3 → exec (.triggerWrite v n p) s = .next s) ∧
    (x.loading = none → x.state = 1 ∨ x.state = 2 → 4 ≤ x.triggers.length →
      exec (.triggerWrite v n p) s = .next (withSlot s v n { x with err := 4 })) ∧
    (x.loading = none → x.state = 1 ∨ x.state = 2 → x.triggers.length < 4 →
      exec (.triggerWrite v n p) s = .next (withSlot s v n { x with triggers := x.triggers ++ [p.toNat / 2 ^ 6 % 2 ^ 46 * 64] }))) ∧
  (∀ (s : State) (v n : Nat) (w : BitVec 64), s.boot = .running → let x := graphSlot s v n
    (w.toNat / 2 ^ 44 % 2 ^ 4 = 0 → exec (.graphstatWrite v n w) s = .next s) ∧
    (w.toNat / 2 ^ 44 % 2 ^ 4 ≠ 0 → exec (.graphstatWrite v n w) s = .next (withSlot s v n
      { x with err := 0, errNode := 0, state := if x.state = 3 then 1 else x.state }))) ∧
  (∀ (s : State) (v n : Nat) (w : BitVec 64), s.boot ≠ .running →
    exec (.graphloadLoad v n w) s = .next s ∧ exec (.graphloadUnload v n) s = .next s ∧ exec (.triggerWrite v n w) s = .next s ∧
      exec (.graphstatWrite v n w) s = .next s) ∧
  (∀ (s : State) (v n : Nat) (rest : List Nat), MayRun (graphSlot s v n) 0 rest →
    let x := graphSlot s v n
    exec (.runStart v n) s = .next { (withSlot s v n
        { x with state := 2, triggers := rest, run := some (startedRun x.nodes s.sched.nextReady), failed := none }) with
      sched := { s.sched with nextReady := s.sched.nextReady + (firstNodes x.nodes).length } }) ∧
  (∀ (s : State) (v n va k : Nat) (rest : List Nat), MayRun (graphSlot s v n) va rest → va ≠ 0 → Coherent s → k < 4096 →
    (∀ j ≤ k, patchReads s v va j ∧ patchGood s v va (graphSlot s v n).nodes.length j) → (∀ j < k, ¬ patchLast s v va j) → patchLast s v va k →
    (∀ x ∈ (graphSlot s v n).nodes, x.params.length = 32) →
    let x := graphSlot s v n
    ∃ t, exec (.runStart v n) s = .next t ∧ onlyRead s { t with sched := s.sched } ∧
      t.sched = { s.sched with nextReady := s.sched.nextReady + (firstNodes x.nodes).length } ∧
      t.vfs = (withSlot s v n { x with
        nodes := patched s v va k x.nodes, state := 2, triggers := rest, run := some (startedRun x.nodes s.sched.nextReady), failed := none }).vfs) ∧
  (∀ (s : State) (v n va k e : Nat) (rest : List Nat), MayRun (graphSlot s v n) va rest → va ≠ 0 → Coherent s → k ≤ 4096 →
    (∀ j < k, patchReads s v va j ∧ patchGood s v va (graphSlot s v n).nodes.length j ∧ ¬ patchLast s v va j) →
    (k = 4096 ∧ e = 0x1000) ∨ (k < 4096 ∧ ¬ patchReads s v va k ∧ e = 0xFFFF) ∨
      (k < 4096 ∧ patchReads s v va k ∧ ¬ patchGood s v va (graphSlot s v n).nodes.length k ∧ e = k) →
    ∃ t, exec (.runStart v n) s = .next t ∧ onlyRead s { t with out := s.out, sched := s.sched } ∧ t.sched = forgotten s v n ∧ t.out = s.out ++ [.msixVf v 0] ∧
      t.vfs = (withSlot s v n (stopped (graphSlot s v n) 2 e)).vfs) ∧
  (∀ (s : State) (v n : Nat), (∀ p r, ¬ MayRun (graphSlot s v n) p r) → exec (.runStart v n) s = .next s) ∧
  (∀ (s : State) (c : Cand) (k : Nat), Chosen s c k → Coherent s → (∃ f, HeaderIs f c.hdr) →
    (nodeRunOf (graphSlot s c.vf c.slot) c.node).launch = none → segmentsRead s c →
    (∀ p ∈ s.cores, p.2.launch = none ∨ p.2.started = true) →
    ∃ (t p : State) (j : Nat) (x : Launch) (params : List DWord), exec .schedulerDispatch s = .next t ∧ Placed s p c k ∧
      k ≤ j ∧ j < k + 2 ^ c.hdr.shape ∧ p.launch s.nextLaunch = some x ∧
      (∃ n, (graphSlot s c.vf c.slot).nodes[c.node]? = some n ∧ params = n.params) ∧ CoreStarts p t j s.nextLaunch x params) ∧
  (∀ (s : State), (∀ c k, takesPart s c → ¬ fitsAt s c k) ∨ s.sched.placedAt = s.now → (∃ k l x params, mayStartCore s k l x params) →
    (∀ p ∈ s.cores, p.2.launch ≠ none → p.2.started = false → ∃ l x params, mayStartCore s p.1 l x params) →
    (∀ k l x params, mayStartCore s k l x params → ∃ f, HeaderIs f x.hdr) →
    ∃ t k l x params, exec .schedulerDispatch s = .next t ∧ mayStartCore s k l x params ∧ CoreStarts s t k l x params) ∧
  (∀ (s : State), (∀ c k, takesPart s c → ¬ fitsAt s c k) ∨ s.sched.placedAt = s.now → (∀ p ∈ s.cores, p.2.launch = none ∨ p.2.started = true) →
    exec .schedulerDispatch s = .next s) ∧
  (∀ (s : State) (l : Nat) (x : Launch), s.launch l = some x → x.tearing = false →
    (∃ p ∈ x.placed, ∃ k, coresOf x p k ∧ ¬ Quiet s k) →
    ∃ t, exec (.launchComplete l) s = .next t ∧
      let past (p : Nat × Nat) : Prop := ∀ k, coresOf x p k → Quiet s k
      (∃ y, t.launch l = some y ∧ { y with placed := x.placed, completed := x.completed } = x ∧ (∀ p, p ∈ y.placed ↔ p ∈ x.placed ∧ ¬ past p) ∧
        y.completed + y.placed.length = x.completed + x.placed.length) ∧
      (∀ m, m ≠ l → t.launch m = s.launch m) ∧
      (∀ k, ((∃ p ∈ x.placed, past p ∧ coresOf x p k) → CoreIdle (s.core k) (t.core k)) ∧
        ((∀ p ∈ x.placed, past p → ¬ coresOf x p k) → t.core k = s.core k)) ∧
      clustersLose s t (fun k => ∃ p ∈ x.placed, past p ∧ coresOf x p k) ∧
      settledCtx t x.vf (s.vf x.vf) (t.vf x.vf) ∧ (∀ v, v ≠ x.vf → t.vf v = s.vf v) ∧
      { t with launches := s.launches, cores := s.cores, clusters := s.clusters, vfs := s.vfs } = s) ∧
  (∀ (s : State) (l : Nat) (x : Launch) (r : AMap NodeRun), LaunchOver s l x r →
    let g := graphSlot s x.vf x.slot
    let done (i : Nat) : Prop := i = x.node ∨ (nodeRunOf g i).done = true
    ∃ t, exec (.launchComplete l) s = .next t ∧ (∀ m, t.launch m = if m = l then none else s.launch m) ∧
      coresGiven s t x ∧
      clustersLose s t (fun k => ∃ p ∈ x.placed, coresOf x p k) ∧
      (∀ v, v ≠ x.vf → t.vf v = s.vf v) ∧ settledCtx t x.vf (s.vf x.vf) { (t.vf x.vf) with slots := (s.vf x.vf).slots } ∧
      { t with launches := s.launches, cores := s.cores, clusters := s.clusters, vfs := s.vfs, out := s.out, sched := s.sched } = s ∧
      ((∀ i < g.nodes.length, done i) → t.sched = { (forgotten s x.vf x.slot) with nextReady := t.sched.nextReady }) ∧
      ((∃ i < g.nodes.length, ¬ done i) → t.sched = { s.sched with nextReady := t.sched.nextReady }) ∧
      (∀ n, n ≠ x.slot → graphSlot t x.vf n = graphSlot s x.vf n) ∧
      ((∀ i < g.nodes.length, done i) → t.out = s.out ++ [.msixVf x.vf 0] ∧
        graphSlot t x.vf x.slot = { g with run := none, state := 1, doneCount := g.doneCount + 1#32 }) ∧
      ((∃ i < g.nodes.length, ¬ done i) → t.out = s.out ∧ (∃ q, (graphSlot t x.vf x.slot) = { g with run := some q }) ∧
        ∀ i < g.nodes.length, ∃ order, (becomesReady g x.node i → ∃ o, order = some o ∧ s.sched.nextReady ≤ o ∧ o < t.sched.nextReady) ∧
          (¬ becomesReady g x.node i → order = (nodeRunOf g i).ready) ∧
          nodeRunOf (graphSlot t x.vf x.slot) i = { (nodeRunOf g i) with done := (if i = x.node then true else (nodeRunOf g i).done), ready := order }) ∧
      (∀ i j oi oj, becomesReady g x.node i → becomesReady g x.node j → i < j → i < 4096 → j < g.nodes.length →
        (∃ i < g.nodes.length, ¬ done i) → (nodeRunOf (graphSlot t x.vf x.slot) i).ready = some oi → (nodeRunOf (graphSlot t x.vf x.slot) j).ready = some oj → oi < oj)) ∧
  (∀ (s : State) (l : Nat) (x : Launch), s.launch l = some x → x.tearing = true →
    (∀ p ∈ x.placed, ∀ k, coresOf x p k → (∀ q ∈ (s.core k).threads, ∀ j m b d, q.2.hold ≠ .slices j m b d) ∧
      (∀ f, (s.core k).fe = some f → ∀ j m b d, f.hold ≠ .slices j m b d) ∧ (∀ r ∈ (s.core k).reqs, r.stage = .ready → asksWrite r = false)) →
    (∀ p ∈ s.clusters, ∀ h, p.2.handler = some h → h.2 ≠ l) →
    ∃ t, exec (.teardownComplete l) s = .next t ∧ (∀ m, t.launch m = if m = l then none else s.launch m) ∧
      coresGiven s t x ∧
      clustersLose s t (fun k => ∃ p ∈ x.placed, coresOf x p k) ∧
      (∀ cl, ∀ p, passOf (t.cluster cl) p → passOf (s.cluster cl) p ∧ (p.core / 4 = cl → ∀ q ∈ x.placed, ¬ coresOf x q p.core)) ∧
      t.mem = s.mem ∧ t.brocade = s.brocade ∧
      let g := graphSlot s x.vf x.slot
      let node := match g.failed with | some n => n | none => x.node
      let final : Prop := ∀ p ∈ s.launches, p.1 ≠ l → p.2.vf = x.vf → p.2.slot ≠ x.slot
      (g.run = none → graphSlot t x.vf x.slot = g ∧ t.out = s.out) ∧
      (g.run ≠ none → final → graphSlot t x.vf x.slot = stopped g 3 node ∧ t.out = s.out ++ [.msixVf x.vf 0]) ∧
      (g.run ≠ none → ¬ final → graphSlot t x.vf x.slot = { g with failed := some node } ∧ t.out = s.out)) ∧
  (∀ (s : State) (l : Nat), s.launch l = none → exec (.launchComplete l) s = .next s ∧ exec (.teardownComplete l) s = .next s)

/-- SLICE_EXPIRY makes the soft request where another VF waits for cores, and the forced halt at once where GRACE is 0; GRACE_EXPIRY
is the forced halt and KILL_EXPIRY tears the context down (R29, R74, R311, R364, R365). CONTEXT_SAVE writes a context at rest into
the SAVE region and frees its cores, or kills the context that fits nowhere; CONTEXT_RESUME puts it back on free cores of its
partition (R366 to R368, R387). CHECKPOINT_SWEEP freezes every piece that the covered VFs map, PIECE_RESERVE_COPY copies a piece that
a write waits for and CHECKPOINT_DRAIN streams the image a part at a time (R370 to R372).
Where the spec leaves it open the model's choice stands (log 43, 44, 45, 58, 88, 89). -/
def Obligations.ContextsAndCheckpointsMove : Prop :=
  (∀ (s : State) (v : Nat), v < 64 → (s.vf v).ctx = 1 → sliceField s v ≠ 0 → (s.partOfVf v).isSome = true → crowds s v →
    (graceField s v ≠ 0 → exec (.sliceExpiry v) s = .next { s with vfs := AMap.put s.vfs v { (s.vf v) with ctx := 2, rung := 1 } }) ∧
    (graceField s v = 0 → ListsOnce s → parkedPlaces s v → ∃ t, exec (.sliceExpiry v) s = .next t ∧ ForcedHalt s t v)) ∧
  (∀ (s : State) (v : Nat), slotsOnce s → (s.vf v).ctx ≠ 1 ∨ sliceField s v = 0 ∨ ¬ crowds s v → exec (.sliceExpiry v) s = .next s) ∧
  (∀ (s : State) (v : Nat), (s.vf v).ctx = 2 → (s.vf v).rung = 1 → ListsOnce s → parkedPlaces s v →
    ∃ t, exec (.graceExpiry v) s = .next t ∧ ForcedHalt s t v) ∧
  (∀ (s : State) (v : Nat), (s.vf v).ctx ≠ 2 ∨ (s.vf v).rung ≠ 1 → exec (.graceExpiry v) s = .next s) ∧
  (∀ (s : State) (v : Nat), (s.vf v).ctx = 2 → ListsOnce s → (s.vf v).rung = 2 ∨ ((s.vf v).rung = 1 ∧ Savable s v) →
    AMap.look s.saves v = none → ∃ t, exec (.killExpiry v) s = .next t ∧ ContextKilled s t v) ∧
  (∀ (s : State) (v : Nat), ListsOnce s → (s.vf v).ctx ≠ 2 ∨ (s.vf v).rung = 0 ∨ 3 ≤ (s.vf v).rung ∨ ((s.vf v).rung = 1 ∧ ¬ Savable s v) →
    exec (.killExpiry v) s = .next s) ∧
  (∀ (s : State) (v n : Nat) (p : Part), ListsOnce s → Coherent s → (∀ q ∈ s.parts, q.2.pieces = []) → partRecOf s v n p → v < 64 → Savable s v →
    AMap.look s.saves v = none →
    ∃ t len, exec (.contextSave v) s = .next t ∧ len % 4096 = 0 ∧ 0 < len ∧ (∀ off, savePlaceOf s p len off → ContextSaved s t v p len off) ∧
      ((∀ off, ¬ fitsSave s p len off) → ContextKilled s t v)) ∧
  (∀ (s : State) (v : Nat), ListsOnce s → ¬ Savable s v → exec (.contextSave v) s = .next s) ∧
  (∀ (s : State) (v n : Nat) (p : Part) (sv : Saved) (l : Nat) (x : Launch) (k : Nat), MayResume s v n p sv l x k → SaveWhole s sv k →
    Coherent s → (∀ q ∈ s.parts, q.2.pieces = []) → (s.vf v).pools.Pairwise (fun a b => a.1 ≠ b.1) →
    ∃ t, exec (.contextResume v) s = .next t ∧ (∀ c ∈ sv.cores, CoreRestored s t c (k + c.core.index)) ∧
      (∀ j, (∀ c ∈ sv.cores, j ≠ k + c.core.index) → { (t.core j) with l1 := (s.core j).l1 } = s.core j) ∧
      (∀ cl, (∀ c ∈ sv.cores, (k + c.core.index) / 4 ≠ cl) → t.cluster cl = s.cluster cl) ∧
      (∀ w, AMap.look t.saves w = if w = v then none else AMap.look s.saves w) ∧
      (∀ a, t.physByte a = if a = regionBase p + 64 * v + 20 then 0#8 else s.physByte a) ∧
      (∀ m, t.launch m = if m = l then some { x with placed := x.placed ++ [((sv.cores.map (fun c => c.core.inst)).headD 0, k)] } else s.launch m) ∧
      (∀ w, { (t.vf w) with pools := (s.vf w).pools } = if w = v then { (s.vf v) with ctx := 1, rung := 0, perfcnt := sv.perf, perfnew := [] } else s.vf w) ∧
      (∀ w q, t.pool w q = if w = v then (s.pool v q).map (fun y => { y with queue := y.queue ++
        ((sv.lanes.filter (fun z => z.1 == q)).map (fun z => { z.2 with core := movedTo sv k z.2.core })) }) else s.pool w q) ∧
      (∀ d q, AMap.lookD (t.die d).xq q [] = AMap.lookD (s.die d).xq q [] ++ (sv.msgs.filter (fun m => m.1 == d && m.2.1 == q)).map (fun m => m.2.2)) ∧
      { t with
        cores := s.cores, clusters := s.clusters, launches := s.launches, saves := s.saves, mem := s.mem, poison := s.poison
        brocade := s.brocade, dies := s.dies, vfs := s.vfs } = s) ∧
  (∀ (s : State) (v : Nat), (s.vf v).ctx ≠ 3 ∨ AMap.look s.saves v = none ∨
    (∃ q ∈ s.parts, q.2.vfmask.getLsbD v = true ∧ q.2.ckState = 1 ∧ q.2.sysvf ≠ v) → exec (.contextResume v) s = .next s) ∧
  (∀ (s : State) (n : Nat) (p : Part), MaySweep s n p →
    ∃ (t : State) (ps : List Piece) (m : CkImage), exec (.checkpointSweep n) s = .next t ∧
      (∀ pa, (∃ x ∈ ps, x.pa = pa) ↔ ∃ v, coveredBy p v = true ∧ mapsPiece s v pa) ∧ (ps.map (fun x => x.pa)).Nodup ∧
      (∀ x ∈ ps, x.drained = false ∧ x.reserve = none) ∧ imageOf s n p ps m ∧
      (bufSizeOf p < m.front.length + 65536 * ps.length →
        t = { s with parts := AMap.put s.parts n { p with ckState := 4, ckErr := 2, pieces := [], ckImage := none } }) ∧
      (m.front.length + 65536 * ps.length ≤ bufSizeOf p →
        t.parts = AMap.put s.parts n { p with ckState := 2, pieces := ps, ckDrained := 0, ckImage := some s.images.length } ∧
        AMap.look t.images s.images.length = some m ∧ { t with parts := s.parts, images := s.images } = s)) ∧
  (∀ (s : State) (n : Nat), (∀ p, ¬ MaySweep s n p) → exec (.checkpointSweep n) s = .next s) ∧
  (∀ (s : State) (n i : Nat) (p : Part) (x : Piece), AMap.look s.parts n = some p → p.pieces[i]? = some x → x.drained = false →
    x.reserve = none → (n, p) ∈ s.parts → x.pa % 65536 = 0 → writeWaits s x.pa →
    ((∀ j, ¬ reserveFree p j) → exec (.pieceReserveCopy n i) s =
      .next { s with parts := AMap.put s.parts n { p with ckState := 4, ckErr := 1, pieces := [], ckImage := none } }) ∧
    ∀ j, reserveFree p j → (∀ m < j, ¬ reserveFree p m) → ∃ t, exec (.pieceReserveCopy n i) s = .next t ∧
      t.parts = AMap.put s.parts n { p with pieces := p.pieces.set i { x with reserve := some j } } ∧ { t with mem := s.mem, parts := s.parts } = s ∧
      ∀ a, t.mem.read a = if reserveAt p j ≤ a ∧ a < reserveAt p j + 65536 then s.physByte (x.pa + (a - reserveAt p j)) else s.mem.read a) ∧
  (∀ (s : State) (n i : Nat), (∀ p x, AMap.look s.parts n = some p → p.pieces[i]? = some x → ¬ writeWaits s x.pa) →
    exec (.pieceReserveCopy n i) s = .next s) ∧
  (∀ (s : State) (n : Nat) (p : Part) (m : CkImage), draining s n p m → p.ckDrained = 0 →
    ∃ t, exec (.checkpointDrain n) s = .next t ∧ drainEnds s t n { p with ckDrained := 1 } ∧
      ∀ a, t.hostMem.read a = written s.hostMem.read (bufBaseOf p) m.front a) ∧
  (∀ (s : State) (n i : Nat) (p : Part) (m : CkImage) (x : Piece), draining s n p m → p.ckDrained = i + 1 → p.pieces[i]? = some x →
    p.funcmode.getLsbD 2 = false →
    ∃ t, exec (.checkpointDrain n) s = .next t ∧
      drainEnds s t n { p with ckDrained := i + 2, pieces := p.pieces.set i { x with drained := true } } ∧
      let at_ := bufBaseOf p + m.front.length + 65536 * i
      ∀ a, t.hostMem.read a = if at_ ≤ a ∧ a < at_ + 65536 then drainedByte s p x (a - at_) else s.hostMem.read a) ∧
  (∀ (s : State) (n i : Nat) (p : Part) (m : CkImage), draining s n p m → p.ckDrained = i + 1 → i < p.pieces.length → p.funcmode.getLsbD 2 = true →
    (p.haTail + 1) % 256 = p.haHead ∨ p.haWaiting ≠ [] → exec (.checkpointDrain n) s =
      .next { s with parts := AMap.put s.parts n { p with ckDrained := i + 2, haWaiting := p.haWaiting ++ [.pieces i 1] } }) ∧
  (∀ (s : State) (n i : Nat) (p : Part) (m : CkImage), draining s n p m → p.ckDrained = i + 1 → i < p.pieces.length → p.funcmode.getLsbD 2 = true →
    (p.haTail + 1) % 256 ≠ p.haHead → p.haWaiting = [] → Coherent s → (∀ q ∈ s.parts, ∀ x ∈ q.2.pieces, x.drained = true ∨ x.reserve.isSome = true) →
    ∃ t, exec (.checkpointDrain n) s = .next t ∧ t.out = s.out ++ [.msixPf 2] ∧
      t.parts = AMap.put s.parts n { p with
        ckDrained := i + 2, haTail := (p.haTail + 1) % 256, haTag := p.haTag + 1#16, haPending := p.haPending ++ [(p.haTag, .pieces i 1)] } ∧
      (let f (j : Nat) : Nat := numAt t.physByte (p.haqbase + 32 * p.haTail + 4 * j) 4
       f 0 = 6 * 2 ^ 28 + p.haTag.toNat ∧ f 1 = i % 2 ^ 32 ∧ f 2 = 1 ∧ ∀ j, 3 ≤ j → j < 8 → f j = 0) ∧
      (∀ a, ¬ (p.haqbase + 32 * p.haTail ≤ a ∧ a < p.haqbase + 32 * p.haTail + 32) → t.physByte a = s.physByte a) ∧ onlyL1s s t ∧
      { t with cores := s.cores, mem := s.mem, poison := s.poison, brocade := s.brocade, parts := s.parts, out := s.out } = s) ∧
  (∀ (s : State) (n : Nat), (∀ p m, ¬ draining s n p m) → exec (.checkpointDrain n) s = .next s)

/-- PCFG makes or changes a partition where its record passes every check, copies the image of a new one into its memory and starts the
RV64 cores of its quanta, and names the first failing offset where not (R386, R387, R391, R406, R408); QMOVE drains a quantum whose RV64
core its owner has taken offline and asks each context on it, QUANTUM_SCRUB scrubs it once they have gone, then zeroes it and resets its
RV64 core, QUANTUM_ONLINE gives it to the target, which brings the core online (R390); MEMORY_RELEASE takes memory away, with every
translation of the partition, and zeroes it (R389). The offset at which the image fails and the place that it takes are the model's
choice (log 49, 91). -/
def Obligations.PartitionsChange : Prop :=
  (∀ (s : State) (n : Nat) (bs : List Byte), s.boot = .running → bs.length = 256 → (∀ o, ¬ refusedAt s n bs o) →
    ∃ t, exec (.pcfg n bs) s = .next t ∧ (∀ m, AMap.look t.parts m = if m = n then some (recorded s n bs) else AMap.look s.parts m) ∧
      (∀ q, t.quantum q = if q < 32 ∧ recField bs 0 4 / 2 ^ q % 2 = 1 ∧ (s.quantum q).part = none then ⟨1, some n, none, .online⟩ else s.quantum q) ∧
      t.out = s.out ++ [.mailbox true 0] ∧
      (AMap.has s.parts n = true → { t with parts := s.parts, quanta := s.quanta, out := s.out } = s) ∧
      (AMap.has s.parts n = false → Coherent s → (∀ q ∈ s.parts, q.2.pieces = []) →
        imageCopied s { t with parts := s.parts, quanta := s.quanta, out := s.out } (recorded s n bs))) ∧
  (∀ (s : State) (n o : Nat) (bs : List Byte), s.boot = .running → bs.length = 256 → refusedAt s n bs o →
    (∀ x < o, ¬ refusedAt s n bs x) → exec (.pcfg n bs) s = .next { s with out := s.out ++ [.mailbox false o] }) ∧
  (∀ (s : State) (n : Nat) (bs : List Byte), s.boot ≠ .running → exec (.pcfg n bs) s = .next s) ∧
  (∀ (s : State) (n : Nat) (bs : List Byte), s.boot = .running → bs.length ≠ 256 →
    exec (.pcfg n bs) s = .next { s with out := s.out ++ [.mailbox false bs.length] }) ∧
  (∀ (s : State) (q r : Nat) (p : Nat), s.boot = .running → ListsOnce s → q ≠ 0 → q < 32 → (s.quantum q).state = 1 → (s.quantum q).part = some p →
    (∃ j < 32, j ≠ q ∧ (s.quantum j).part = some p ∧ (s.quantum j).state = 1) →
    ∃ t, exec (.qmove q r) s = .next t ∧ (∀ j, t.quantum j = if j = q then ⟨2, some p, some r, .offline⟩ else s.quantum j) ∧
      (∀ v, (onQuantum s q v → stands t v = haltedTo s v 0) ∧ (¬ onQuantum s q v → t.vf v = s.vf v)) ∧
      t.out = s.out ++ [.mailbox true 0] ∧
      ((∀ v, onQuantum s q v → graceField s v ≠ 0) → { t with quanta := s.quanta, vfs := s.vfs, out := s.out } = s)) ∧
  (∀ (s : State) (q r : Nat), s.boot = .running → (q = 0 ∨ (s.quantum q).state ≠ 1 ∨ (s.quantum q).part = none ∨
      (∀ j < 32, (s.quantum j).part = (s.quantum q).part → (s.quantum j).state = 1 → j = q)) →
    exec (.qmove q r) s = .next { s with out := s.out ++ [.mailbox false 0] }) ∧
  (∀ (s : State) (q r : Nat), s.boot ≠ .running → exec (.qmove q r) s = .next s) ∧
  (∀ (s : State) (q : Nat), (s.quantum q).state = 2 → (∀ k, k / 16 = q → (s.core k).launch = none) →
    exec (.quantumScrub q) s = .next { s with quanta := AMap.put s.quanta q { (s.quantum q) with state := 3 } }) ∧
  (∀ (s : State) (q : Nat), (s.quantum q).state = 3 →
    ∃ t, exec (.quantumScrub q) s = .next t ∧
      (∀ j, t.quantum j = if j = q then { (s.quantum q) with state := 0, part := none, rv := .reset } else s.quantum j) ∧
      (∀ k, (k / 16 = q → t.core k = scrubbedCore (s.core k)) ∧ (k / 16 ≠ q → { (t.core k) with l1 := (s.core k).l1 } = s.core k)) ∧
      (∀ c, t.cluster c = if c / 4 = q then scrubbedCluster (s.cluster c) else s.cluster c) ∧ t.vfs = s.vfs ∧ t.launches = s.launches ∧
      ((∀ c, c / 4 = q → (s.cluster c).xpend = [] ∧ (s.cluster c).copies = []) →
        { t with cores := s.cores, clusters := s.clusters, quanta := s.quanta } = s)) ∧
  (∀ (s : State) (q : Nat), (s.quantum q).state ≠ 3 → (s.quantum q).state ≠ 2 ∨ (∃ k, k / 16 = q ∧ (s.core k).launch ≠ none) →
    exec (.quantumScrub q) s = .next s) ∧
  (∀ (s : State) (q n : Nat), (((s.quantum q).state = 0 ∧ (s.quantum q).part = none ∧ (s.quantum q).target = some n ∧ AMap.has s.parts n = true) →
      exec (.quantumOnline q n) s = .next { s with quanta := AMap.put s.quanta q ⟨1, some n, none, .online⟩ }) ∧
    (¬ ((s.quantum q).state = 0 ∧ (s.quantum q).part = none ∧ (s.quantum q).target = some n ∧ AMap.has s.parts n = true) →
      exec (.quantumOnline q n) s = .next s)) ∧
  (∀ (s : State) (n : Nat) (p : Part) (cxl : Bool) (unit count : Nat), AMap.look s.parts n = some p → Coherent s → (n, p) ∈ s.parts →
    unitsHeld p cxl unit count →
    ∃ t y, exec (.memoryRelease n cxl unit count) s = .next t ∧ UnitsGone p y cxl unit count ∧ t.parts = AMap.put s.parts n y ∧
      MemoryGone s t p (unitBase cxl unit) (unitBase cxl (unit + count) - unitBase cxl unit) ∧ t.out = s.out ++ [.mailbox true 0] ∧
      { t with cores := s.cores, mem := s.mem, poison := s.poison, brocade := s.brocade, parts := s.parts, out := s.out } = s) ∧
  (∀ (s : State) (n : Nat) (p : Part) (cxl : Bool) (unit count : Nat), AMap.look s.parts n = some p → ¬ unitsHeld p cxl unit count →
    exec (.memoryRelease n cxl unit count) s = .next { s with out := s.out ++ [.mailbox false 0] }) ∧
  (∀ (s : State) (n : Nat) (cxl : Bool) (unit count : Nat), AMap.look s.parts n = none → exec (.memoryRelease n cxl unit count) s = .next s)

/-- CLHANDLER_WRITE claims and releases the handler role for a PL1 thread, PERFSEL_WRITE selects an event and clears the counter,
PRETIMERS_WRITE and REGISTER_WRITE write by the register's map, at an offset of a BAR as at the register that stands there; a read-only
register, an offset not listed and an undefined EVENT change nothing, and no register of a BAR takes a write before the device runs
(R103, R177, R183, R354, R360, R364, R369, R375, R393, R397, R398, R405). What the host reads of the BARs' registers and in the drain
window is what they and the piece that DRAINSEL names hold (R396, R398).
Where the spec leaves it open the model's choice stands (log 67, 117, 121). -/
def Obligations.RegistersAreWrittenFromOutside : Prop :=
  (∀ (s : State) (k u l : Nat) (fe : Bool) (w : Word), (s.core k).launch = some l →
    (if fe = true then ∃ f, (s.core k).fe = some f ∧ f.pl = true else ((s.core k).th u).pl = true) →
    ∃ t, exec (.clhandlerWrite k u fe w) s = .next t ∧
      (∀ c, (t.cluster c).handler = if c = k / 4 then claimed (atCore s k) l w (s.cluster c) else (s.cluster c).handler) ∧
      (∀ c, { (t.cluster c) with handler := (s.cluster c).handler, xpend := (s.cluster c).xpend, copies := (s.cluster c).copies } = s.cluster c) ∧
      (w.getLsbD 31 = true ∨ ((s.cluster (k / 4)).xpend = [] ∧ (s.cluster (k / 4)).copies = []) → { t with clusters := s.clusters } = s) ∧
      ((t.cluster (k / 4)).handler = none → (s.cluster (k / 4)).handler ≠ none → (t.cluster (k / 4)).xpend = [] ∧ (t.cluster (k / 4)).copies = [])) ∧
  (∀ (s : State) (k u : Nat) (fe : Bool) (w : Word), (s.core k).launch = none ∨ (fe = false ∧ ((s.core k).th u).pl = false) ∨
      (fe = true ∧ ∀ f, (s.core k).fe = some f → f.pl = false) → exec (.clhandlerWrite k u fe w) s = .next s) ∧
  (∀ (s : State) (v n : Nat) (w : Word), (n < 8 → w.toNat % 256 ≤ 0x0F → exec (.perfselWrite v n w) s = .next { s with
      vfs := AMap.put s.vfs v { (s.vf v) with
        perfsel := AMap.put (s.vf v).perfsel n (w &&& 0x800000FF#32), perfcnt := AMap.put (s.vf v).perfcnt n 0#64
        perfnew := AMap.del (s.vf v).perfnew n } }) ∧
    (8 ≤ n ∨ 0x0F < w.toNat % 256 → exec (.perfselWrite v n w) s = .next s)) ∧
  (∀ (s : State) (v : Nat) (w : Word), s.boot = .running →
    exec (.pretimersWrite v w) s = .next { s with vfs := AMap.put s.vfs v { (s.vf v) with pretimers := pretimersOf w.toNat } } ∧
    exec (.registerWrite (.pretimers v) (w.setWidth 64)) s = exec (.pretimersWrite v w) s) ∧
  (∀ (s : State) (n : Nat) (w : DWord), s.boot = .running → let v := s.vf n
    exec (.registerWrite (.ptroot n) w) s = .next { s with vfs := AMap.put s.vfs n { v with ptroot := w &&& 0x000FFFFFFFFFE001#64 } } ∧
    exec (.registerWrite (.vfweight n) w) s = .next { s with
      vfs := AMap.put s.vfs n { v with weight := if w.toNat % 256 = 0 then 1 else w.toNat % 256 } } ∧
    (∃ t, let b := w &&& 0xFFEFFFFFFFFFFFC1#64
      exec (.registerWrite (.trapbase n) w) s = .next t ∧ t.vfs = AMap.put s.vfs n { v with trapbase := b } ∧
      (∀ l, (s.launch l = none → t.launch l = none) ∧ ∀ x, s.launch l = some x → ∃ y, t.launch l = some y ∧ holdsHandler s n b x y) ∧
      { t with vfs := s.vfs, launches := s.launches } = s) ∧
    (∀ i, exec (.registerWrite (.msix n i) w) s = .next { s with vfs := AMap.put s.vfs n { v with msix := AMap.put v.msix i w } }) ∧
    exec (.registerWrite (.trigger n) w) s = exec (.triggerWrite n (w.toNat / 4 % 16) w) s ∧
    exec (.registerWrite (.graphload n) w) s = (if w.toNat % 2 = 1 then exec (.graphloadUnload n (w.toNat / 4 % 16)) s
      else exec (.graphloadLoad n (w.toNat / 4 % 16) w) s) ∧
    (∀ m, exec (.registerWrite (.graphstat n m) w) s = exec (.graphstatWrite n m w) s) ∧
    (∀ i, i = .haqtail n ∨ i = .devcap ∨ i = .unlisted → exec (.registerWrite i w) s = .next s)) ∧
  (∀ (s : State) (n : Nat) (w : DWord), s.boot = .running → let c := s.core n
    let x : Word := w.setWidth 32
    exec (.registerWrite (.faultq n) w) s = .next { s with cores := AMap.put s.cores n { c with lost := x.toNat / 2 ^ 16, ftrap := BitVec.ofNat 3 (x.toNat / 4) } } ∧
    exec (.registerWrite (.vocab n) w) s = .next { s with cores := AMap.put s.cores n { c with vocab := x &&& 0xFFFFF#32 } } ∧
    exec (.registerWrite (.vocabpad n) w) s = .next { s with cores := AMap.put s.cores n { c with vocabpad := x } }) ∧
  (∀ (s : State) (n : Nat) (p : Part) (w : DWord), s.boot = .running → AMap.look s.parts n = some p →
    let put (y : Part) : Host.Outcome State Fault Refusal := .next { s with parts := AMap.put s.parts n y }
    exec (.registerWrite (.ckptctl n) w) s = put { p with ckRate := rateOf (w.toNat % 2 ^ 32) } ∧
    exec (.registerWrite (.ckptbuf n) w) s = put { p with ckBuf := w &&& 0xFFFFFFFFFFFFF000#64 } ∧
    exec (.registerWrite (.ckptrsv n) w) s = put { p with ckRsv := w &&& 0xFFFFFFFFFFE00000#64 } ∧
    exec (.registerWrite (.hastat n) w) s = put { p with haErr := if w.toNat % 16 = 0 then p.haErr else 0 } ∧
    exec (.registerWrite (.drainsel n) w) s =
      .next { s with parts := AMap.put s.parts n { p with drainsel := w.setWidth 32 }, drainPart := some n } ∧
    exec (.registerWrite (.haqhead n) w) s = exec (.haqheadWrite n (w.setWidth 32)) s ∧
    (∀ i, answerEvent n (w.toNat / 2 ^ 60) (BitVec.ofNat 32 (w.toNat / 2 ^ 16)) (w.setWidth 16) = some i → exec (.registerWrite (.haresp n) w) s = exec i s) ∧
    (answerEvent n (w.toNat / 2 ^ 60) (BitVec.ofNat 32 (w.toNat / 2 ^ 16)) (w.setWidth 16) = none →
      ((∀ e ∈ p.haPending, e.1 ≠ w.setWidth 16) → exec (.registerWrite (.haresp n) w) s = put { p with haErr := 1 }) ∧
      ((∃ e ∈ p.haPending, e.1 = w.setWidth 16) → exec (.registerWrite (.haresp n) w) s = put { p with haErr := 2 }))) ∧
  (∀ (s : State) (n : Nat) (w : DWord) (i : RegTarget), AMap.look s.parts n = none →
    i ∈ [.ckptctl n, .ckptbuf n, .ckptrsv n, .hastat n, .drainsel n, .haqhead n, .haresp n] → exec (.registerWrite i w) s = .next s) ∧
  (∀ (s : State) (p v o : Nat) (w : DWord), o < 0x1000 →
    (p < 8 → exec (.registerWrite (.pfBar0 (0x80000 + 0x1000 * p + o)) w) s = exec (.registerWrite (registerAt (partBlock p) o) w) s) ∧
    (v < 64 → exec (.registerWrite (.pfBar0 (0x100000 + 0x1000 * v + o)) w) s = exec (.registerWrite (registerAt (vfBlock v) o) w) s)) ∧
  (∀ (s : State) (v o : Nat) (w : DWord), exec (.registerWrite (.vfBar0 v o) w) s = exec (.registerWrite (registerAt (vfBar v) o) w) s) ∧
  (∀ (s : State) (o : Nat) (w : DWord), ¬ (0x80000 ≤ o ∧ o < 0x88000) → ¬ (0x100000 ≤ o ∧ o < 0x140000) →
    exec (.registerWrite (.pfBar0 o) w) s = .next s ∧ s.pfBar0 o = 0#64) ∧
  (∀ (s : State), s.boot = .running → (∀ q ∈ s.parts, q.2.haHead < 256 ∧ q.2.haTail < 256 ∧ q.2.haErr < 16) →
    (∀ p v o, o < 0x1000 → (p < 8 → s.pfBar0 (0x80000 + 0x1000 * p + o) = readsAs s (registerAt (partBlock p) o)) ∧
      (v < 64 → s.pfBar0 (0x100000 + 0x1000 * v + o) = readsAs s (registerAt (vfBlock v) o))) ∧
    ∀ v o, s.vfBar0 v o = readsAs s (registerAt (vfBar v) o)) ∧
  (∀ (s : State) (v n o : Nat) (i : RegTarget) (w : DWord) (x : Word), s.boot ≠ .running →
    exec (.registerWrite i w) s = .next s ∧ exec (.pretimersWrite v x) s = .next s ∧ exec (.haqheadWrite n x) s = .next s ∧
      s.pfBar0 o = 0#64 ∧ s.vfBar0 v o = 0#64) ∧
  (∀ (s : State) (n : Nat) (p : Part) (x : Piece), s.drainPart = some n → AMap.look s.parts n = some p → p.pieces[p.drainsel.toNat]? = some x →
    s.drainWindow = (List.range 65536).map (drainedByte s p x))

/-- An answer of the host takes effect on the record that its tag names: resolve and abort close the translation entry, after
which the lines attached to it walk again or complete with XLATE; make-the-copy copies the page, start and discard queue and drop the trigger, piece-drained unfreezes its piece and after the last completes the
checkpoint. A tag that names no record sets ERR 1 and a KIND that does not fit ERR 2, with no other effect; HAQHEAD moves HEAD, or sets
ERR 3 where it would pass TAIL (R179, R325, R392 to R398). An ARG outside the record's pieces counts as a KIND that does not fit (the
model's choice).
Where the spec leaves it open the model's choice stands (log 87). -/
def Obligations.TheHostAnswers : Prop :=
  (∀ (i : Instr) (s : State) (n : Nat) (tag : BitVec 16) (p : Part), answerOf i = some (n, tag) → s.boot = .running → AMap.look s.parts n = some p →
    (∀ e ∈ p.haPending, e.1 ≠ tag) → exec i s = .next { s with parts := AMap.put s.parts n { p with haErr := 1 } }) ∧
  (∀ (i : Instr) (s : State) (n : Nat) (tag : BitVec 16) (p : Part) (k : HaKind) (pre post : List (BitVec 16 × HaKind)),
    answerOf i = some (n, tag) → s.boot = .running → PendingRec s n p tag k pre post → ¬ fitsRecord i k →
    exec i s = .next { s with parts := AMap.put s.parts n { p with haErr := 2 } }) ∧
  (∀ (i : Instr) (s : State) (n : Nat) (tag : BitVec 16), answerOf i = some (n, tag) → AMap.look s.parts n = none ∨ s.boot ≠ .running → exec i s = .next s) ∧
  (∀ (i : Instr) (s : State) (n : Nat) (x : Word) (tag : BitVec 16) (p : Part) (cl e : Nat) (g : BitVec 8) (pre post : List (BitVec 16 × HaKind)),
    i = .harespResolve n x tag ∨ i = .harespAbort n x tag → s.boot = .running → PendingRec s n p tag (.xlate cl e g) pre post → e < 256 →
    (¬ entryOpen (atCore s (4 * cl)) (e + 256 * g.toNat) → exec i s = .next (answered s n p pre post)) ∧
    (entryOpen (atCore s (4 * cl)) (e + 256 * g.toNat) → Serviceable (atCore s (4 * cl)) → (∀ q ∈ s.parts, q.2.pieces = []) → numbered s cl →
      ∃ t y more, exec i s = .next t ∧ ¬ entryOpen (atCore t (4 * cl)) (e + 256 * g.toNat) ∧ AMap.look t.parts n = some y ∧
        y.haPending = pre ++ post ++ more ∧ (i = .harespResolve n x tag → linesReplay s t cl e) ∧
        (i = .harespAbort n x tag → linesAborted s t cl e))) ∧
  (∀ (s : State) (n : Nat) (x : Word) (tag : BitVec 16) (p : Part) (r : CopyReq) (pre post : List (BitVec 16 × HaKind)),
    s.boot = .running → PendingRec s n p tag (.copy r) pre post → (∀ q ∈ s.parts, q.2.pieces = []) →
    (∀ q, s.pool r.vf r.t = some q → q.queue.Nodup) →
    ∃ t a y, exec (.harespMakeCopy n x tag) s = .next t ∧ CopyAnswer s t r a ∧ AMap.look t.parts n = some y ∧ y.haPending = pre ++ post ∧
      ∀ l, l ∈ ((t.pool r.vf r.t).map (·.queue)).getD [] → l.copying = some r.g → l.op.seq = some r.s →
        ∃ m, m ∈ ((s.pool r.vf r.t).map (·.queue)).getD [] ∧ m ≠ l ∧ m.copying = some r.g ∧ m.op.seq = some r.s) ∧
  (∀ (s : State) (n : Nat) (x : Word) (tag : BitVec 16) (p : Part) (v slot patch : Nat) (pre post : List (BitVec 16 × HaKind)),
    s.boot = .running → PendingRec s n p tag (.relaunch v slot patch) pre post →
    let g := graphSlot s v slot
    exec (.harespDiscardRun n x tag) s = .next (answered s n p pre post) ∧
    (g.loading ≠ none ∨ g.state = 0 ∨ g.state = 3 → exec (.harespStartRun n x tag) s = .next (answered s n p pre post)) ∧
    (g.loading = none → g.state ≠ 0 → g.state ≠ 3 → exec (.harespStartRun n x tag) s = .next (withSlot (answered s n p pre post) v slot
      (if 4 ≤ g.triggers.length then { g with err := 4 } else { g with triggers := g.triggers ++ [patch] })))) ∧
  (∀ (s : State) (n : Nat) (x : Word) (tag : BitVec 16) (p : Part) (first count : Nat) (y : Piece) (pre post : List (BitVec 16 × HaKind)),
    s.boot = .running → PendingRec s n p tag (.pieces first count) pre post → first ≤ x.toNat → x.toNat < first + count → p.ckState = 2 → p.pieces[x.toNat]? = some y →
    ∃ t, exec (.harespPieceDrained n x tag) s = .next t ∧
      drainEnds s t n { p with haPending := pre ++ post, pieces := p.pieces.set x.toNat { y with drained := true } } ∧ t.hostMem = s.hostMem) ∧
  (∀ (s : State) (n : Nat) (x : Word) (tag : BitVec 16) (p : Part) (first count : Nat) (pre post : List (BitVec 16 × HaKind)),
    s.boot = .running → PendingRec s n p tag (.pieces first count) pre post → first ≤ x.toNat → x.toNat < first + count → p.ckState ≠ 2 → p.pieces = [] →
    exec (.harespPieceDrained n x tag) s = .next (answered s n p pre post)) ∧
  (∀ (s : State) (n : Nat) (w : Word) (p : Part), s.boot = .running → AMap.look s.parts n = some p →
    (between p.haHead p.haTail < between p.haHead (w.toNat % 256) →
      exec (.haqheadWrite n w) s = .next { s with parts := AMap.put s.parts n { p with haErr := 3 } }) ∧
    (between p.haHead (w.toNat % 256) ≤ between p.haHead p.haTail → p.haWaiting = [] →
      exec (.haqheadWrite n w) s = .next { s with parts := AMap.put s.parts n { p with haHead := w.toNat % 256 } }) ∧
    (between p.haHead (w.toNat % 256) ≤ between p.haHead p.haTail → p.haHead < 256 → p.haTail < 256 → Coherent s → (∀ q ∈ s.parts, q.2.pieces = []) →
      p.pieces = [] →
      ∃ t y m, exec (.haqheadWrite n w) s = .next t ∧ RecordsWritten s t n { p with haHead := w.toNat % 256 } y m ∧
        t.parts = AMap.put s.parts n y ∧ onlyL1s s t ∧
        { t with cores := s.cores, mem := s.mem, poison := s.poison, brocade := s.brocade, parts := s.parts, out := s.out } = s)) ∧
  (∀ (s : State) (n : Nat) (w : Word), AMap.look s.parts n = none → exec (.haqheadWrite n w) s = .next s)

/-- POWER_ON starts the device or enters the safe state with every clock at its lowest step and the DEVCAP that was built; REPORT,
RETRAIN and FWUPDATE are served in the safe state alone, which DEVICE_RESET leaves; CLOCK_STEP moves the clock by 50 MHz within its
limits (R3, R405, R406, R410). Attestation requests are answered, a partition's measurement by its
image (R407). A PCIe link error fails the running checkpoints (R397), an
uncorrectable error poisons its sector (R402), another host's write reaches memory behind the slices (R401). What a RETRAIN trains,
what memory holds after a reset, and the response codes are the model's choice (log 48, 50). -/
def Obligations.TheDeviceStartsAndReports : Prop :=
  (∀ (s : State) (b : BootOutcome), s.boot = .off →
    ((∀ n, ¬ stageFailed b n) → ∃ w, exec (.powerOn b) s = .next { s with boot := .running, devcap := w } ∧
      trainedCap s.variant b.hbmStacks.getLsbD b.cxlPorts.getLsbD w) ∧
    (∀ n, stageFailed b n → ∃ w, exec (.powerOn b) s = .next { s with
        boot := .safe (BitVec.ofNat 32 n) (BitVec.ofNat 32 n) b.failingUnit, clockMHz := 525, devcap := w } ∧
      trainedCap s.variant (fun i => decide (n < 3) || b.hbmStacks.getLsbD i) (fun i => decide (n < 4) || b.cxlPorts.getLsbD i) w)) ∧
  (∀ (s : State) (b : BootOutcome), s.boot ≠ .off → exec (.powerOn b) s = .next s) ∧
  (∀ (s : State) (stage code unit : Word), s.boot = .safe stage code unit →
    exec .report s = .next { s with out := s.out ++ [.selfTest stage code unit s.devcap] } ∧
    (∃ w hbms ports, exec .retrain s = .next { s with devcap := w, out := s.out ++ [.mailbox true 0] } ∧ trainedCap s.variant hbms ports w) ∧
    (∀ bs, (imagePasses bs → exec (.fwupdate bs) s = .next { s with out := s.out ++ [.mailbox true 0] }) ∧
      (¬ imagePasses bs → exec (.fwupdate bs) s = .next { s with out := s.out ++ [.mailbox false 0] }))) ∧
  (∀ (s : State), (∀ stage code unit, s.boot ≠ .safe stage code unit) →
    exec .report s = .next s ∧ exec .retrain s = .next s ∧ ∀ bs, exec (.fwupdate bs) s = .next s) ∧
  (∀ (s : State), ∃ m : Memory, exec .deviceReset s = .next { State.reset with
      variant := s.variant, devcap := capOf s.variant, mem := m, hostMem := s.hostMem, images := s.images, out := s.out, agenda := s.agenda
      draws := s.draws } ∧ m.wf ∧ ∀ a, (∀ c ∈ s.mem, c.1 ≠ a) → m.read a = 0#8) ∧
  (∀ (s : State) (up : Bool), exec (.clockStep up) s = .next (if s.boot = .running then
    { s with clockMHz := if up = true then Nat.min 1050 (s.clockMHz + 50) else Nat.max 525 (s.clockMHz - 50) } else s)) ∧
  (∀ (i : Instr) (s : State) (code : BitVec 8), spdmCode s i = some code →
    (s.boot ≠ .off → ∃ body, exec i s = .next { s with out := s.out ++ [.spdm code body] } ∧
      (∀ c, i = .unsupportedRequest c → body = [0x07#8, c]) ∧
      (∀ n p, i = .getMeasurements (16 + n) → AMap.look s.parts n = some p → body = Config.spdmBytes 6 (BitVec.ofNat 8 (16 + n) :: p.image))) ∧
    (s.boot = .off → exec i s = .next s)) ∧
  (∀ (s : State), (s.parts.map (fun p => p.1)).Nodup → ∃ t, exec .pcieLinkError s = .next t ∧ { t with parts := s.parts } = s ∧
    ∀ n, AMap.look t.parts n = (AMap.look s.parts n).map (fun p => if p.ckState = 1 ∨ p.ckState = 2 ∨ p.ckState = 5 then
      { p with ckState := 4, ckErr := 5, pieces := [], ckImage := none } else p)) ∧
  (∀ (s : State) (pa : Nat), pa < 768 * 2 ^ 30 ∨ (2 ^ 48 ≤ pa ∧ pa < 2 ^ 48 + 2 ^ 44) →
    ∃ t, exec (.uncorrectableError pa) s = .next t ∧ (∀ a, t.physByte a = s.physByte a) ∧
      (∀ a, a / 16 ≠ pa / 16 → t.physPoison a = s.physPoison a) ∧
      ((∀ l ∈ s.brocade, l.pa = some (pa / 64 * 64) → l.dirty.getLsbD (pa % 64 / 16) = false) → t.physPoison pa = true) ∧
      { t with poison := s.poison, brocade := s.brocade } = s) ∧
  (∀ (s : State) (pa : Nat), ¬ (pa < 768 * 2 ^ 30 ∨ (2 ^ 48 ≤ pa ∧ pa < 2 ^ 48 + 2 ^ 44)) →
    exec (.uncorrectableError pa) s = .fault (.noSuchAddress pa)) ∧
  (∀ (s : State) (pa : Nat) (bs : List Byte),
    (2 ^ 48 ≤ pa → pa + bs.length ≤ 2 ^ 48 + 2 ^ 44 → ∃ t, exec (.otherHostWrite pa bs) s = .next t ∧ { t with mem := s.mem } = s ∧
      ∀ a, t.mem.read a = written s.mem.read pa bs a) ∧
    (bs ≠ [] → pa < 768 * 2 ^ 30 → exec (.otherHostWrite pa bs) s = .next s) ∧
    (bs ≠ [] → ¬ (pa < 768 * 2 ^ 30 ∨ (2 ^ 48 ≤ pa ∧ pa < 2 ^ 48 + 2 ^ 44)) → exec (.otherHostWrite pa bs) s = .fault (.noSuchAddress pa)))

/-- HOST_CXL_MEM_WRITE and HOST_CXL_MEM_READ reach the physical memory of partitions for the PF, and for a VF its own virtual addresses,
through the home slices; a read that faults or meets poison is completed with poisoned data, and a write that faults is dropped (R399,
R400). CONTROLLER_DMA writes and reads under the system VF's keys, and NVME_COMMAND rejects other namespaces (R403, R404).
Where the spec leaves it open the model's choice stands (log 90). -/
def Obligations.MemoryIsReachedFromOutside : Prop :=
  (∀ (s : State) (v a : Nat) (bs : List Byte), Coherent s → (∀ q ∈ s.parts, q.2.pieces = []) →
    (∀ i < bs.length, ∃ q ∈ s.parts, q.2.owns (a + i) = true) →
    ∃ t, exec (.hostCxlMemWrite true v a bs) s = .next t ∧ t.out = s.out ++ [.writeDone] ∧ BytesWritten s { t with out := s.out } a bs) ∧
  (∀ (s : State) (v a i : Nat) (bs : List Byte), i < bs.length → (∀ q ∈ s.parts, q.2.owns (a + i) = false) →
    exec (.hostCxlMemWrite true v a bs) s = .next { s with out := s.out ++ [.writeDropped] }) ∧
  (∀ (s : State) (v va pa : Nat) (bs : List Byte), LineTakes s v va pa bs →
    (∃ t, exec (.hostCxlMemWrite false v va bs) s = .next t ∧ t.out = s.out ++ [.writeDone] ∧
      BytesWritten s { t with out := s.out } (pa + va % 64) bs) ∧
    ∀ n p, AMap.look s.parts n = some p → p.sysvf = v →
      ∃ t, exec (.controllerDma n va (.write bs)) s = .next t ∧ BytesWritten s t (pa + va % 64) bs) ∧
  (∀ (s : State) (v va : Nat) (protect : Bool) (bs : List Byte), va % 64 + bs.length ≤ 64 → s.walk v (va / 64 * 64) true = .fault protect → bs ≠ [] →
    exec (.hostCxlMemWrite false v va bs) s = .next { s with out := s.out ++ [.writeDropped] } ∧
    ∀ n p, AMap.look s.parts n = some p → p.sysvf = v → exec (.controllerDma n va (.write bs)) s = .next s) ∧
  (∀ (s : State) (v a n : Nat),
    ((∀ i < n, ∃ q ∈ s.parts, q.2.owns (a + i) = true) → (∀ i < n, s.physPoison (a + i) = false) →
      exec (.hostCxlMemRead true v a n) s = .next { s with out := s.out ++ [.readData ((List.range n).map (fun i => s.physByte (a + i))) false] }) ∧
    ((∃ i < n, (∀ q ∈ s.parts, q.2.owns (a + i) = false) ∨ s.physPoison (a + i) = true) →
      ∃ bs, bs.length = n ∧ exec (.hostCxlMemRead true v a n) s = .next { s with out := s.out ++ [.readData bs true] })) ∧
  (∀ (s : State) (v va n : Nat), Coherent s → vaGood s v va n →
    ∃ t, exec (.hostCxlMemRead false v va n) s = .next t ∧ onlyRead s { t with out := s.out } ∧ t.vfs = s.vfs ∧
      t.out = s.out ++ [.readData ((List.range n).map (fun i => (vaByte s v (va + i)).getD 0#8)) false]) ∧
  (∀ (s : State) (m v va n : Nat) (p : Part), AMap.look s.parts m = some p → p.sysvf = v → Coherent s → vaGood s v va n →
    ∃ t, exec (.controllerDma m va (.read n)) s = .next t ∧ onlyRead s { t with out := s.out } ∧ t.vfs = s.vfs ∧
      t.out = s.out ++ [.dmaData ((List.range n).map (fun i => (vaByte s v (va + i)).getD 0#8)) false]) ∧
  (∀ (s : State) (v va n i : Nat), Coherent s → i < n → vaGood s v va i → ¬ vaGood s v (va + i) 1 →
    (∃ t bs, exec (.hostCxlMemRead false v va n) s = .next t ∧ onlyRead s { t with out := s.out } ∧ t.vfs = s.vfs ∧ bs.length = n ∧
      t.out = s.out ++ [.readData bs true]) ∧
    ∀ m p, AMap.look s.parts m = some p → p.sysvf = v →
      ∃ t bs, exec (.controllerDma m va (.read n)) s = .next t ∧ onlyRead s { t with out := s.out } ∧ t.vfs = s.vfs ∧ bs.length = n ∧
        t.out = s.out ++ [.dmaData bs true]) ∧
  (∀ (s : State) (n ns : Nat) (p : Part), AMap.look s.parts n = some p →
    exec (.nvmeCommand n ns) s = .next { s with out := s.out ++ [.nvmeStatus (p.nvme.toNat % 2 ^ 32 == ns)] }) ∧
  (∀ (s : State) (n ns va : Nat) (x : DmaXfer), AMap.look s.parts n = none →
    exec (.nvmeCommand n ns) s = .next s ∧ exec (.controllerDma n va x) s = .next s)

/-- The encoder gives a word to exactly the instructions that have one, the decoder reads back from it the instruction with every
operand at every value, and the encoder gives back every word that the decoder accepts: no bit of an encoding
is dropped, and no word has two meanings under one SEL (R31, R47 to R53). -/
def Obligations.DecodingAndEncodingAgree : Prop :=
  (∀ (i : Instr), (encode i).isSome = true ↔ (streamOf i).isSome = true) ∧
  (∀ (i : Instr) (w : Word), encode i = some w → decodeSel (encodeSel i) w = some i) ∧
  (∀ (sel : BitVec 4) (w : Word) (i : Instr), decodeSel sel w = some i → encode i = some w ∧ decodeSel (encodeSel i) w = some i)

/-- Words of the spec's own examples decode to the instructions that the spec says they are, and a word of an unallocated major or
with a reserved bit set to none (R52, R54, R108, R130, R155, R176, R318). -/
def Obligations.ExampleWordsAreDecoded : Prop :=
  decodeWord 0x008007F8#32 = some (.hdr 0#12 15#4 15#4 false) ∧
  decodeWord 0x07020206#32 = some (.iadd ⟨false, 0#2⟩ 8#7 4#7 6#7) ∧
  decodeWord 0x4A6C4404#32 = some (.icmp ⟨false, 2#2⟩ 6#4 1#3 8#7 4#7) ∧
  decodeWord 0x0E000080#32 = some (.ext 0#7 0#3 false false 1#4 0#4) ∧
  decodeWord 0x66891201#32 = some (.iaddi ⟨false, 3#2⟩ 9#7 9#7 1#9) ∧
  decodeWord 0x05824000#32 = some (.movi ⟨false, 0#2⟩ 2#7 0x4000#16) ∧
  decodeWord 0x02E00000#32 = some (.exit ⟨false, 0#2⟩) ∧
  decodeWord 0x00000000#32 = none ∧ decodeWord 0x1C000000#32 = none ∧ decodeWord 0x00800001#32 = none ∧ decodeWord 0x02800001#32 = none

/-- A step is one move of those that can come next: a core's turn in the cycle, which plans the cycle and issues the first slot of the
plan, a slot of the plan, the next cycle, or an event. A slot of a run runs the instruction that the word at the PC decodes to: alone,
under the EXT before it, or chained to another word, both then taking effect in one step or neither where one traps. A word that
decodes to none raises ILLEGAL_INSTRUCTION; HDR takes no issue cycle (R77). The front end runs its own words one at a time, and an event is run as it is; an outside
input is taken off the list as it is run (R31 to R35, R46, R50, R51, R54, R56). Which move comes next is a free choice of the model's
(log 11). -/
def Obligations.AStepRunsTheDecodedWord : Prop :=
  (∀ (s : State), (s.moves = [] → step s = .next s) ∧ (∀ m, s.moves = [m] → step s = doMove s m) ∧
    (2 ≤ s.moves.length → ∃ m ∈ s.moves, step s = doMove { s with draws := s.draws + 1 } m)) ∧
  (∀ (s : State) (core warp : Nat) (run : List Nat) (head : Bool) (p : List Word), Fetches s core run p →
    let pc := ((s.core core).th (run.headD 0)).pc
    let w := getAt p (slotOf pc) 0#32
    let b := began s core warp run head pc 1 (wordD w) pc
    wordC w = false → isExt w = false →
    (∀ i, decodeWord w = some i → isHdr w = true → issueRun s core warp run head =
      unwind s (exec i (inHand s core warp run head pc 1 pc (fun t => t)))) ∧
    (∀ i, decodeWord w = some i → isHdr w = false → issueRun s core warp run head = unwind s (exec i b)) ∧
    (decodeWord w = none → issueRun s core warp run head = unwind s (exec (.unallocatedEncoding false (slotOf pc)) b))) ∧
  (∀ (s : State) (core warp : Nat) (run : List Nat) (head : Bool) (p : List Word), Fetches s core run p →
    let pc := ((s.core core).th (run.headD 0)).pc
    let w := getAt p (slotOf pc) 0#32
    let v := getAt p (slotOf pc + 1) 0#32
    isExt w = true → wordC v = false →
    ∀ c3 rm sr sat g sel, decodeWord w = some (.ext c3 rm sr sat g sel) →
      ∃ bad, (bad = true ↔ 5 ≤ rm.toNat ∨ (sr = true ∧ rm ≠ 0#3)) ∧
      let b := began s core warp run head pc 2 (wordD v) (pc + 4#32)
      let x : State := { b with cur := { b.cur with ext := some ⟨c3, rm, sr, sat, g, sel⟩, extBad := bad } }
      (∀ i, decodeSel sel v = some i → issueRun s core warp run head = unwind s (exec i x)) ∧
      (decodeSel sel v = none → issueRun s core warp run head = unwind s (exec (.unallocatedEncoding false (slotOf pc + 1)) x))) ∧
  (∀ (s : State) (core warp : Nat) (run : List Nat) (head : Bool) (p : List Word) (i : Instr), Fetches s core run p →
    let pc := ((s.core core).th (run.headD 0)).pc
    let w := getAt p (slotOf pc) 0#32
    let v := getAt p (slotOf pc + 1) 0#32
    let b := began s core warp run head pc 2 (wordD v) (pc + 4#32)
    isExt w = true → decodeWord w = none → wordC v = false → decodeWord v = some i →
      issueRun s core warp run head = unwind s (exec i { b with cur := { b.cur with extBad := true } })) ∧
  (∀ (s : State) (core warp : Nat) (run : List Nat) (head : Bool) (p : List Word) (i j : Instr), Fetches s core run p →
    let pc := ((s.core core).th (run.headD 0)).pc
    let w := getAt p (slotOf pc) 0#32
    let v := getAt p (slotOf pc + 1) 0#32
    let b (here : Word) : State := began s core warp run head pc 2 (wordD w) here
    slotOf pc < 2 → wordC w = true → isExt w = false → wordC v = false → isExt v = false → majPipe (wordMaj w).toNat ≠ some .s →
    decodeWord w = some i → decodeWord v = some j →
    (∀ s1 s2 x, exec i (b pc) = .next s1 → exec j (b (pc + 4#32)) = .next s2 → s1.completed → s2.completed →
      exec j (s1.placeAt (pc + 4#32)) = .next x → x.completed → issueRun s core warp run head = .next x) ∧
    (∀ s1 s2 info n, exec i (b pc) = .next s1 → exec j (b (pc + 4#32)) = .next s2 →
      (s1.cur.status = .trapped info n ∧ ∀ k m, s2.cur.status ≠ .trapped k m) ∨
        (s2.cur.status = .trapped info n ∧ ∀ k m, s1.cur.status ≠ .trapped k m) →
      ∃ b0 x, b0 = s.beginGroup core run head warp pc 2 (wordD w).toNat ∧ x = b0.raise info (slotPc pc n) ∧
        issueRun s core warp run head = .next x)) ∧
  (∀ (s : State) (core l : Nat) (x : Launch) (f : FrontEnd) (p : List Word), (s.core core).fe = some f → (s.core core).launch = some l →
    s.launch l = some x → packetAt (x.segment true false 0#64) f.pc = some p → packetFault true p = none → f.pc.toNat % 4 = 0 →
    let w := getAt p (slotOf f.pc) 0#32
    isExt w = false →
    (∀ i, decodeWord w = some i → isHdr w = true → issueFe s core = unlessWaiting s (exec i (inHandFront s core f f))) ∧
    (∀ i, decodeWord w = some i → isHdr w = false → issueFe s core = unlessWaiting s (exec i (beganFront s core f (wordD w)))) ∧
    (decodeWord w = none →
      issueFe s core = unlessWaiting s (exec (.unallocatedEncoding false (slotOf f.pc)) (beganFront s core f (wordD w))))) ∧
  (∀ (s : State) (core warp : Nat) (run : List Nat) (head : Bool), (s.issuing core).isSome = true → run ≠ [] →
    (∀ u ∈ run, AMap.has (s.core core).threads u = true ∧ ((s.core core).th u).ready (s.core core).clock = true ∧
      ((s.core core).th u).sameRun ((s.core core).th (run.headD 0)) = true ∧
      ((s.core core).th (run.headD 0)).sameRun ((s.core core).th u) = true) →
    doMove s (.slot (.run core warp run head)) = slotDone core (issueRun { s with plan := s.plan.drop 1 } core warp run head)) ∧
  (∀ (s : State) (core : Nat), (s.issuing core).isSome = true →
    doMove s (.slot (.fe core)) = slotDone core (issueFe { s with plan := s.plan.drop 1 } core)) ∧
  (∀ (s : State) (core : Nat) (x : Launch), s.issuing core = some x →
    let turn : State := ({ s with arb := s.arb.erase core } : State).markPlan core (s.planCore core x)
    (∀ h, s.hdrSlot core x = some h → doMove s (.arb core) = issueSlot s h) ∧
    (∀ h rest, s.hdrSlot core x = none → (s.planCore core x).slots = h :: rest →
      doMove s (.arb core) = doMove { turn with plan := h :: rest } (.slot h))) ∧
  (∀ (s : State) (i : Instr), doMove s (.event i) = exec i { s with
    cur := { Cur.idle with draw := s.draws }, draws := s.draws + 1, agenda := if isInput i = true then s.inputs.drop 1 else s.agenda })

/-- Every instruction and every event answers a next state in every state, but for two events that name an address no memory stands
at (R401, R402); so every step does. -/
def Obligations.NothingStopsButAnAddressThatIsNot : Prop :=
  let absent (pa : Nat) : Prop := ¬ (pa < 768 * 2 ^ 30 ∨ (2 ^ 48 ≤ pa ∧ pa < 2 ^ 48 + 2 ^ 44))
  (∀ (i : Instr) (s : State), (∃ t, exec i s = .next t) ∨
    ∃ pa, exec i s = .fault (.noSuchAddress pa) ∧ absent pa ∧ (i = .uncorrectableError pa ∨ ∃ a bs, i = .otherHostWrite a bs)) ∧
  (∀ (s : State), GoesOn s ∨ ∃ pa, step s = .fault (.noSuchAddress pa) ∧ absent pa)

/-- VFWEIGHT holds a credit of 1 to 255, 16 after reset, and a write of 0 stores 1 (R103). PRETIMERS holds KILL, GRACE and SLICE as
they are written, KILL raised to the least whole number of ms above the grace time where it is not greater; it is 50, 200 and 100 after
reset, a GRACE of 0 halts by force at once and a SLICE of 0 never ends (R364). -/
def Obligations.WeightsAndTimersAreStored : Prop :=
  (∀ (s : State) (v : Nat) (w : DWord), s.boot = .running →
    ∃ t, exec (.registerWrite (.vfweight v) w) s = .next t ∧ { t with vfs := s.vfs } = s ∧
      (t.vf v).weight = (if w.extractLsb' 0 8 = 0#8 then 1 else (w.extractLsb' 0 8).toNat) ∧ 1 ≤ (t.vf v).weight ∧ (t.vf v).weight ≤ 255 ∧
      { (t.vf v) with weight := (s.vf v).weight } = s.vf v ∧ ∀ u, u ≠ v → t.vf u = s.vf u) ∧
  (∀ (s : State) (v : Nat) (w : Word), s.boot = .running →
    ∃ t k, exec (.pretimersWrite v w) s = .next t ∧ { t with vfs := s.vfs } = s ∧
      timerFields (t.vf v).pretimers = (k, (timerFields w).2) ∧
      ((timerFields w).2.1.toNat < 100 * (timerFields w).1.toNat → k = (timerFields w).1) ∧
      (100 * (timerFields w).1.toNat ≤ (timerFields w).2.1.toNat →
        k.toNat = (timerFields w).2.1.toNat / 100 + 1 ∧ k.toNat ≤ 41) ∧
      { (t.vf v) with pretimers := (s.vf v).pretimers } = s.vf v ∧ ∀ u, u ≠ v → t.vf u = s.vf u) ∧
  (∀ (v : Nat), (State.reset.vf v).weight = 16 ∧ (State.reset.vf v).pretimers = 0x0C832064#32 ∧
    timerFields (State.reset.vf v).pretimers = (50#10, 200#12, 100#10)) ∧
  (∀ (s : State) (v : Nat), v < 64 → (s.vf v).ctx = 1 →
    ((timerFields (s.vf v).pretimers).2.2 = 0#10 → exec (.sliceExpiry v) s = .next s) ∧
    ((timerFields (s.vf v).pretimers).2.2 ≠ 0#10 → (s.partOfVf v).isSome = true → crowds s v →
      ∃ t, exec (.sliceExpiry v) s = .next t ∧ (t.vf v).rung = if (timerFields (s.vf v).pretimers).2.1 = 0#12 then 2 else 1))

/-- After reset DEVCAP is that of a CZ-4, the clock is at its full rate, every memory has its form, no thread stands anywhere and nothing
is loaded; the one step that can come next is the start-up of the device, with an outcome that the model leaves free (R2, R3, R405; the
variant and the empty memories are the model's choice, log 1, 2, 5). -/
def Obligations.ResetAwaitsPowerOn : Prop :=
  State.reset.memoriesWf ∧ State.reset.boot = .off ∧ State.reset.devcap = 0x0FFFFFFF#32 ∧ State.reset.clockMHz = 1050 ∧
  (∀ a, State.reset.mem.read a = 0#8 ∧ State.reset.physByte a = 0#8 ∧ State.reset.physPoison a = false) ∧
  (∀ k, State.reset.core k = Core.reset ∧ (State.reset.core k).threads = [] ∧ (State.reset.core k).launch = none) ∧
  (∃ b, State.reset.moves = [.event (.powerOn b)] ∧
    step State.reset = exec (.powerOn b) { State.reset with cur := { Cur.idle with draw := 0 }, draws := 1 }) ∧
  (∃ t, step State.reset = .next t ∧ t.boot ≠ .off ∧ t.memoriesWf ∧ t.cores = [] ∧ t.launches = [])

/-- Every step keeps the one form of every memory: device memory, host memory, the scratchpad of every core, and those held in saved
contexts and in images (R6, R173; the form is the model's own, log 1). -/
def Obligations.EveryStepKeepsTheMemoriesForm : Prop :=
  (∀ (i : Instr) (s t : State), s.memoriesWf → exec i s = .next t → t.memoriesWf) ∧
  (∀ (s t : State), s.memoriesWf → step s = .next t → t.memoriesWf)

/-- The device leaves the safe state only by reset, and goes on running until one; nothing changes its variant, only start-up, reset and
RETRAIN change DEVCAP, and the clock stays from 525 to 1,050 MHz (R3, R405, R406, R410). -/
def Obligations.TheSafeStateIsLeftByResetAlone : Prop :=
  (∀ (i : Instr) (s t : State), exec i s = .next t → i ≠ .deviceReset →
    (∀ stage code unit, s.boot = .safe stage code unit → t.boot = .safe stage code unit) ∧ (s.boot = .running → t.boot = .running) ∧
    ((∀ b, i ≠ .powerOn b) → t.boot = s.boot ∧ (i ≠ .retrain → t.devcap = s.devcap))) ∧
  (∀ (i : Instr) (s t : State), exec i s = .next t → t.variant = s.variant ∧
    (525 ≤ s.clockMHz → s.clockMHz ≤ 1050 → 525 ≤ t.clockMHz ∧ t.clockMHz ≤ 1050)) ∧
  (∀ (s t : State) (stage code unit : Word), step s = .next t → s.boot = .safe stage code unit →
    s.inputs.head? ≠ some .deviceReset → t.boot = .safe stage code unit ∧ t.variant = s.variant)
end

