-- ==== Sys2Proof/Laws/Encoding.lean ====
section
/-! SUPPORT. The fields of an encoded word, format by format: reading a field back gives what was put there. -/

namespace Sys2Proof

theorem bit_eq_one (b : Bool) : (bit b == 1#1) = b := by cases b <;> rfl

theorem extract_append_low {m n : Nat} (x : BitVec m) (y : BitVec n) (lo len : Nat) (h : lo + len ≤ n) :
    (x ++ y).extractLsb' lo len = y.extractLsb' lo len := by
  apply BitVec.eq_of_getLsbD_eq
  intro i hi
  have : lo + i < n := by omega
  simp [BitVec.getLsbD_append, this, hi]

theorem extract_append_high {m n : Nat} (x : BitVec m) (y : BitVec n) (lo len : Nat) (h : n ≤ lo) :
    (x ++ y).extractLsb' lo len = x.extractLsb' (lo - n) len := by
  apply BitVec.eq_of_getLsbD_eq
  intro i hi
  have h2 : ¬ lo + i < n := by omega
  have h3 : lo + i - n = lo - n + i := by omega
  simp [BitVec.getLsbD_append, h2, h3, hi]

theorem extract_all {n : Nat} (x : BitVec n) : x.extractLsb' 0 n = x := by
  apply BitVec.eq_of_getLsbD_eq
  intro i hi
  simp [hi]

section

set_option linter.unusedSimpArgs false

@[simp] theorem encH_c (c d m wait setA setB y res) : wordC (encH c d m wait setA setB y res) = c := by
  show (BitVec.extractLsb' (n := 1 + 2 + 6 + 12 + 4 + 4 + 1 + 2) 31 1 (bit c ++ d ++ m ++ wait ++ setA ++ setB ++ bit y ++ res) == 1#1) = c
  simp (disch := decide) only [extract_append_low, extract_append_high, Nat.reduceSub, extract_all]
  exact bit_eq_one c

@[simp] theorem encH_d (c d m wait setA setB y res) : wordD (encH c d m wait setA setB y res) = d := by
  show BitVec.extractLsb' (n := 1 + 2 + 6 + 12 + 4 + 4 + 1 + 2) 29 2 (bit c ++ d ++ m ++ wait ++ setA ++ setB ++ bit y ++ res) = d
  simp (disch := decide) only [extract_append_low, extract_append_high, Nat.reduceSub, extract_all]

@[simp] theorem encH_maj (c d m wait setA setB y res) : wordMaj (encH c d m wait setA setB y res) = m := by
  show BitVec.extractLsb' (n := 1 + 2 + 6 + 12 + 4 + 4 + 1 + 2) 23 6 (bit c ++ d ++ m ++ wait ++ setA ++ setB ++ bit y ++ res) = m
  simp (disch := decide) only [extract_append_low, extract_append_high, Nat.reduceSub, extract_all]

@[simp] theorem encH_wait (c d m wait setA setB y res) : hWait (encH c d m wait setA setB y res) = wait := by
  show BitVec.extractLsb' (n := 1 + 2 + 6 + 12 + 4 + 4 + 1 + 2) 11 12 (bit c ++ d ++ m ++ wait ++ setA ++ setB ++ bit y ++ res) = wait
  simp (disch := decide) only [extract_append_low, extract_append_high, Nat.reduceSub, extract_all]

@[simp] theorem encH_setA (c d m wait setA setB y res) : hSetA (encH c d m wait setA setB y res) = setA := by
  show BitVec.extractLsb' (n := 1 + 2 + 6 + 12 + 4 + 4 + 1 + 2) 7 4 (bit c ++ d ++ m ++ wait ++ setA ++ setB ++ bit y ++ res) = setA
  simp (disch := decide) only [extract_append_low, extract_append_high, Nat.reduceSub, extract_all]

@[simp] theorem encH_setB (c d m wait setA setB y res) : hSetB (encH c d m wait setA setB y res) = setB := by
  show BitVec.extractLsb' (n := 1 + 2 + 6 + 12 + 4 + 4 + 1 + 2) 3 4 (bit c ++ d ++ m ++ wait ++ setA ++ setB ++ bit y ++ res) = setB
  simp (disch := decide) only [extract_append_low, extract_append_high, Nat.reduceSub, extract_all]

@[simp] theorem encH_y (c d m wait setA setB y res) : hY (encH c d m wait setA setB y res) = y := by
  show (BitVec.extractLsb' (n := 1 + 2 + 6 + 12 + 4 + 4 + 1 + 2) 2 1 (bit c ++ d ++ m ++ wait ++ setA ++ setB ++ bit y ++ res) == 1#1) = y
  simp (disch := decide) only [extract_append_low, extract_append_high, Nat.reduceSub, extract_all]
  exact bit_eq_one y

@[simp] theorem encH_res (c d m wait setA setB y res) : hRes (encH c d m wait setA setB y res) = res := by
  show BitVec.extractLsb' (n := 1 + 2 + 6 + 12 + 4 + 4 + 1 + 2) 0 2 (bit c ++ d ++ m ++ wait ++ setA ++ setB ++ bit y ++ res) = res
  simp (disch := decide) only [extract_append_low, extract_append_high, Nat.reduceSub, extract_all]

@[simp] theorem encH_link (c d m wait setA setB y res) : wordLink (encH c d m wait setA setB y res) = ⟨c, d⟩ := by simp [wordLink]

@[simp] theorem encV_c (c d m fn dst a b) : wordC (encV c d m fn dst a b) = c := by
  show (BitVec.extractLsb' (n := 1 + 2 + 6 + 2 + 7 + 7 + 7) 31 1 (bit c ++ d ++ m ++ fn ++ dst ++ a ++ b) == 1#1) = c
  simp (disch := decide) only [extract_append_low, extract_append_high, Nat.reduceSub, extract_all]
  exact bit_eq_one c

@[simp] theorem encV_d (c d m fn dst a b) : wordD (encV c d m fn dst a b) = d := by
  show BitVec.extractLsb' (n := 1 + 2 + 6 + 2 + 7 + 7 + 7) 29 2 (bit c ++ d ++ m ++ fn ++ dst ++ a ++ b) = d
  simp (disch := decide) only [extract_append_low, extract_append_high, Nat.reduceSub, extract_all]

@[simp] theorem encV_maj (c d m fn dst a b) : wordMaj (encV c d m fn dst a b) = m := by
  show BitVec.extractLsb' (n := 1 + 2 + 6 + 2 + 7 + 7 + 7) 23 6 (bit c ++ d ++ m ++ fn ++ dst ++ a ++ b) = m
  simp (disch := decide) only [extract_append_low, extract_append_high, Nat.reduceSub, extract_all]

@[simp] theorem encV_fn (c d m fn dst a b) : BitVec.extractLsb' 21 2 (encV c d m fn dst a b) = fn := by
  show BitVec.extractLsb' (n := 1 + 2 + 6 + 2 + 7 + 7 + 7) 21 2 (bit c ++ d ++ m ++ fn ++ dst ++ a ++ b) = fn
  simp (disch := decide) only [extract_append_low, extract_append_high, Nat.reduceSub, extract_all]

@[simp] theorem encV_dst (c d m fn dst a b) : vDst (encV c d m fn dst a b) = dst := by
  show BitVec.extractLsb' (n := 1 + 2 + 6 + 2 + 7 + 7 + 7) 14 7 (bit c ++ d ++ m ++ fn ++ dst ++ a ++ b) = dst
  simp (disch := decide) only [extract_append_low, extract_append_high, Nat.reduceSub, extract_all]

@[simp] theorem encV_a (c d m fn dst a b) : vA (encV c d m fn dst a b) = a := by
  show BitVec.extractLsb' (n := 1 + 2 + 6 + 2 + 7 + 7 + 7) 7 7 (bit c ++ d ++ m ++ fn ++ dst ++ a ++ b) = a
  simp (disch := decide) only [extract_append_low, extract_append_high, Nat.reduceSub, extract_all]

@[simp] theorem encV_b (c d m fn dst a b) : vB (encV c d m fn dst a b) = b := by
  show BitVec.extractLsb' (n := 1 + 2 + 6 + 2 + 7 + 7 + 7) 0 7 (bit c ++ d ++ m ++ fn ++ dst ++ a ++ b) = b
  simp (disch := decide) only [extract_append_low, extract_append_high, Nat.reduceSub, extract_all]

@[simp] theorem encV_link (c d m fn dst a b) : wordLink (encV c d m fn dst a b) = ⟨c, d⟩ := by simp [wordLink]

@[simp] theorem encI_c (c d m dst a imm) : wordC (encI c d m dst a imm) = c := by
  show (BitVec.extractLsb' (n := 1 + 2 + 6 + 7 + 7 + 9) 31 1 (bit c ++ d ++ m ++ dst ++ a ++ imm) == 1#1) = c
  simp (disch := decide) only [extract_append_low, extract_append_high, Nat.reduceSub, extract_all]
  exact bit_eq_one c

@[simp] theorem encI_d (c d m dst a imm) : wordD (encI c d m dst a imm) = d := by
  show BitVec.extractLsb' (n := 1 + 2 + 6 + 7 + 7 + 9) 29 2 (bit c ++ d ++ m ++ dst ++ a ++ imm) = d
  simp (disch := decide) only [extract_append_low, extract_append_high, Nat.reduceSub, extract_all]

@[simp] theorem encI_maj (c d m dst a imm) : wordMaj (encI c d m dst a imm) = m := by
  show BitVec.extractLsb' (n := 1 + 2 + 6 + 7 + 7 + 9) 23 6 (bit c ++ d ++ m ++ dst ++ a ++ imm) = m
  simp (disch := decide) only [extract_append_low, extract_append_high, Nat.reduceSub, extract_all]

@[simp] theorem encI_dst (c d m dst a imm) : iDst (encI c d m dst a imm) = dst := by
  show BitVec.extractLsb' (n := 1 + 2 + 6 + 7 + 7 + 9) 16 7 (bit c ++ d ++ m ++ dst ++ a ++ imm) = dst
  simp (disch := decide) only [extract_append_low, extract_append_high, Nat.reduceSub, extract_all]

@[simp] theorem encI_a (c d m dst a imm) : iA (encI c d m dst a imm) = a := by
  show BitVec.extractLsb' (n := 1 + 2 + 6 + 7 + 7 + 9) 9 7 (bit c ++ d ++ m ++ dst ++ a ++ imm) = a
  simp (disch := decide) only [extract_append_low, extract_append_high, Nat.reduceSub, extract_all]

@[simp] theorem encI_imm (c d m dst a imm) : iImm (encI c d m dst a imm) = imm := by
  show BitVec.extractLsb' (n := 1 + 2 + 6 + 7 + 7 + 9) 0 9 (bit c ++ d ++ m ++ dst ++ a ++ imm) = imm
  simp (disch := decide) only [extract_append_low, extract_append_high, Nat.reduceSub, extract_all]

@[simp] theorem encI_link (c d m dst a imm) : wordLink (encI c d m dst a imm) = ⟨c, d⟩ := by simp [wordLink]

@[simp] theorem encK_c (c d m dst imm) : wordC (encK c d m dst imm) = c := by
  show (BitVec.extractLsb' (n := 1 + 2 + 6 + 7 + 16) 31 1 (bit c ++ d ++ m ++ dst ++ imm) == 1#1) = c
  simp (disch := decide) only [extract_append_low, extract_append_high, Nat.reduceSub, extract_all]
  exact bit_eq_one c

@[simp] theorem encK_d (c d m dst imm) : wordD (encK c d m dst imm) = d := by
  show BitVec.extractLsb' (n := 1 + 2 + 6 + 7 + 16) 29 2 (bit c ++ d ++ m ++ dst ++ imm) = d
  simp (disch := decide) only [extract_append_low, extract_append_high, Nat.reduceSub, extract_all]

@[simp] theorem encK_maj (c d m dst imm) : wordMaj (encK c d m dst imm) = m := by
  show BitVec.extractLsb' (n := 1 + 2 + 6 + 7 + 16) 23 6 (bit c ++ d ++ m ++ dst ++ imm) = m
  simp (disch := decide) only [extract_append_low, extract_append_high, Nat.reduceSub, extract_all]

@[simp] theorem encK_dst (c d m dst imm) : kDst (encK c d m dst imm) = dst := by
  show BitVec.extractLsb' (n := 1 + 2 + 6 + 7 + 16) 16 7 (bit c ++ d ++ m ++ dst ++ imm) = dst
  simp (disch := decide) only [extract_append_low, extract_append_high, Nat.reduceSub, extract_all]

@[simp] theorem encK_imm (c d m dst imm) : kImm (encK c d m dst imm) = imm := by
  show BitVec.extractLsb' (n := 1 + 2 + 6 + 7 + 16) 0 16 (bit c ++ d ++ m ++ dst ++ imm) = imm
  simp (disch := decide) only [extract_append_low, extract_append_high, Nat.reduceSub, extract_all]

@[simp] theorem encK_link (c d m dst imm) : wordLink (encK c d m dst imm) = ⟨c, d⟩ := by simp [wordLink]

@[simp] theorem encB_c (c d m p n off) : wordC (encB c d m p n off) = c := by
  show (BitVec.extractLsb' (n := 1 + 2 + 6 + 3 + 1 + 19) 31 1 (bit c ++ d ++ m ++ p ++ bit n ++ off) == 1#1) = c
  simp (disch := decide) only [extract_append_low, extract_append_high, Nat.reduceSub, extract_all]
  exact bit_eq_one c

@[simp] theorem encB_d (c d m p n off) : wordD (encB c d m p n off) = d := by
  show BitVec.extractLsb' (n := 1 + 2 + 6 + 3 + 1 + 19) 29 2 (bit c ++ d ++ m ++ p ++ bit n ++ off) = d
  simp (disch := decide) only [extract_append_low, extract_append_high, Nat.reduceSub, extract_all]

@[simp] theorem encB_maj (c d m p n off) : wordMaj (encB c d m p n off) = m := by
  show BitVec.extractLsb' (n := 1 + 2 + 6 + 3 + 1 + 19) 23 6 (bit c ++ d ++ m ++ p ++ bit n ++ off) = m
  simp (disch := decide) only [extract_append_low, extract_append_high, Nat.reduceSub, extract_all]

@[simp] theorem encB_p (c d m p n off) : bP (encB c d m p n off) = p := by
  show BitVec.extractLsb' (n := 1 + 2 + 6 + 3 + 1 + 19) 20 3 (bit c ++ d ++ m ++ p ++ bit n ++ off) = p
  simp (disch := decide) only [extract_append_low, extract_append_high, Nat.reduceSub, extract_all]

@[simp] theorem encB_n (c d m p n off) : bN (encB c d m p n off) = n := by
  show (BitVec.extractLsb' (n := 1 + 2 + 6 + 3 + 1 + 19) 19 1 (bit c ++ d ++ m ++ p ++ bit n ++ off) == 1#1) = n
  simp (disch := decide) only [extract_append_low, extract_append_high, Nat.reduceSub, extract_all]
  exact bit_eq_one n

@[simp] theorem encB_off (c d m p n off) : bOff (encB c d m p n off) = off := by
  show BitVec.extractLsb' (n := 1 + 2 + 6 + 3 + 1 + 19) 0 19 (bit c ++ d ++ m ++ p ++ bit n ++ off) = off
  simp (disch := decide) only [extract_append_low, extract_append_high, Nat.reduceSub, extract_all]

@[simp] theorem encB_link (c d m p n off) : wordLink (encB c d m p n off) = ⟨c, d⟩ := by simp [wordLink]

@[simp] theorem encM_c (c d m data buf idx f sz) : wordC (encM c d m data buf idx f sz) = c := by
  show (BitVec.extractLsb' (n := 1 + 2 + 6 + 7 + 5 + 7 + 1 + 3) 31 1 (bit c ++ d ++ m ++ data ++ buf ++ idx ++ bit f ++ sz) == 1#1) = c
  simp (disch := decide) only [extract_append_low, extract_append_high, Nat.reduceSub, extract_all]
  exact bit_eq_one c

@[simp] theorem encM_d (c d m data buf idx f sz) : wordD (encM c d m data buf idx f sz) = d := by
  show BitVec.extractLsb' (n := 1 + 2 + 6 + 7 + 5 + 7 + 1 + 3) 29 2 (bit c ++ d ++ m ++ data ++ buf ++ idx ++ bit f ++ sz) = d
  simp (disch := decide) only [extract_append_low, extract_append_high, Nat.reduceSub, extract_all]

@[simp] theorem encM_maj (c d m data buf idx f sz) : wordMaj (encM c d m data buf idx f sz) = m := by
  show BitVec.extractLsb' (n := 1 + 2 + 6 + 7 + 5 + 7 + 1 + 3) 23 6 (bit c ++ d ++ m ++ data ++ buf ++ idx ++ bit f ++ sz) = m
  simp (disch := decide) only [extract_append_low, extract_append_high, Nat.reduceSub, extract_all]

@[simp] theorem encM_data (c d m data buf idx f sz) : mData (encM c d m data buf idx f sz) = data := by
  show BitVec.extractLsb' (n := 1 + 2 + 6 + 7 + 5 + 7 + 1 + 3) 16 7 (bit c ++ d ++ m ++ data ++ buf ++ idx ++ bit f ++ sz) = data
  simp (disch := decide) only [extract_append_low, extract_append_high, Nat.reduceSub, extract_all]

@[simp] theorem encM_buf (c d m data buf idx f sz) : mBuf (encM c d m data buf idx f sz) = buf := by
  show BitVec.extractLsb' (n := 1 + 2 + 6 + 7 + 5 + 7 + 1 + 3) 11 5 (bit c ++ d ++ m ++ data ++ buf ++ idx ++ bit f ++ sz) = buf
  simp (disch := decide) only [extract_append_low, extract_append_high, Nat.reduceSub, extract_all]

@[simp] theorem encM_idx (c d m data buf idx f sz) : mIdx (encM c d m data buf idx f sz) = idx := by
  show BitVec.extractLsb' (n := 1 + 2 + 6 + 7 + 5 + 7 + 1 + 3) 4 7 (bit c ++ d ++ m ++ data ++ buf ++ idx ++ bit f ++ sz) = idx
  simp (disch := decide) only [extract_append_low, extract_append_high, Nat.reduceSub, extract_all]

@[simp] theorem encM_f (c d m data buf idx f sz) : mF (encM c d m data buf idx f sz) = f := by
  show (BitVec.extractLsb' (n := 1 + 2 + 6 + 7 + 5 + 7 + 1 + 3) 3 1 (bit c ++ d ++ m ++ data ++ buf ++ idx ++ bit f ++ sz) == 1#1) = f
  simp (disch := decide) only [extract_append_low, extract_append_high, Nat.reduceSub, extract_all]
  exact bit_eq_one f

@[simp] theorem encM_sz (c d m data buf idx f sz) : mSz (encM c d m data buf idx f sz) = sz := by
  show BitVec.extractLsb' (n := 1 + 2 + 6 + 7 + 5 + 7 + 1 + 3) 0 3 (bit c ++ d ++ m ++ data ++ buf ++ idx ++ bit f ++ sz) = sz
  simp (disch := decide) only [extract_append_low, extract_append_high, Nat.reduceSub, extract_all]

@[simp] theorem encM_link (c d m data buf idx f sz) : wordLink (encM c d m data buf idx f sz) = ⟨c, d⟩ := by simp [wordLink]

@[simp] theorem encX_c (c d m c3 rm sr sat g sel res) : wordC (encX c d m c3 rm sr sat g sel res) = c := by
  show (BitVec.extractLsb' (n := 1 + 2 + 6 + 7 + 3 + 1 + 1 + 4 + 4 + 3) 31 1 (bit c ++ d ++ m ++ c3 ++ rm ++ bit sr ++ bit sat ++ g ++ sel ++ res) == 1#1) = c
  simp (disch := decide) only [extract_append_low, extract_append_high, Nat.reduceSub, extract_all]
  exact bit_eq_one c

@[simp] theorem encX_d (c d m c3 rm sr sat g sel res) : wordD (encX c d m c3 rm sr sat g sel res) = d := by
  show BitVec.extractLsb' (n := 1 + 2 + 6 + 7 + 3 + 1 + 1 + 4 + 4 + 3) 29 2 (bit c ++ d ++ m ++ c3 ++ rm ++ bit sr ++ bit sat ++ g ++ sel ++ res) = d
  simp (disch := decide) only [extract_append_low, extract_append_high, Nat.reduceSub, extract_all]

@[simp] theorem encX_maj (c d m c3 rm sr sat g sel res) : wordMaj (encX c d m c3 rm sr sat g sel res) = m := by
  show BitVec.extractLsb' (n := 1 + 2 + 6 + 7 + 3 + 1 + 1 + 4 + 4 + 3) 23 6 (bit c ++ d ++ m ++ c3 ++ rm ++ bit sr ++ bit sat ++ g ++ sel ++ res) = m
  simp (disch := decide) only [extract_append_low, extract_append_high, Nat.reduceSub, extract_all]

@[simp] theorem encX_c3 (c d m c3 rm sr sat g sel res) : xC3 (encX c d m c3 rm sr sat g sel res) = c3 := by
  show BitVec.extractLsb' (n := 1 + 2 + 6 + 7 + 3 + 1 + 1 + 4 + 4 + 3) 16 7 (bit c ++ d ++ m ++ c3 ++ rm ++ bit sr ++ bit sat ++ g ++ sel ++ res) = c3
  simp (disch := decide) only [extract_append_low, extract_append_high, Nat.reduceSub, extract_all]

@[simp] theorem encX_rm (c d m c3 rm sr sat g sel res) : xRm (encX c d m c3 rm sr sat g sel res) = rm := by
  show BitVec.extractLsb' (n := 1 + 2 + 6 + 7 + 3 + 1 + 1 + 4 + 4 + 3) 13 3 (bit c ++ d ++ m ++ c3 ++ rm ++ bit sr ++ bit sat ++ g ++ sel ++ res) = rm
  simp (disch := decide) only [extract_append_low, extract_append_high, Nat.reduceSub, extract_all]

@[simp] theorem encX_sr (c d m c3 rm sr sat g sel res) : xSr (encX c d m c3 rm sr sat g sel res) = sr := by
  show (BitVec.extractLsb' (n := 1 + 2 + 6 + 7 + 3 + 1 + 1 + 4 + 4 + 3) 12 1 (bit c ++ d ++ m ++ c3 ++ rm ++ bit sr ++ bit sat ++ g ++ sel ++ res) == 1#1) = sr
  simp (disch := decide) only [extract_append_low, extract_append_high, Nat.reduceSub, extract_all]
  exact bit_eq_one sr

@[simp] theorem encX_sat (c d m c3 rm sr sat g sel res) : xSat (encX c d m c3 rm sr sat g sel res) = sat := by
  show (BitVec.extractLsb' (n := 1 + 2 + 6 + 7 + 3 + 1 + 1 + 4 + 4 + 3) 11 1 (bit c ++ d ++ m ++ c3 ++ rm ++ bit sr ++ bit sat ++ g ++ sel ++ res) == 1#1) = sat
  simp (disch := decide) only [extract_append_low, extract_append_high, Nat.reduceSub, extract_all]
  exact bit_eq_one sat

@[simp] theorem encX_g (c d m c3 rm sr sat g sel res) : xG (encX c d m c3 rm sr sat g sel res) = g := by
  show BitVec.extractLsb' (n := 1 + 2 + 6 + 7 + 3 + 1 + 1 + 4 + 4 + 3) 7 4 (bit c ++ d ++ m ++ c3 ++ rm ++ bit sr ++ bit sat ++ g ++ sel ++ res) = g
  simp (disch := decide) only [extract_append_low, extract_append_high, Nat.reduceSub, extract_all]

@[simp] theorem encX_sel (c d m c3 rm sr sat g sel res) : xSel (encX c d m c3 rm sr sat g sel res) = sel := by
  show BitVec.extractLsb' (n := 1 + 2 + 6 + 7 + 3 + 1 + 1 + 4 + 4 + 3) 3 4 (bit c ++ d ++ m ++ c3 ++ rm ++ bit sr ++ bit sat ++ g ++ sel ++ res) = sel
  simp (disch := decide) only [extract_append_low, extract_append_high, Nat.reduceSub, extract_all]

@[simp] theorem encX_res (c d m c3 rm sr sat g sel res) : xRes (encX c d m c3 rm sr sat g sel res) = res := by
  show BitVec.extractLsb' (n := 1 + 2 + 6 + 7 + 3 + 1 + 1 + 4 + 4 + 3) 0 3 (bit c ++ d ++ m ++ c3 ++ rm ++ bit sr ++ bit sat ++ g ++ sel ++ res) = res
  simp (disch := decide) only [extract_append_low, extract_append_high, Nat.reduceSub, extract_all]

@[simp] theorem encX_link (c d m c3 rm sr sat g sel res) : wordLink (encX c d m c3 rm sr sat g sel res) = ⟨c, d⟩ := by simp [wordLink]

@[simp] theorem encE_c (c d m op f node a res) : wordC (encE c d m op f node a res) = c := by
  show (BitVec.extractLsb' (n := 1 + 2 + 6 + 3 + 1 + 8 + 7 + 4) 31 1 (bit c ++ d ++ m ++ op ++ bit f ++ node ++ a ++ res) == 1#1) = c
  simp (disch := decide) only [extract_append_low, extract_append_high, Nat.reduceSub, extract_all]
  exact bit_eq_one c

@[simp] theorem encE_d (c d m op f node a res) : wordD (encE c d m op f node a res) = d := by
  show BitVec.extractLsb' (n := 1 + 2 + 6 + 3 + 1 + 8 + 7 + 4) 29 2 (bit c ++ d ++ m ++ op ++ bit f ++ node ++ a ++ res) = d
  simp (disch := decide) only [extract_append_low, extract_append_high, Nat.reduceSub, extract_all]

@[simp] theorem encE_maj (c d m op f node a res) : wordMaj (encE c d m op f node a res) = m := by
  show BitVec.extractLsb' (n := 1 + 2 + 6 + 3 + 1 + 8 + 7 + 4) 23 6 (bit c ++ d ++ m ++ op ++ bit f ++ node ++ a ++ res) = m
  simp (disch := decide) only [extract_append_low, extract_append_high, Nat.reduceSub, extract_all]

@[simp] theorem encE_op (c d m op f node a res) : BitVec.extractLsb' 20 3 (encE c d m op f node a res) = op := by
  show BitVec.extractLsb' (n := 1 + 2 + 6 + 3 + 1 + 8 + 7 + 4) 20 3 (bit c ++ d ++ m ++ op ++ bit f ++ node ++ a ++ res) = op
  simp (disch := decide) only [extract_append_low, extract_append_high, Nat.reduceSub, extract_all]

@[simp] theorem encE_f (c d m op f node a res) : eF (encE c d m op f node a res) = f := by
  show (BitVec.extractLsb' (n := 1 + 2 + 6 + 3 + 1 + 8 + 7 + 4) 19 1 (bit c ++ d ++ m ++ op ++ bit f ++ node ++ a ++ res) == 1#1) = f
  simp (disch := decide) only [extract_append_low, extract_append_high, Nat.reduceSub, extract_all]
  exact bit_eq_one f

@[simp] theorem encE_node (c d m op f node a res) : eNode (encE c d m op f node a res) = node := by
  show BitVec.extractLsb' (n := 1 + 2 + 6 + 3 + 1 + 8 + 7 + 4) 11 8 (bit c ++ d ++ m ++ op ++ bit f ++ node ++ a ++ res) = node
  simp (disch := decide) only [extract_append_low, extract_append_high, Nat.reduceSub, extract_all]

@[simp] theorem encE_a (c d m op f node a res) : eA (encE c d m op f node a res) = a := by
  show BitVec.extractLsb' (n := 1 + 2 + 6 + 3 + 1 + 8 + 7 + 4) 4 7 (bit c ++ d ++ m ++ op ++ bit f ++ node ++ a ++ res) = a
  simp (disch := decide) only [extract_append_low, extract_append_high, Nat.reduceSub, extract_all]

@[simp] theorem encE_res (c d m op f node a res) : eRes (encE c d m op f node a res) = res := by
  show BitVec.extractLsb' (n := 1 + 2 + 6 + 3 + 1 + 8 + 7 + 4) 0 4 (bit c ++ d ++ m ++ op ++ bit f ++ node ++ a ++ res) = res
  simp (disch := decide) only [extract_append_low, extract_append_high, Nat.reduceSub, extract_all]

@[simp] theorem encE_link (c d m op f node a res) : wordLink (encE c d m op f node a res) = ⟨c, d⟩ := by simp [wordLink]

@[simp] theorem encMX_c (c d m op acc mode f a opt) : wordC (encMX c d m op acc mode f a opt) = c := by
  show (BitVec.extractLsb' (n := 1 + 2 + 6 + 4 + 3 + 2 + 1 + 7 + 6) 31 1 (bit c ++ d ++ m ++ op ++ acc ++ mode ++ bit f ++ a ++ opt) == 1#1) = c
  simp (disch := decide) only [extract_append_low, extract_append_high, Nat.reduceSub, extract_all]
  exact bit_eq_one c

@[simp] theorem encMX_d (c d m op acc mode f a opt) : wordD (encMX c d m op acc mode f a opt) = d := by
  show BitVec.extractLsb' (n := 1 + 2 + 6 + 4 + 3 + 2 + 1 + 7 + 6) 29 2 (bit c ++ d ++ m ++ op ++ acc ++ mode ++ bit f ++ a ++ opt) = d
  simp (disch := decide) only [extract_append_low, extract_append_high, Nat.reduceSub, extract_all]

@[simp] theorem encMX_maj (c d m op acc mode f a opt) : wordMaj (encMX c d m op acc mode f a opt) = m := by
  show BitVec.extractLsb' (n := 1 + 2 + 6 + 4 + 3 + 2 + 1 + 7 + 6) 23 6 (bit c ++ d ++ m ++ op ++ acc ++ mode ++ bit f ++ a ++ opt) = m
  simp (disch := decide) only [extract_append_low, extract_append_high, Nat.reduceSub, extract_all]

@[simp] theorem encMX_op (c d m op acc mode f a opt) : BitVec.extractLsb' 19 4 (encMX c d m op acc mode f a opt) = op := by
  show BitVec.extractLsb' (n := 1 + 2 + 6 + 4 + 3 + 2 + 1 + 7 + 6) 19 4 (bit c ++ d ++ m ++ op ++ acc ++ mode ++ bit f ++ a ++ opt) = op
  simp (disch := decide) only [extract_append_low, extract_append_high, Nat.reduceSub, extract_all]

@[simp] theorem encMX_acc (c d m op acc mode f a opt) : mxAcc (encMX c d m op acc mode f a opt) = acc := by
  show BitVec.extractLsb' (n := 1 + 2 + 6 + 4 + 3 + 2 + 1 + 7 + 6) 16 3 (bit c ++ d ++ m ++ op ++ acc ++ mode ++ bit f ++ a ++ opt) = acc
  simp (disch := decide) only [extract_append_low, extract_append_high, Nat.reduceSub, extract_all]

@[simp] theorem encMX_mode (c d m op acc mode f a opt) : mxMode (encMX c d m op acc mode f a opt) = mode := by
  show BitVec.extractLsb' (n := 1 + 2 + 6 + 4 + 3 + 2 + 1 + 7 + 6) 14 2 (bit c ++ d ++ m ++ op ++ acc ++ mode ++ bit f ++ a ++ opt) = mode
  simp (disch := decide) only [extract_append_low, extract_append_high, Nat.reduceSub, extract_all]

@[simp] theorem encMX_f (c d m op acc mode f a opt) : mxF (encMX c d m op acc mode f a opt) = f := by
  show (BitVec.extractLsb' (n := 1 + 2 + 6 + 4 + 3 + 2 + 1 + 7 + 6) 13 1 (bit c ++ d ++ m ++ op ++ acc ++ mode ++ bit f ++ a ++ opt) == 1#1) = f
  simp (disch := decide) only [extract_append_low, extract_append_high, Nat.reduceSub, extract_all]
  exact bit_eq_one f

@[simp] theorem encMX_a (c d m op acc mode f a opt) : mxA (encMX c d m op acc mode f a opt) = a := by
  show BitVec.extractLsb' (n := 1 + 2 + 6 + 4 + 3 + 2 + 1 + 7 + 6) 6 7 (bit c ++ d ++ m ++ op ++ acc ++ mode ++ bit f ++ a ++ opt) = a
  simp (disch := decide) only [extract_append_low, extract_append_high, Nat.reduceSub, extract_all]

@[simp] theorem encMX_opt (c d m op acc mode f a opt) : mxOpt (encMX c d m op acc mode f a opt) = opt := by
  show BitVec.extractLsb' (n := 1 + 2 + 6 + 4 + 3 + 2 + 1 + 7 + 6) 0 6 (bit c ++ d ++ m ++ op ++ acc ++ mode ++ bit f ++ a ++ opt) = opt
  simp (disch := decide) only [extract_append_low, extract_append_high, Nat.reduceSub, extract_all]

@[simp] theorem encMX_link (c d m op acc mode f a opt) : wordLink (encMX c d m op acc mode f a opt) = ⟨c, d⟩ := by simp [wordLink]

@[simp] theorem encS_c (c d m op f dst a n) : wordC (encS c d m op f dst a n) = c := by
  show (BitVec.extractLsb' (n := 1 + 2 + 6 + 4 + 1 + 7 + 7 + 4) 31 1 (bit c ++ d ++ m ++ op ++ bit f ++ dst ++ a ++ n) == 1#1) = c
  simp (disch := decide) only [extract_append_low, extract_append_high, Nat.reduceSub, extract_all]
  exact bit_eq_one c

@[simp] theorem encS_d (c d m op f dst a n) : wordD (encS c d m op f dst a n) = d := by
  show BitVec.extractLsb' (n := 1 + 2 + 6 + 4 + 1 + 7 + 7 + 4) 29 2 (bit c ++ d ++ m ++ op ++ bit f ++ dst ++ a ++ n) = d
  simp (disch := decide) only [extract_append_low, extract_append_high, Nat.reduceSub, extract_all]

@[simp] theorem encS_maj (c d m op f dst a n) : wordMaj (encS c d m op f dst a n) = m := by
  show BitVec.extractLsb' (n := 1 + 2 + 6 + 4 + 1 + 7 + 7 + 4) 23 6 (bit c ++ d ++ m ++ op ++ bit f ++ dst ++ a ++ n) = m
  simp (disch := decide) only [extract_append_low, extract_append_high, Nat.reduceSub, extract_all]

@[simp] theorem encS_op (c d m op f dst a n) : BitVec.extractLsb' 19 4 (encS c d m op f dst a n) = op := by
  show BitVec.extractLsb' (n := 1 + 2 + 6 + 4 + 1 + 7 + 7 + 4) 19 4 (bit c ++ d ++ m ++ op ++ bit f ++ dst ++ a ++ n) = op
  simp (disch := decide) only [extract_append_low, extract_append_high, Nat.reduceSub, extract_all]

@[simp] theorem encS_f (c d m op f dst a n) : sF (encS c d m op f dst a n) = f := by
  show (BitVec.extractLsb' (n := 1 + 2 + 6 + 4 + 1 + 7 + 7 + 4) 18 1 (bit c ++ d ++ m ++ op ++ bit f ++ dst ++ a ++ n) == 1#1) = f
  simp (disch := decide) only [extract_append_low, extract_append_high, Nat.reduceSub, extract_all]
  exact bit_eq_one f

@[simp] theorem encS_dst (c d m op f dst a n) : sDst (encS c d m op f dst a n) = dst := by
  show BitVec.extractLsb' (n := 1 + 2 + 6 + 4 + 1 + 7 + 7 + 4) 11 7 (bit c ++ d ++ m ++ op ++ bit f ++ dst ++ a ++ n) = dst
  simp (disch := decide) only [extract_append_low, extract_append_high, Nat.reduceSub, extract_all]

@[simp] theorem encS_a (c d m op f dst a n) : sA (encS c d m op f dst a n) = a := by
  show BitVec.extractLsb' (n := 1 + 2 + 6 + 4 + 1 + 7 + 7 + 4) 4 7 (bit c ++ d ++ m ++ op ++ bit f ++ dst ++ a ++ n) = a
  simp (disch := decide) only [extract_append_low, extract_append_high, Nat.reduceSub, extract_all]

@[simp] theorem encS_n (c d m op f dst a n) : sN (encS c d m op f dst a n) = n := by
  show BitVec.extractLsb' (n := 1 + 2 + 6 + 4 + 1 + 7 + 7 + 4) 0 4 (bit c ++ d ++ m ++ op ++ bit f ++ dst ++ a ++ n) = n
  simp (disch := decide) only [extract_append_low, extract_append_high, Nat.reduceSub, extract_all]

@[simp] theorem encS_link (c d m op f dst a n) : wordLink (encS c d m op f dst a n) = ⟨c, d⟩ := by simp [wordLink]

@[simp] theorem encKV_c (c d m op f dst a pd pe) : wordC (encKV c d m op f dst a pd pe) = c := by
  show (BitVec.extractLsb' (n := 1 + 2 + 6 + 4 + 1 + 7 + 7 + 3 + 1) 31 1 (bit c ++ d ++ m ++ op ++ bit f ++ dst ++ a ++ pd ++ bit pe) == 1#1) = c
  simp (disch := decide) only [extract_append_low, extract_append_high, Nat.reduceSub, extract_all]
  exact bit_eq_one c

@[simp] theorem encKV_d (c d m op f dst a pd pe) : wordD (encKV c d m op f dst a pd pe) = d := by
  show BitVec.extractLsb' (n := 1 + 2 + 6 + 4 + 1 + 7 + 7 + 3 + 1) 29 2 (bit c ++ d ++ m ++ op ++ bit f ++ dst ++ a ++ pd ++ bit pe) = d
  simp (disch := decide) only [extract_append_low, extract_append_high, Nat.reduceSub, extract_all]

@[simp] theorem encKV_maj (c d m op f dst a pd pe) : wordMaj (encKV c d m op f dst a pd pe) = m := by
  show BitVec.extractLsb' (n := 1 + 2 + 6 + 4 + 1 + 7 + 7 + 3 + 1) 23 6 (bit c ++ d ++ m ++ op ++ bit f ++ dst ++ a ++ pd ++ bit pe) = m
  simp (disch := decide) only [extract_append_low, extract_append_high, Nat.reduceSub, extract_all]

@[simp] theorem encKV_op (c d m op f dst a pd pe) : BitVec.extractLsb' 19 4 (encKV c d m op f dst a pd pe) = op := by
  show BitVec.extractLsb' (n := 1 + 2 + 6 + 4 + 1 + 7 + 7 + 3 + 1) 19 4 (bit c ++ d ++ m ++ op ++ bit f ++ dst ++ a ++ pd ++ bit pe) = op
  simp (disch := decide) only [extract_append_low, extract_append_high, Nat.reduceSub, extract_all]

@[simp] theorem encKV_f (c d m op f dst a pd pe) : kvF (encKV c d m op f dst a pd pe) = f := by
  show (BitVec.extractLsb' (n := 1 + 2 + 6 + 4 + 1 + 7 + 7 + 3 + 1) 18 1 (bit c ++ d ++ m ++ op ++ bit f ++ dst ++ a ++ pd ++ bit pe) == 1#1) = f
  simp (disch := decide) only [extract_append_low, extract_append_high, Nat.reduceSub, extract_all]
  exact bit_eq_one f

@[simp] theorem encKV_dst (c d m op f dst a pd pe) : kvDst (encKV c d m op f dst a pd pe) = dst := by
  show BitVec.extractLsb' (n := 1 + 2 + 6 + 4 + 1 + 7 + 7 + 3 + 1) 11 7 (bit c ++ d ++ m ++ op ++ bit f ++ dst ++ a ++ pd ++ bit pe) = dst
  simp (disch := decide) only [extract_append_low, extract_append_high, Nat.reduceSub, extract_all]

@[simp] theorem encKV_a (c d m op f dst a pd pe) : kvA (encKV c d m op f dst a pd pe) = a := by
  show BitVec.extractLsb' (n := 1 + 2 + 6 + 4 + 1 + 7 + 7 + 3 + 1) 4 7 (bit c ++ d ++ m ++ op ++ bit f ++ dst ++ a ++ pd ++ bit pe) = a
  simp (disch := decide) only [extract_append_low, extract_append_high, Nat.reduceSub, extract_all]

@[simp] theorem encKV_pd (c d m op f dst a pd pe) : kvPd (encKV c d m op f dst a pd pe) = pd := by
  show BitVec.extractLsb' (n := 1 + 2 + 6 + 4 + 1 + 7 + 7 + 3 + 1) 1 3 (bit c ++ d ++ m ++ op ++ bit f ++ dst ++ a ++ pd ++ bit pe) = pd
  simp (disch := decide) only [extract_append_low, extract_append_high, Nat.reduceSub, extract_all]

@[simp] theorem encKV_pe (c d m op f dst a pd pe) : kvPe (encKV c d m op f dst a pd pe) = pe := by
  show (BitVec.extractLsb' (n := 1 + 2 + 6 + 4 + 1 + 7 + 7 + 3 + 1) 0 1 (bit c ++ d ++ m ++ op ++ bit f ++ dst ++ a ++ pd ++ bit pe) == 1#1) = pe
  simp (disch := decide) only [extract_append_low, extract_append_high, Nat.reduceSub, extract_all]
  exact bit_eq_one pe

@[simp] theorem encKV_link (c d m op f dst a pd pe) : wordLink (encKV c d m op f dst a pd pe) = ⟨c, d⟩ := by simp [wordLink]

/-- COND and PD of a compare stand in the place of DST (R130, R147). -/
theorem encV_cond (c d m fn a b) (k : BitVec 4) (p : BitVec 3) : cmpCond (encV c d m fn (k ++ p) a b) = k := by
  show BitVec.extractLsb' (n := 1 + 2 + 6 + 2 + (4 + 3) + 7 + 7) 17 4 (bit c ++ d ++ m ++ fn ++ (k ++ p) ++ a ++ b) = k
  rw [extract_append_high _ _ _ _ (by decide), extract_append_high _ _ _ _ (by decide), extract_append_low _ _ _ _ (by decide),
    extract_append_high _ _ _ _ (by decide)]
  exact extract_all k

theorem encV_pd (c d m fn a b) (k : BitVec 4) (p : BitVec 3) : cmpPd (encV c d m fn (k ++ p) a b) = p := by
  show BitVec.extractLsb' (n := 1 + 2 + 6 + 2 + (4 + 3) + 7 + 7) 14 3 (bit c ++ d ++ m ++ fn ++ (k ++ p) ++ a ++ b) = p
  rw [extract_append_high _ _ _ _ (by decide), extract_append_high _ _ _ _ (by decide), extract_append_low _ _ _ _ (by decide),
    extract_append_low _ _ _ _ (by decide)]
  exact extract_all p

/-- The bits of OPT: a T or K with the flags above it (R257 to R268). -/
theorem opt_low (x y : BitVec 1) (k : BitVec 4) : BitVec.extractLsb' (n := 6) 0 4 (x ++ y ++ k) = k := by
  show BitVec.extractLsb' (n := 1 + 1 + 4) 0 4 (x ++ y ++ k) = k
  simp (disch := decide) only [extract_append_low, extract_all]
theorem opt_mid (x y : BitVec 1) (k : BitVec 4) : BitVec.extractLsb' (n := 6) 4 1 (x ++ y ++ k) = y := by
  show BitVec.extractLsb' (n := 1 + 1 + 4) 4 1 (x ++ y ++ k) = y
  simp (disch := decide) only [extract_append_low, extract_append_high, Nat.reduceSub, extract_all]
theorem opt_high (x y : BitVec 1) (k : BitVec 4) : BitVec.extractLsb' (n := 6) 5 1 (x ++ y ++ k) = x := by
  show BitVec.extractLsb' (n := 1 + 1 + 4) 5 1 (x ++ y ++ k) = x
  simp (disch := decide) only [extract_append_high, Nat.reduceSub, extract_all]
theorem opt_pair_low (x : BitVec 2) (k : BitVec 4) : BitVec.extractLsb' (n := 6) 0 4 (x ++ k) = k := by
  show BitVec.extractLsb' (n := 2 + 4) 0 4 (x ++ k) = k
  simp (disch := decide) only [extract_append_low, extract_all]
theorem opt_pair_high (x : BitVec 2) (k : BitVec 4) : BitVec.extractLsb' (n := 6) 4 2 (x ++ k) = x := by
  show BitVec.extractLsb' (n := 2 + 4) 4 2 (x ++ k) = x
  simp (disch := decide) only [extract_append_high, Nat.reduceSub, extract_all]
theorem imm_low (x y : BitVec 8) : BitVec.extractLsb' (n := 16) 0 8 (x ++ y) = y := by
  show BitVec.extractLsb' (n := 8 + 8) 0 8 (x ++ y) = y
  simp (disch := decide) only [extract_append_low, extract_all]
theorem imm_high (x y : BitVec 8) : BitVec.extractLsb' (n := 16) 8 8 (x ++ y) = x := by
  show BitVec.extractLsb' (n := 8 + 8) 8 8 (x ++ y) = x
  simp (disch := decide) only [extract_append_high, Nat.reduceSub, extract_all]

end

end Sys2Proof
end

