-- ==== Sys2Proof/Laws/Maps.lean ====
section
/-! SUPPORT. What the finite maps and the memories answer after an update, and that every memory operation keeps the
canonical form. -/

namespace Sys2Proof.Machine

open Sys2Proof

/-! ## Finite maps -/

@[simp] theorem AMap.look_put_self {α : Type} (m : AMap α) (x : Nat) (v : α) : (m.put x v).look x = some v := by
  induction m with
  | nil => simp [AMap.put, AMap.look]
  | cons p t ih => obtain ⟨k, w⟩ := p; by_cases h : k = x <;> simp [AMap.put, AMap.look, h, ih]

theorem AMap.look_put_ne {α : Type} (m : AMap α) {x y : Nat} (v : α) (h : x ≠ y) : (m.put x v).look y = m.look y := by
  induction m with
  | nil => simp [AMap.put, AMap.look, h]
  | cons p t ih =>
    obtain ⟨k, w⟩ := p
    by_cases hk : k = x
    · subst hk; simp [AMap.put, AMap.look, h]
    · simp only [AMap.put, hk, if_false, AMap.look]; split
      · rfl
      · exact ih

@[simp] theorem AMap.lookD_put_self {α : Type} (m : AMap α) (x : Nat) (v d : α) : (m.put x v).lookD x d = v := by
  simp [AMap.lookD]

theorem AMap.lookD_put_ne {α : Type} (m : AMap α) {x y : Nat} (v d : α) (h : x ≠ y) :
    (m.put x v).lookD y d = m.lookD y d := by
  simp [AMap.lookD, AMap.look_put_ne m v h]

theorem AMap.lookD_put {α : Type} (m : AMap α) (x y : Nat) (v d : α) :
    (m.put x v).lookD y d = if x = y then v else m.lookD y d := by
  by_cases h : x = y
  · subst h; simp
  · simp [h, AMap.lookD_put_ne m v d h]

theorem AMap.look_upd_self {α : Type} (m : AMap α) (x : Nat) (f : α → α) : (m.upd x f).look x = (m.look x).map f := by
  induction m with
  | nil => rfl
  | cons p t ih => obtain ⟨k, w⟩ := p; by_cases h : k = x <;> simp [AMap.upd, AMap.look, h, ih]

theorem AMap.look_upd_ne {α : Type} (m : AMap α) {x y : Nat} (f : α → α) (h : x ≠ y) : (m.upd x f).look y = m.look y := by
  induction m with
  | nil => rfl
  | cons p t ih =>
    obtain ⟨k, w⟩ := p
    by_cases hk : k = x
    · subst hk; simp [AMap.upd, AMap.look, h]
    · simp only [AMap.upd, hk, if_false, AMap.look]; split
      · rfl
      · exact ih

theorem AMap.lookD_upd_ne {α : Type} (m : AMap α) {x y : Nat} (f : α → α) (d : α) (h : x ≠ y) :
    (m.upd x f).lookD y d = m.lookD y d := by
  simp [AMap.lookD, AMap.look_upd_ne m f h]

theorem AMap.lookD_upd_self {α : Type} (m : AMap α) (x : Nat) (f : α → α) (d : α) (h : m.has x = true) :
    (m.upd x f).lookD x d = f (m.lookD x d) := by
  simp only [AMap.has, Option.isSome_iff_exists] at h
  obtain ⟨v, hv⟩ := h
  simp [AMap.lookD, AMap.look_upd_self, hv]

@[simp] theorem AMap.has_upd {α : Type} (m : AMap α) (x y : Nat) (f : α → α) : (m.upd x f).has y = m.has y := by
  by_cases h : x = y
  · subst h; simp [AMap.has, AMap.look_upd_self]
  · simp [AMap.has, AMap.look_upd_ne m f h]

theorem AMap.has_put {α : Type} (m : AMap α) (x y : Nat) (v : α) : (m.put x v).has y = (decide (x = y) || m.has y) := by
  by_cases h : x = y
  · subst h; simp [AMap.has]
  · simp [AMap.has, AMap.look_put_ne m v h, h]

theorem AMap.mem_put {α : Type} (m : AMap α) (x : Nat) (v : α) (p : Nat × α) (h : p ∈ m.put x v) : p = (x, v) ∨ p ∈ m := by
  induction m with
  | nil => simpa [AMap.put] using h
  | cons q t ih =>
    obtain ⟨k, w⟩ := q
    by_cases hk : k = x
    · simp only [AMap.put, hk, if_true, List.mem_cons] at h
      exact h.imp_right (List.mem_cons_of_mem _)
    · simp only [AMap.put, hk, if_false, List.mem_cons] at h
      rcases h with h | h
      · exact .inr (by simp [h])
      · exact (ih h).imp_right (List.mem_cons_of_mem _)

/-! ## Memory -/

@[simp] theorem Memory.read_nil (a : Nat) : Memory.read [] a = 0#8 := rfl

/-- The byte at an address is that of the first part that lists it. -/
theorem Memory.read_append (m n : Memory) (x : Nat) :
    Memory.read (m ++ n) x = if x ∈ m.map (fun c => c.1) then m.read x else Memory.read n x := by
  induction m with
  | nil => simp
  | cons c t ih =>
    obtain ⟨k, v⟩ := c
    by_cases h : k = x
    · subst h; simp [Memory.read]
    · simp only [List.cons_append, Memory.read, if_neg h, ih, List.map_cons, List.mem_cons, Ne.symm h, false_or]

/-- An address that no cell lists reads as 0. -/
theorem Memory.read_unlisted (m : Memory) (x : Nat) (h : x ∉ m.map (fun c => c.1)) : m.read x = 0#8 := by
  induction m with
  | nil => rfl
  | cons c t ih =>
    obtain ⟨k, v⟩ := c
    simp only [List.map_cons, List.mem_cons, not_or] at h
    simp only [Memory.read, if_neg (Ne.symm h.1), ih h.2]

/-- Taking cells away changes no byte at an address that the test keeps. -/
theorem Memory.read_filter (m : Memory) (p : Nat → Bool) (x : Nat) (h : p x = true) :
    Memory.read (m.filter (fun c => p c.1)) x = m.read x := by
  induction m with
  | nil => rfl
  | cons c t ih =>
    obtain ⟨k, v⟩ := c
    by_cases hk : k = x
    · subst hk; simp [h, Memory.read]
    · by_cases hp : p k = true <;> simp [hp, Memory.read, hk, ih]

/-- What listed bytes read as. -/
theorem Memory.read_list (bs : List Byte) : ∀ (a x : Nat), Memory.read (Memory.list a bs) x =
    if a ≤ x ∧ x < a + bs.length then bs.getD (x - a) 0#8 else 0#8 := by
  induction bs with
  | nil => intro a x; simp [Memory.list]
  | cons b bs ih =>
    intro a x
    by_cases hx : x = a
    · subst hx
      by_cases hb : b = 0#8
      · simp [Memory.list, hb, ih, show ¬ (x + 1 ≤ x) by omega]
      · simp [Memory.list, hb, Memory.read]
    · have e : Memory.read (Memory.list a (b :: bs)) x = Memory.read (Memory.list (a + 1) bs) x := by
        by_cases hb : b = 0#8
        · simp [Memory.list, hb]
        · simp only [Memory.list, if_neg hb, Memory.read, if_neg (Ne.symm hx)]
      rw [e, ih]
      by_cases h : a + 1 ≤ x ∧ x < a + 1 + bs.length
      · rw [if_pos h, if_pos (by simp only [List.length_cons]; omega)]
        obtain ⟨i, hi⟩ : ∃ i, x - a = i + 1 := ⟨x - a - 1, by omega⟩
        rw [hi, show x - (a + 1) = i by omega]; simp
      · rw [if_neg h, if_neg (by simp only [List.length_cons]; omega)]

/-- Where listed bytes stand. -/
theorem Memory.mem_list (bs : List Byte) : ∀ (a : Nat) (c : Host.Cell), c ∈ Memory.list a bs → a ≤ c.1 ∧ c.1 < a + bs.length ∧ c.2 ≠ 0#8 := by
  induction bs with
  | nil => intro a c h; simp [Memory.list] at h
  | cons b bs ih =>
    intro a c h
    by_cases hb : b = 0#8
    · simp only [Memory.list, if_pos hb] at h
      obtain ⟨h1, h2, h3⟩ := ih _ _ h; exact ⟨by omega, by simp only [List.length_cons]; omega, h3⟩
    · simp only [Memory.list, if_neg hb, List.mem_cons] at h
      rcases h with rfl | h
      · simpa using hb
      · obtain ⟨h1, h2, h3⟩ := ih _ _ h; exact ⟨by omega, by simp only [List.length_cons]; omega, h3⟩

/-- Listed bytes have the canonical form. -/
theorem Memory.list_wf (bs : List Byte) : ∀ a, Memory.wf (Memory.list a bs) := by
  induction bs with
  | nil => intro a; simp [Memory.list, Memory.wf]
  | cons b bs ih =>
    intro a
    by_cases hb : b = 0#8
    · simpa only [Memory.list, if_pos hb] using ih (a + 1)
    · simp only [Memory.list, if_neg hb]
      refine ⟨List.pairwise_cons.2 ⟨fun c hc => ?_, (ih _).1⟩, fun c hc => ?_⟩
      · exact (Memory.mem_list bs _ c hc).1
      · rcases List.mem_cons.1 hc with rfl | hc
        · exact hb
        · exact (ih _).2 c hc

/-- What every byte reads as after bytes were written, in every memory. -/
theorem Memory.read_putBytes (m : Memory) (a : Nat) (bs : List Byte) (x : Nat) :
    (m.putBytes a bs).read x = if a ≤ x ∧ x < a + bs.length then bs.getD (x - a) 0#8 else m.read x := by
  have hl : x ∈ (Memory.list a bs).map (fun c => c.1) → a ≤ x ∧ x < a + bs.length := by
    intro h
    obtain ⟨c, hc, rfl⟩ := List.mem_map.1 h
    have := Memory.mem_list bs a c hc
    omega
  have low : x ∈ (m.filter (fun c => decide (c.1 < a))).map (fun c => c.1) → x < a := by
    intro h
    obtain ⟨c, hc, rfl⟩ := List.mem_map.1 h
    simpa using (List.mem_filter.1 hc).2
  unfold Memory.putBytes
  rw [Memory.read_append, Memory.read_append]
  simp only [List.map_append, List.mem_append]
  by_cases h : a ≤ x ∧ x < a + bs.length
  · rw [if_pos h, if_neg (fun e => absurd (low e) (by omega))]
    split
    · rw [Memory.read_list, if_pos h]
    · next hn =>
      rw [Memory.read_unlisted _ _ (fun e => by
        obtain ⟨c, hc, rfl⟩ := List.mem_map.1 e
        have := (List.mem_filter.1 hc).2
        simp at this; omega)]
      have := Memory.read_unlisted (Memory.list a bs) x (fun e => hn (.inr e))
      rw [Memory.read_list, if_pos h] at this
      exact this.symm
  · rw [if_neg h]
    by_cases hx : x < a
    · split
      · next hm =>
        split
        · exact Memory.read_filter m (fun k => decide (k < a)) x (by simpa using hx)
        · next hn => exact absurd (hm.resolve_left hn) (fun e => h (hl e))
      · next hm =>
        rw [Memory.read_unlisted _ _ (fun e => by
          obtain ⟨c, hc, rfl⟩ := List.mem_map.1 e
          have := (List.mem_filter.1 hc).2
          simp at this; omega)]
        have := Memory.read_filter m (fun k => decide (k < a)) x (by simpa using hx)
        rw [← this]
        exact (Memory.read_unlisted _ _ (fun e => hm (.inl e))).symm
    · rw [if_neg (fun e => e.elim (fun e => hx (low e)) (fun e => h (hl e)))]
      exact Memory.read_filter m (fun k => decide (a + bs.length ≤ k)) x (by simp; omega)

/-- What every byte reads as after a write. -/
theorem Memory.read_write (m : Memory) (a x : Nat) (b : Byte) : (m.write a b).read x = if x = a then b else m.read x := by
  unfold Memory.write
  rw [Memory.read_putBytes]
  by_cases h : x = a
  · subst h; simp
  · rw [if_neg (by simp only [List.length_singleton]; omega), if_neg h]

/-- A byte written reads back. -/
theorem Memory.read_write_self (m : Memory) (a : Nat) (b : Byte) : (m.write a b).read a = b := by simp [Memory.read_write]

/-- A write leaves every other byte as it was. -/
theorem Memory.read_write_ne (m : Memory) {a x : Nat} (b : Byte) (h : x ≠ a) : (m.write a b).read x = m.read x := by
  simp [Memory.read_write, h]

/-- Writing bytes leaves every byte outside them as it was. -/
theorem Memory.read_putBytes_outside (bs : List Byte) (m : Memory) (a x : Nat) (h : x < a ∨ a + bs.length ≤ x) :
    (m.putBytes a bs).read x = m.read x := by
  rw [Memory.read_putBytes, if_neg (by omega)]

/-- Bytes written read back. -/
theorem Memory.read_putBytes_inside (bs : List Byte) (m : Memory) (a i : Nat) (h : i < bs.length) :
    (m.putBytes a bs).read (a + i) = bs[i] := by
  rw [Memory.read_putBytes, if_pos (by omega)]
  simp [List.getD, h]

/-- Taking bytes away keeps the canonical form. -/
theorem Memory.filter_wf (m : Memory) (p : Host.Cell → Bool) (h : m.wf) : Memory.wf (m.filter p) :=
  ⟨h.1.filter _, fun c hc => h.2 c (List.mem_filter.1 hc).1⟩

/-- Writing bytes keeps the canonical form. -/
theorem Memory.putBytes_wf (bs : List Byte) (m : Memory) (a : Nat) (h : m.wf) : (m.putBytes a bs).wf := by
  have l := Memory.list_wf bs a
  have f1 := Memory.filter_wf m (fun c => decide (c.1 < a)) h
  have f2 := Memory.filter_wf m (fun c => decide (a + bs.length ≤ c.1)) h
  refine ⟨List.pairwise_append.2 ⟨List.pairwise_append.2 ⟨f1.1, l.1, fun c hc d hd => ?_⟩, f2.1, fun c hc d hd => ?_⟩, fun c hc => ?_⟩
  · have := (List.mem_filter.1 hc).2
    have := Memory.mem_list bs a d hd
    simp at *; omega
  · have hd := (List.mem_filter.1 hd).2
    rcases List.mem_append.1 hc with hc | hc
    · have := (List.mem_filter.1 hc).2
      simp at *; omega
    · have := Memory.mem_list bs a c hc
      simp at *; omega
  · rcases List.mem_append.1 hc with hc | hc
    · rcases List.mem_append.1 hc with hc | hc
      · exact f1.2 c hc
      · exact l.2 c hc
    · exact f2.2 c hc

/-- A write keeps the canonical form. -/
theorem Memory.write_wf (m : Memory) (a : Nat) (b : Byte) (h : m.wf) : (m.write a b).wf := Memory.putBytes_wf [b] m a h

end Sys2Proof.Machine
end

