-- ==== Sys2Proof/Laws/State.lean ====
section
/-! SUPPORT. What each update of the state leaves: one lemma per field per update. -/

namespace Sys2Proof.Machine

open Sys2Proof

/-! ## Updates of the machine -/

@[simp] theorem State.setCore_boot (s : State) (i : Nat) (x : Core) : (s.setCore i x).boot = s.boot := rfl
@[simp] theorem State.setCore_devcap (s : State) (i : Nat) (x : Core) : (s.setCore i x).devcap = s.devcap := rfl
@[simp] theorem State.setCore_variant (s : State) (i : Nat) (x : Core) : (s.setCore i x).variant = s.variant := rfl
@[simp] theorem State.setCore_clockMHz (s : State) (i : Nat) (x : Core) : (s.setCore i x).clockMHz = s.clockMHz := rfl
@[simp] theorem State.setCore_mem (s : State) (i : Nat) (x : Core) : (s.setCore i x).mem = s.mem := rfl
@[simp] theorem State.setCore_poison (s : State) (i : Nat) (x : Core) : (s.setCore i x).poison = s.poison := rfl
@[simp] theorem State.setCore_brocade (s : State) (i : Nat) (x : Core) : (s.setCore i x).brocade = s.brocade := rfl
@[simp] theorem State.setCore_parts (s : State) (i : Nat) (x : Core) : (s.setCore i x).parts = s.parts := rfl
@[simp] theorem State.setCore_quanta (s : State) (i : Nat) (x : Core) : (s.setCore i x).quanta = s.quanta := rfl
@[simp] theorem State.setCore_vfs (s : State) (i : Nat) (x : Core) : (s.setCore i x).vfs = s.vfs := rfl
@[simp] theorem State.setCore_dies (s : State) (i : Nat) (x : Core) : (s.setCore i x).dies = s.dies := rfl
@[simp] theorem State.setCore_clusters (s : State) (i : Nat) (x : Core) : (s.setCore i x).clusters = s.clusters := rfl
@[simp] theorem State.setCore_cores (s : State) (i : Nat) (x : Core) : (s.setCore i x).cores = AMap.put s.cores i x := rfl
@[simp] theorem State.setCore_launches (s : State) (i : Nat) (x : Core) : (s.setCore i x).launches = s.launches := rfl
@[simp] theorem State.setCore_nextLaunch (s : State) (i : Nat) (x : Core) : (s.setCore i x).nextLaunch = s.nextLaunch := rfl
@[simp] theorem State.setCore_sched (s : State) (i : Nat) (x : Core) : (s.setCore i x).sched = s.sched := rfl
@[simp] theorem State.setCore_saves (s : State) (i : Nat) (x : Core) : (s.setCore i x).saves = s.saves := rfl
@[simp] theorem State.setCore_images (s : State) (i : Nat) (x : Core) : (s.setCore i x).images = s.images := rfl
@[simp] theorem State.setCore_hostMem (s : State) (i : Nat) (x : Core) : (s.setCore i x).hostMem = s.hostMem := rfl
@[simp] theorem State.setCore_out (s : State) (i : Nat) (x : Core) : (s.setCore i x).out = s.out := rfl
@[simp] theorem State.setCore_agenda (s : State) (i : Nat) (x : Core) : (s.setCore i x).agenda = s.agenda := rfl
@[simp] theorem State.setCore_draws (s : State) (i : Nat) (x : Core) : (s.setCore i x).draws = s.draws := rfl
@[simp] theorem State.setCore_now (s : State) (i : Nat) (x : Core) : (s.setCore i x).now = s.now := rfl
@[simp] theorem State.setCore_arb (s : State) (i : Nat) (x : Core) : (s.setCore i x).arb = s.arb := rfl
@[simp] theorem State.setCore_drainPart (s : State) (i : Nat) (x : Core) : (s.setCore i x).drainPart = s.drainPart := rfl
@[simp] theorem State.setCore_sysOld (s : State) (i : Nat) (x : Core) : (s.setCore i x).sysOld = s.sysOld := rfl
@[simp] theorem State.setCore_plan (s : State) (i : Nat) (x : Core) : (s.setCore i x).plan = s.plan := rfl
@[simp] theorem State.setCore_cur (s : State) (i : Nat) (x : Core) : (s.setCore i x).cur = s.cur := rfl
@[simp] theorem State.setCluster_boot (s : State) (i : Nat) (x : Cluster) : (s.setCluster i x).boot = s.boot := rfl
@[simp] theorem State.setCluster_devcap (s : State) (i : Nat) (x : Cluster) : (s.setCluster i x).devcap = s.devcap := rfl
@[simp] theorem State.setCluster_variant (s : State) (i : Nat) (x : Cluster) : (s.setCluster i x).variant = s.variant := rfl
@[simp] theorem State.setCluster_clockMHz (s : State) (i : Nat) (x : Cluster) : (s.setCluster i x).clockMHz = s.clockMHz := rfl
@[simp] theorem State.setCluster_mem (s : State) (i : Nat) (x : Cluster) : (s.setCluster i x).mem = s.mem := rfl
@[simp] theorem State.setCluster_poison (s : State) (i : Nat) (x : Cluster) : (s.setCluster i x).poison = s.poison := rfl
@[simp] theorem State.setCluster_brocade (s : State) (i : Nat) (x : Cluster) : (s.setCluster i x).brocade = s.brocade := rfl
@[simp] theorem State.setCluster_parts (s : State) (i : Nat) (x : Cluster) : (s.setCluster i x).parts = s.parts := rfl
@[simp] theorem State.setCluster_quanta (s : State) (i : Nat) (x : Cluster) : (s.setCluster i x).quanta = s.quanta := rfl
@[simp] theorem State.setCluster_vfs (s : State) (i : Nat) (x : Cluster) : (s.setCluster i x).vfs = s.vfs := rfl
@[simp] theorem State.setCluster_dies (s : State) (i : Nat) (x : Cluster) : (s.setCluster i x).dies = s.dies := rfl
@[simp] theorem State.setCluster_clusters (s : State) (i : Nat) (x : Cluster) : (s.setCluster i x).clusters = AMap.put s.clusters i x := rfl
@[simp] theorem State.setCluster_cores (s : State) (i : Nat) (x : Cluster) : (s.setCluster i x).cores = s.cores := rfl
@[simp] theorem State.setCluster_launches (s : State) (i : Nat) (x : Cluster) : (s.setCluster i x).launches = s.launches := rfl
@[simp] theorem State.setCluster_nextLaunch (s : State) (i : Nat) (x : Cluster) : (s.setCluster i x).nextLaunch = s.nextLaunch := rfl
@[simp] theorem State.setCluster_sched (s : State) (i : Nat) (x : Cluster) : (s.setCluster i x).sched = s.sched := rfl
@[simp] theorem State.setCluster_saves (s : State) (i : Nat) (x : Cluster) : (s.setCluster i x).saves = s.saves := rfl
@[simp] theorem State.setCluster_images (s : State) (i : Nat) (x : Cluster) : (s.setCluster i x).images = s.images := rfl
@[simp] theorem State.setCluster_hostMem (s : State) (i : Nat) (x : Cluster) : (s.setCluster i x).hostMem = s.hostMem := rfl
@[simp] theorem State.setCluster_out (s : State) (i : Nat) (x : Cluster) : (s.setCluster i x).out = s.out := rfl
@[simp] theorem State.setCluster_agenda (s : State) (i : Nat) (x : Cluster) : (s.setCluster i x).agenda = s.agenda := rfl
@[simp] theorem State.setCluster_draws (s : State) (i : Nat) (x : Cluster) : (s.setCluster i x).draws = s.draws := rfl
@[simp] theorem State.setCluster_now (s : State) (i : Nat) (x : Cluster) : (s.setCluster i x).now = s.now := rfl
@[simp] theorem State.setCluster_arb (s : State) (i : Nat) (x : Cluster) : (s.setCluster i x).arb = s.arb := rfl
@[simp] theorem State.setCluster_drainPart (s : State) (i : Nat) (x : Cluster) : (s.setCluster i x).drainPart = s.drainPart := rfl
@[simp] theorem State.setCluster_sysOld (s : State) (i : Nat) (x : Cluster) : (s.setCluster i x).sysOld = s.sysOld := rfl
@[simp] theorem State.setCluster_plan (s : State) (i : Nat) (x : Cluster) : (s.setCluster i x).plan = s.plan := rfl
@[simp] theorem State.setCluster_cur (s : State) (i : Nat) (x : Cluster) : (s.setCluster i x).cur = s.cur := rfl
@[simp] theorem State.setVf_boot (s : State) (i : Nat) (x : VF) : (s.setVf i x).boot = s.boot := rfl
@[simp] theorem State.setVf_devcap (s : State) (i : Nat) (x : VF) : (s.setVf i x).devcap = s.devcap := rfl
@[simp] theorem State.setVf_variant (s : State) (i : Nat) (x : VF) : (s.setVf i x).variant = s.variant := rfl
@[simp] theorem State.setVf_clockMHz (s : State) (i : Nat) (x : VF) : (s.setVf i x).clockMHz = s.clockMHz := rfl
@[simp] theorem State.setVf_mem (s : State) (i : Nat) (x : VF) : (s.setVf i x).mem = s.mem := rfl
@[simp] theorem State.setVf_poison (s : State) (i : Nat) (x : VF) : (s.setVf i x).poison = s.poison := rfl
@[simp] theorem State.setVf_brocade (s : State) (i : Nat) (x : VF) : (s.setVf i x).brocade = s.brocade := rfl
@[simp] theorem State.setVf_parts (s : State) (i : Nat) (x : VF) : (s.setVf i x).parts = s.parts := rfl
@[simp] theorem State.setVf_quanta (s : State) (i : Nat) (x : VF) : (s.setVf i x).quanta = s.quanta := rfl
@[simp] theorem State.setVf_vfs (s : State) (i : Nat) (x : VF) : (s.setVf i x).vfs = AMap.put s.vfs i x := rfl
@[simp] theorem State.setVf_dies (s : State) (i : Nat) (x : VF) : (s.setVf i x).dies = s.dies := rfl
@[simp] theorem State.setVf_clusters (s : State) (i : Nat) (x : VF) : (s.setVf i x).clusters = s.clusters := rfl
@[simp] theorem State.setVf_cores (s : State) (i : Nat) (x : VF) : (s.setVf i x).cores = s.cores := rfl
@[simp] theorem State.setVf_launches (s : State) (i : Nat) (x : VF) : (s.setVf i x).launches = s.launches := rfl
@[simp] theorem State.setVf_nextLaunch (s : State) (i : Nat) (x : VF) : (s.setVf i x).nextLaunch = s.nextLaunch := rfl
@[simp] theorem State.setVf_sched (s : State) (i : Nat) (x : VF) : (s.setVf i x).sched = s.sched := rfl
@[simp] theorem State.setVf_saves (s : State) (i : Nat) (x : VF) : (s.setVf i x).saves = s.saves := rfl
@[simp] theorem State.setVf_images (s : State) (i : Nat) (x : VF) : (s.setVf i x).images = s.images := rfl
@[simp] theorem State.setVf_hostMem (s : State) (i : Nat) (x : VF) : (s.setVf i x).hostMem = s.hostMem := rfl
@[simp] theorem State.setVf_out (s : State) (i : Nat) (x : VF) : (s.setVf i x).out = s.out := rfl
@[simp] theorem State.setVf_agenda (s : State) (i : Nat) (x : VF) : (s.setVf i x).agenda = s.agenda := rfl
@[simp] theorem State.setVf_draws (s : State) (i : Nat) (x : VF) : (s.setVf i x).draws = s.draws := rfl
@[simp] theorem State.setVf_now (s : State) (i : Nat) (x : VF) : (s.setVf i x).now = s.now := rfl
@[simp] theorem State.setVf_arb (s : State) (i : Nat) (x : VF) : (s.setVf i x).arb = s.arb := rfl
@[simp] theorem State.setVf_drainPart (s : State) (i : Nat) (x : VF) : (s.setVf i x).drainPart = s.drainPart := rfl
@[simp] theorem State.setVf_sysOld (s : State) (i : Nat) (x : VF) : (s.setVf i x).sysOld = s.sysOld := rfl
@[simp] theorem State.setVf_plan (s : State) (i : Nat) (x : VF) : (s.setVf i x).plan = s.plan := rfl
@[simp] theorem State.setVf_cur (s : State) (i : Nat) (x : VF) : (s.setVf i x).cur = s.cur := rfl
@[simp] theorem State.setDie_boot (s : State) (i : Nat) (x : Die) : (s.setDie i x).boot = s.boot := rfl
@[simp] theorem State.setDie_devcap (s : State) (i : Nat) (x : Die) : (s.setDie i x).devcap = s.devcap := rfl
@[simp] theorem State.setDie_variant (s : State) (i : Nat) (x : Die) : (s.setDie i x).variant = s.variant := rfl
@[simp] theorem State.setDie_clockMHz (s : State) (i : Nat) (x : Die) : (s.setDie i x).clockMHz = s.clockMHz := rfl
@[simp] theorem State.setDie_mem (s : State) (i : Nat) (x : Die) : (s.setDie i x).mem = s.mem := rfl
@[simp] theorem State.setDie_poison (s : State) (i : Nat) (x : Die) : (s.setDie i x).poison = s.poison := rfl
@[simp] theorem State.setDie_brocade (s : State) (i : Nat) (x : Die) : (s.setDie i x).brocade = s.brocade := rfl
@[simp] theorem State.setDie_parts (s : State) (i : Nat) (x : Die) : (s.setDie i x).parts = s.parts := rfl
@[simp] theorem State.setDie_quanta (s : State) (i : Nat) (x : Die) : (s.setDie i x).quanta = s.quanta := rfl
@[simp] theorem State.setDie_vfs (s : State) (i : Nat) (x : Die) : (s.setDie i x).vfs = s.vfs := rfl
@[simp] theorem State.setDie_dies (s : State) (i : Nat) (x : Die) : (s.setDie i x).dies = AMap.put s.dies i x := rfl
@[simp] theorem State.setDie_clusters (s : State) (i : Nat) (x : Die) : (s.setDie i x).clusters = s.clusters := rfl
@[simp] theorem State.setDie_cores (s : State) (i : Nat) (x : Die) : (s.setDie i x).cores = s.cores := rfl
@[simp] theorem State.setDie_launches (s : State) (i : Nat) (x : Die) : (s.setDie i x).launches = s.launches := rfl
@[simp] theorem State.setDie_nextLaunch (s : State) (i : Nat) (x : Die) : (s.setDie i x).nextLaunch = s.nextLaunch := rfl
@[simp] theorem State.setDie_sched (s : State) (i : Nat) (x : Die) : (s.setDie i x).sched = s.sched := rfl
@[simp] theorem State.setDie_saves (s : State) (i : Nat) (x : Die) : (s.setDie i x).saves = s.saves := rfl
@[simp] theorem State.setDie_images (s : State) (i : Nat) (x : Die) : (s.setDie i x).images = s.images := rfl
@[simp] theorem State.setDie_hostMem (s : State) (i : Nat) (x : Die) : (s.setDie i x).hostMem = s.hostMem := rfl
@[simp] theorem State.setDie_out (s : State) (i : Nat) (x : Die) : (s.setDie i x).out = s.out := rfl
@[simp] theorem State.setDie_agenda (s : State) (i : Nat) (x : Die) : (s.setDie i x).agenda = s.agenda := rfl
@[simp] theorem State.setDie_draws (s : State) (i : Nat) (x : Die) : (s.setDie i x).draws = s.draws := rfl
@[simp] theorem State.setDie_now (s : State) (i : Nat) (x : Die) : (s.setDie i x).now = s.now := rfl
@[simp] theorem State.setDie_arb (s : State) (i : Nat) (x : Die) : (s.setDie i x).arb = s.arb := rfl
@[simp] theorem State.setDie_drainPart (s : State) (i : Nat) (x : Die) : (s.setDie i x).drainPart = s.drainPart := rfl
@[simp] theorem State.setDie_sysOld (s : State) (i : Nat) (x : Die) : (s.setDie i x).sysOld = s.sysOld := rfl
@[simp] theorem State.setDie_plan (s : State) (i : Nat) (x : Die) : (s.setDie i x).plan = s.plan := rfl
@[simp] theorem State.setDie_cur (s : State) (i : Nat) (x : Die) : (s.setDie i x).cur = s.cur := rfl
@[simp] theorem State.setQuantum_boot (s : State) (i : Nat) (x : Quantum) : (s.setQuantum i x).boot = s.boot := rfl
@[simp] theorem State.setQuantum_devcap (s : State) (i : Nat) (x : Quantum) : (s.setQuantum i x).devcap = s.devcap := rfl
@[simp] theorem State.setQuantum_variant (s : State) (i : Nat) (x : Quantum) : (s.setQuantum i x).variant = s.variant := rfl
@[simp] theorem State.setQuantum_clockMHz (s : State) (i : Nat) (x : Quantum) : (s.setQuantum i x).clockMHz = s.clockMHz := rfl
@[simp] theorem State.setQuantum_mem (s : State) (i : Nat) (x : Quantum) : (s.setQuantum i x).mem = s.mem := rfl
@[simp] theorem State.setQuantum_poison (s : State) (i : Nat) (x : Quantum) : (s.setQuantum i x).poison = s.poison := rfl
@[simp] theorem State.setQuantum_brocade (s : State) (i : Nat) (x : Quantum) : (s.setQuantum i x).brocade = s.brocade := rfl
@[simp] theorem State.setQuantum_parts (s : State) (i : Nat) (x : Quantum) : (s.setQuantum i x).parts = s.parts := rfl
@[simp] theorem State.setQuantum_quanta (s : State) (i : Nat) (x : Quantum) : (s.setQuantum i x).quanta = AMap.put s.quanta i x := rfl
@[simp] theorem State.setQuantum_vfs (s : State) (i : Nat) (x : Quantum) : (s.setQuantum i x).vfs = s.vfs := rfl
@[simp] theorem State.setQuantum_dies (s : State) (i : Nat) (x : Quantum) : (s.setQuantum i x).dies = s.dies := rfl
@[simp] theorem State.setQuantum_clusters (s : State) (i : Nat) (x : Quantum) : (s.setQuantum i x).clusters = s.clusters := rfl
@[simp] theorem State.setQuantum_cores (s : State) (i : Nat) (x : Quantum) : (s.setQuantum i x).cores = s.cores := rfl
@[simp] theorem State.setQuantum_launches (s : State) (i : Nat) (x : Quantum) : (s.setQuantum i x).launches = s.launches := rfl
@[simp] theorem State.setQuantum_nextLaunch (s : State) (i : Nat) (x : Quantum) : (s.setQuantum i x).nextLaunch = s.nextLaunch := rfl
@[simp] theorem State.setQuantum_sched (s : State) (i : Nat) (x : Quantum) : (s.setQuantum i x).sched = s.sched := rfl
@[simp] theorem State.setQuantum_saves (s : State) (i : Nat) (x : Quantum) : (s.setQuantum i x).saves = s.saves := rfl
@[simp] theorem State.setQuantum_images (s : State) (i : Nat) (x : Quantum) : (s.setQuantum i x).images = s.images := rfl
@[simp] theorem State.setQuantum_hostMem (s : State) (i : Nat) (x : Quantum) : (s.setQuantum i x).hostMem = s.hostMem := rfl
@[simp] theorem State.setQuantum_out (s : State) (i : Nat) (x : Quantum) : (s.setQuantum i x).out = s.out := rfl
@[simp] theorem State.setQuantum_agenda (s : State) (i : Nat) (x : Quantum) : (s.setQuantum i x).agenda = s.agenda := rfl
@[simp] theorem State.setQuantum_draws (s : State) (i : Nat) (x : Quantum) : (s.setQuantum i x).draws = s.draws := rfl
@[simp] theorem State.setQuantum_now (s : State) (i : Nat) (x : Quantum) : (s.setQuantum i x).now = s.now := rfl
@[simp] theorem State.setQuantum_arb (s : State) (i : Nat) (x : Quantum) : (s.setQuantum i x).arb = s.arb := rfl
@[simp] theorem State.setQuantum_drainPart (s : State) (i : Nat) (x : Quantum) : (s.setQuantum i x).drainPart = s.drainPart := rfl
@[simp] theorem State.setQuantum_sysOld (s : State) (i : Nat) (x : Quantum) : (s.setQuantum i x).sysOld = s.sysOld := rfl
@[simp] theorem State.setQuantum_plan (s : State) (i : Nat) (x : Quantum) : (s.setQuantum i x).plan = s.plan := rfl
@[simp] theorem State.setQuantum_cur (s : State) (i : Nat) (x : Quantum) : (s.setQuantum i x).cur = s.cur := rfl
@[simp] theorem State.setPart_boot (s : State) (i : Nat) (x : Part) : (s.setPart i x).boot = s.boot := rfl
@[simp] theorem State.setPart_devcap (s : State) (i : Nat) (x : Part) : (s.setPart i x).devcap = s.devcap := rfl
@[simp] theorem State.setPart_variant (s : State) (i : Nat) (x : Part) : (s.setPart i x).variant = s.variant := rfl
@[simp] theorem State.setPart_clockMHz (s : State) (i : Nat) (x : Part) : (s.setPart i x).clockMHz = s.clockMHz := rfl
@[simp] theorem State.setPart_mem (s : State) (i : Nat) (x : Part) : (s.setPart i x).mem = s.mem := rfl
@[simp] theorem State.setPart_poison (s : State) (i : Nat) (x : Part) : (s.setPart i x).poison = s.poison := rfl
@[simp] theorem State.setPart_brocade (s : State) (i : Nat) (x : Part) : (s.setPart i x).brocade = s.brocade := rfl
@[simp] theorem State.setPart_parts (s : State) (i : Nat) (x : Part) : (s.setPart i x).parts = AMap.put s.parts i x := rfl
@[simp] theorem State.setPart_quanta (s : State) (i : Nat) (x : Part) : (s.setPart i x).quanta = s.quanta := rfl
@[simp] theorem State.setPart_vfs (s : State) (i : Nat) (x : Part) : (s.setPart i x).vfs = s.vfs := rfl
@[simp] theorem State.setPart_dies (s : State) (i : Nat) (x : Part) : (s.setPart i x).dies = s.dies := rfl
@[simp] theorem State.setPart_clusters (s : State) (i : Nat) (x : Part) : (s.setPart i x).clusters = s.clusters := rfl
@[simp] theorem State.setPart_cores (s : State) (i : Nat) (x : Part) : (s.setPart i x).cores = s.cores := rfl
@[simp] theorem State.setPart_launches (s : State) (i : Nat) (x : Part) : (s.setPart i x).launches = s.launches := rfl
@[simp] theorem State.setPart_nextLaunch (s : State) (i : Nat) (x : Part) : (s.setPart i x).nextLaunch = s.nextLaunch := rfl
@[simp] theorem State.setPart_sched (s : State) (i : Nat) (x : Part) : (s.setPart i x).sched = s.sched := rfl
@[simp] theorem State.setPart_saves (s : State) (i : Nat) (x : Part) : (s.setPart i x).saves = s.saves := rfl
@[simp] theorem State.setPart_images (s : State) (i : Nat) (x : Part) : (s.setPart i x).images = s.images := rfl
@[simp] theorem State.setPart_hostMem (s : State) (i : Nat) (x : Part) : (s.setPart i x).hostMem = s.hostMem := rfl
@[simp] theorem State.setPart_out (s : State) (i : Nat) (x : Part) : (s.setPart i x).out = s.out := rfl
@[simp] theorem State.setPart_agenda (s : State) (i : Nat) (x : Part) : (s.setPart i x).agenda = s.agenda := rfl
@[simp] theorem State.setPart_draws (s : State) (i : Nat) (x : Part) : (s.setPart i x).draws = s.draws := rfl
@[simp] theorem State.setPart_now (s : State) (i : Nat) (x : Part) : (s.setPart i x).now = s.now := rfl
@[simp] theorem State.setPart_arb (s : State) (i : Nat) (x : Part) : (s.setPart i x).arb = s.arb := rfl
@[simp] theorem State.setPart_drainPart (s : State) (i : Nat) (x : Part) : (s.setPart i x).drainPart = s.drainPart := rfl
@[simp] theorem State.setPart_sysOld (s : State) (i : Nat) (x : Part) : (s.setPart i x).sysOld = s.sysOld := rfl
@[simp] theorem State.setPart_plan (s : State) (i : Nat) (x : Part) : (s.setPart i x).plan = s.plan := rfl
@[simp] theorem State.setPart_cur (s : State) (i : Nat) (x : Part) : (s.setPart i x).cur = s.cur := rfl
@[simp] theorem State.setLaunch_boot (s : State) (i : Nat) (x : Launch) : (s.setLaunch i x).boot = s.boot := rfl
@[simp] theorem State.setLaunch_devcap (s : State) (i : Nat) (x : Launch) : (s.setLaunch i x).devcap = s.devcap := rfl
@[simp] theorem State.setLaunch_variant (s : State) (i : Nat) (x : Launch) : (s.setLaunch i x).variant = s.variant := rfl
@[simp] theorem State.setLaunch_clockMHz (s : State) (i : Nat) (x : Launch) : (s.setLaunch i x).clockMHz = s.clockMHz := rfl
@[simp] theorem State.setLaunch_mem (s : State) (i : Nat) (x : Launch) : (s.setLaunch i x).mem = s.mem := rfl
@[simp] theorem State.setLaunch_poison (s : State) (i : Nat) (x : Launch) : (s.setLaunch i x).poison = s.poison := rfl
@[simp] theorem State.setLaunch_brocade (s : State) (i : Nat) (x : Launch) : (s.setLaunch i x).brocade = s.brocade := rfl
@[simp] theorem State.setLaunch_parts (s : State) (i : Nat) (x : Launch) : (s.setLaunch i x).parts = s.parts := rfl
@[simp] theorem State.setLaunch_quanta (s : State) (i : Nat) (x : Launch) : (s.setLaunch i x).quanta = s.quanta := rfl
@[simp] theorem State.setLaunch_vfs (s : State) (i : Nat) (x : Launch) : (s.setLaunch i x).vfs = s.vfs := rfl
@[simp] theorem State.setLaunch_dies (s : State) (i : Nat) (x : Launch) : (s.setLaunch i x).dies = s.dies := rfl
@[simp] theorem State.setLaunch_clusters (s : State) (i : Nat) (x : Launch) : (s.setLaunch i x).clusters = s.clusters := rfl
@[simp] theorem State.setLaunch_cores (s : State) (i : Nat) (x : Launch) : (s.setLaunch i x).cores = s.cores := rfl
@[simp] theorem State.setLaunch_launches (s : State) (i : Nat) (x : Launch) : (s.setLaunch i x).launches = AMap.put s.launches i x := rfl
@[simp] theorem State.setLaunch_nextLaunch (s : State) (i : Nat) (x : Launch) : (s.setLaunch i x).nextLaunch = s.nextLaunch := rfl
@[simp] theorem State.setLaunch_sched (s : State) (i : Nat) (x : Launch) : (s.setLaunch i x).sched = s.sched := rfl
@[simp] theorem State.setLaunch_saves (s : State) (i : Nat) (x : Launch) : (s.setLaunch i x).saves = s.saves := rfl
@[simp] theorem State.setLaunch_images (s : State) (i : Nat) (x : Launch) : (s.setLaunch i x).images = s.images := rfl
@[simp] theorem State.setLaunch_hostMem (s : State) (i : Nat) (x : Launch) : (s.setLaunch i x).hostMem = s.hostMem := rfl
@[simp] theorem State.setLaunch_out (s : State) (i : Nat) (x : Launch) : (s.setLaunch i x).out = s.out := rfl
@[simp] theorem State.setLaunch_agenda (s : State) (i : Nat) (x : Launch) : (s.setLaunch i x).agenda = s.agenda := rfl
@[simp] theorem State.setLaunch_draws (s : State) (i : Nat) (x : Launch) : (s.setLaunch i x).draws = s.draws := rfl
@[simp] theorem State.setLaunch_now (s : State) (i : Nat) (x : Launch) : (s.setLaunch i x).now = s.now := rfl
@[simp] theorem State.setLaunch_arb (s : State) (i : Nat) (x : Launch) : (s.setLaunch i x).arb = s.arb := rfl
@[simp] theorem State.setLaunch_drainPart (s : State) (i : Nat) (x : Launch) : (s.setLaunch i x).drainPart = s.drainPart := rfl
@[simp] theorem State.setLaunch_sysOld (s : State) (i : Nat) (x : Launch) : (s.setLaunch i x).sysOld = s.sysOld := rfl
@[simp] theorem State.setLaunch_plan (s : State) (i : Nat) (x : Launch) : (s.setLaunch i x).plan = s.plan := rfl
@[simp] theorem State.setLaunch_cur (s : State) (i : Nat) (x : Launch) : (s.setLaunch i x).cur = s.cur := rfl
@[simp] theorem State.onCore_boot (s : State) (i : Nat) (f : Core → Core) : (s.onCore i f).boot = s.boot := rfl
@[simp] theorem State.onCore_devcap (s : State) (i : Nat) (f : Core → Core) : (s.onCore i f).devcap = s.devcap := rfl
@[simp] theorem State.onCore_variant (s : State) (i : Nat) (f : Core → Core) : (s.onCore i f).variant = s.variant := rfl
@[simp] theorem State.onCore_clockMHz (s : State) (i : Nat) (f : Core → Core) : (s.onCore i f).clockMHz = s.clockMHz := rfl
@[simp] theorem State.onCore_mem (s : State) (i : Nat) (f : Core → Core) : (s.onCore i f).mem = s.mem := rfl
@[simp] theorem State.onCore_poison (s : State) (i : Nat) (f : Core → Core) : (s.onCore i f).poison = s.poison := rfl
@[simp] theorem State.onCore_brocade (s : State) (i : Nat) (f : Core → Core) : (s.onCore i f).brocade = s.brocade := rfl
@[simp] theorem State.onCore_parts (s : State) (i : Nat) (f : Core → Core) : (s.onCore i f).parts = s.parts := rfl
@[simp] theorem State.onCore_quanta (s : State) (i : Nat) (f : Core → Core) : (s.onCore i f).quanta = s.quanta := rfl
@[simp] theorem State.onCore_vfs (s : State) (i : Nat) (f : Core → Core) : (s.onCore i f).vfs = s.vfs := rfl
@[simp] theorem State.onCore_dies (s : State) (i : Nat) (f : Core → Core) : (s.onCore i f).dies = s.dies := rfl
@[simp] theorem State.onCore_clusters (s : State) (i : Nat) (f : Core → Core) : (s.onCore i f).clusters = s.clusters := rfl
@[simp] theorem State.onCore_launches (s : State) (i : Nat) (f : Core → Core) : (s.onCore i f).launches = s.launches := rfl
@[simp] theorem State.onCore_nextLaunch (s : State) (i : Nat) (f : Core → Core) : (s.onCore i f).nextLaunch = s.nextLaunch := rfl
@[simp] theorem State.onCore_sched (s : State) (i : Nat) (f : Core → Core) : (s.onCore i f).sched = s.sched := rfl
@[simp] theorem State.onCore_saves (s : State) (i : Nat) (f : Core → Core) : (s.onCore i f).saves = s.saves := rfl
@[simp] theorem State.onCore_images (s : State) (i : Nat) (f : Core → Core) : (s.onCore i f).images = s.images := rfl
@[simp] theorem State.onCore_hostMem (s : State) (i : Nat) (f : Core → Core) : (s.onCore i f).hostMem = s.hostMem := rfl
@[simp] theorem State.onCore_out (s : State) (i : Nat) (f : Core → Core) : (s.onCore i f).out = s.out := rfl
@[simp] theorem State.onCore_agenda (s : State) (i : Nat) (f : Core → Core) : (s.onCore i f).agenda = s.agenda := rfl
@[simp] theorem State.onCore_draws (s : State) (i : Nat) (f : Core → Core) : (s.onCore i f).draws = s.draws := rfl
@[simp] theorem State.onCore_now (s : State) (i : Nat) (f : Core → Core) : (s.onCore i f).now = s.now := rfl
@[simp] theorem State.onCore_arb (s : State) (i : Nat) (f : Core → Core) : (s.onCore i f).arb = s.arb := rfl
@[simp] theorem State.onCore_drainPart (s : State) (i : Nat) (f : Core → Core) : (s.onCore i f).drainPart = s.drainPart := rfl
@[simp] theorem State.onCore_sysOld (s : State) (i : Nat) (f : Core → Core) : (s.onCore i f).sysOld = s.sysOld := rfl
@[simp] theorem State.onCore_plan (s : State) (i : Nat) (f : Core → Core) : (s.onCore i f).plan = s.plan := rfl
@[simp] theorem State.onCore_cur (s : State) (i : Nat) (f : Core → Core) : (s.onCore i f).cur = s.cur := rfl
@[simp] theorem State.send_boot (s : State) (m : Message) : (s.send m).boot = s.boot := rfl
@[simp] theorem State.send_devcap (s : State) (m : Message) : (s.send m).devcap = s.devcap := rfl
@[simp] theorem State.send_variant (s : State) (m : Message) : (s.send m).variant = s.variant := rfl
@[simp] theorem State.send_clockMHz (s : State) (m : Message) : (s.send m).clockMHz = s.clockMHz := rfl
@[simp] theorem State.send_mem (s : State) (m : Message) : (s.send m).mem = s.mem := rfl
@[simp] theorem State.send_poison (s : State) (m : Message) : (s.send m).poison = s.poison := rfl
@[simp] theorem State.send_brocade (s : State) (m : Message) : (s.send m).brocade = s.brocade := rfl
@[simp] theorem State.send_parts (s : State) (m : Message) : (s.send m).parts = s.parts := rfl
@[simp] theorem State.send_quanta (s : State) (m : Message) : (s.send m).quanta = s.quanta := rfl
@[simp] theorem State.send_vfs (s : State) (m : Message) : (s.send m).vfs = s.vfs := rfl
@[simp] theorem State.send_dies (s : State) (m : Message) : (s.send m).dies = s.dies := rfl
@[simp] theorem State.send_clusters (s : State) (m : Message) : (s.send m).clusters = s.clusters := rfl
@[simp] theorem State.send_cores (s : State) (m : Message) : (s.send m).cores = s.cores := rfl
@[simp] theorem State.send_launches (s : State) (m : Message) : (s.send m).launches = s.launches := rfl
@[simp] theorem State.send_nextLaunch (s : State) (m : Message) : (s.send m).nextLaunch = s.nextLaunch := rfl
@[simp] theorem State.send_sched (s : State) (m : Message) : (s.send m).sched = s.sched := rfl
@[simp] theorem State.send_saves (s : State) (m : Message) : (s.send m).saves = s.saves := rfl
@[simp] theorem State.send_images (s : State) (m : Message) : (s.send m).images = s.images := rfl
@[simp] theorem State.send_hostMem (s : State) (m : Message) : (s.send m).hostMem = s.hostMem := rfl
@[simp] theorem State.send_agenda (s : State) (m : Message) : (s.send m).agenda = s.agenda := rfl
@[simp] theorem State.send_draws (s : State) (m : Message) : (s.send m).draws = s.draws := rfl
@[simp] theorem State.send_now (s : State) (m : Message) : (s.send m).now = s.now := rfl
@[simp] theorem State.send_arb (s : State) (m : Message) : (s.send m).arb = s.arb := rfl
@[simp] theorem State.send_drainPart (s : State) (m : Message) : (s.send m).drainPart = s.drainPart := rfl
@[simp] theorem State.send_sysOld (s : State) (m : Message) : (s.send m).sysOld = s.sysOld := rfl
@[simp] theorem State.send_plan (s : State) (m : Message) : (s.send m).plan = s.plan := rfl
@[simp] theorem State.send_cur (s : State) (m : Message) : (s.send m).cur = s.cur := rfl
@[simp] theorem State.count_boot (s : State) (v k n : Nat) : (s.count v k n).boot = s.boot := by
  dsimp only [State.count]; split <;> rfl
@[simp] theorem State.count_devcap (s : State) (v k n : Nat) : (s.count v k n).devcap = s.devcap := by
  dsimp only [State.count]; split <;> rfl
@[simp] theorem State.count_variant (s : State) (v k n : Nat) : (s.count v k n).variant = s.variant := by
  dsimp only [State.count]; split <;> rfl
@[simp] theorem State.count_clockMHz (s : State) (v k n : Nat) : (s.count v k n).clockMHz = s.clockMHz := by
  dsimp only [State.count]; split <;> rfl
@[simp] theorem State.count_mem (s : State) (v k n : Nat) : (s.count v k n).mem = s.mem := by
  dsimp only [State.count]; split <;> rfl
@[simp] theorem State.count_poison (s : State) (v k n : Nat) : (s.count v k n).poison = s.poison := by
  dsimp only [State.count]; split <;> rfl
@[simp] theorem State.count_brocade (s : State) (v k n : Nat) : (s.count v k n).brocade = s.brocade := by
  dsimp only [State.count]; split <;> rfl
@[simp] theorem State.count_parts (s : State) (v k n : Nat) : (s.count v k n).parts = s.parts := by
  dsimp only [State.count]; split <;> rfl
@[simp] theorem State.count_quanta (s : State) (v k n : Nat) : (s.count v k n).quanta = s.quanta := by
  dsimp only [State.count]; split <;> rfl
@[simp] theorem State.count_dies (s : State) (v k n : Nat) : (s.count v k n).dies = s.dies := by
  dsimp only [State.count]; split <;> rfl
@[simp] theorem State.count_clusters (s : State) (v k n : Nat) : (s.count v k n).clusters = s.clusters := by
  dsimp only [State.count]; split <;> rfl
@[simp] theorem State.count_cores (s : State) (v k n : Nat) : (s.count v k n).cores = s.cores := by
  dsimp only [State.count]; split <;> rfl
@[simp] theorem State.count_launches (s : State) (v k n : Nat) : (s.count v k n).launches = s.launches := by
  dsimp only [State.count]; split <;> rfl
@[simp] theorem State.count_nextLaunch (s : State) (v k n : Nat) : (s.count v k n).nextLaunch = s.nextLaunch := by
  dsimp only [State.count]; split <;> rfl
@[simp] theorem State.count_sched (s : State) (v k n : Nat) : (s.count v k n).sched = s.sched := by
  dsimp only [State.count]; split <;> rfl
@[simp] theorem State.count_saves (s : State) (v k n : Nat) : (s.count v k n).saves = s.saves := by
  dsimp only [State.count]; split <;> rfl
@[simp] theorem State.count_images (s : State) (v k n : Nat) : (s.count v k n).images = s.images := by
  dsimp only [State.count]; split <;> rfl
@[simp] theorem State.count_hostMem (s : State) (v k n : Nat) : (s.count v k n).hostMem = s.hostMem := by
  dsimp only [State.count]; split <;> rfl
@[simp] theorem State.count_out (s : State) (v k n : Nat) : (s.count v k n).out = s.out := by
  dsimp only [State.count]; split <;> rfl
@[simp] theorem State.count_agenda (s : State) (v k n : Nat) : (s.count v k n).agenda = s.agenda := by
  dsimp only [State.count]; split <;> rfl
@[simp] theorem State.count_draws (s : State) (v k n : Nat) : (s.count v k n).draws = s.draws := by
  dsimp only [State.count]; split <;> rfl
@[simp] theorem State.count_now (s : State) (v k n : Nat) : (s.count v k n).now = s.now := by
  dsimp only [State.count]; split <;> rfl
@[simp] theorem State.count_arb (s : State) (v k n : Nat) : (s.count v k n).arb = s.arb := by
  dsimp only [State.count]; split <;> rfl
@[simp] theorem State.count_drainPart (s : State) (v k n : Nat) : (s.count v k n).drainPart = s.drainPart := by
  dsimp only [State.count]; split <;> rfl
@[simp] theorem State.count_sysOld (s : State) (v k n : Nat) : (s.count v k n).sysOld = s.sysOld := by
  dsimp only [State.count]; split <;> rfl
@[simp] theorem State.count_plan (s : State) (v k n : Nat) : (s.count v k n).plan = s.plan := by
  dsimp only [State.count]; split <;> rfl
@[simp] theorem State.count_cur (s : State) (v k n : Nat) : (s.count v k n).cur = s.cur := by
  dsimp only [State.count]; split <;> rfl

/-! ## Updates of a core -/

@[simp] theorem Core.setTh_launch (c : Core) (u : Nat) (t : Thread) : (c.setTh u t).launch = c.launch := rfl
@[simp] theorem Core.updTh_launch (c : Core) (u : Nat) (f : Thread → Thread) : (c.updTh u f).launch = c.launch := rfl
@[simp] theorem Core.updAll_launch (us : List Nat) (f : Thread → Thread) : ∀ c : Core, (c.updAll us f).launch = c.launch := by
  induction us with
  | nil => intro c; rfl
  | cons u us ih => intro c; exact ih (c.updTh u f)
@[simp] theorem Core.setRowWord_launch (c : Core) (r w : Nat) (v : Word) : (c.setRowWord r w v).launch = c.launch := rfl
@[simp] theorem Core.flyTo_launch (c : Core) (r w l : Nat) : (c.flyTo r w l).launch = c.launch := rfl
@[simp] theorem Core.setTh_inst (c : Core) (u : Nat) (t : Thread) : (c.setTh u t).inst = c.inst := rfl
@[simp] theorem Core.updTh_inst (c : Core) (u : Nat) (f : Thread → Thread) : (c.updTh u f).inst = c.inst := rfl
@[simp] theorem Core.updAll_inst (us : List Nat) (f : Thread → Thread) : ∀ c : Core, (c.updAll us f).inst = c.inst := by
  induction us with
  | nil => intro c; rfl
  | cons u us ih => intro c; exact ih (c.updTh u f)
@[simp] theorem Core.setRowWord_inst (c : Core) (r w : Nat) (v : Word) : (c.setRowWord r w v).inst = c.inst := rfl
@[simp] theorem Core.flyTo_inst (c : Core) (r w l : Nat) : (c.flyTo r w l).inst = c.inst := rfl
@[simp] theorem Core.setTh_index (c : Core) (u : Nat) (t : Thread) : (c.setTh u t).index = c.index := rfl
@[simp] theorem Core.updTh_index (c : Core) (u : Nat) (f : Thread → Thread) : (c.updTh u f).index = c.index := rfl
@[simp] theorem Core.updAll_index (us : List Nat) (f : Thread → Thread) : ∀ c : Core, (c.updAll us f).index = c.index := by
  induction us with
  | nil => intro c; rfl
  | cons u us ih => intro c; exact ih (c.updTh u f)
@[simp] theorem Core.setRowWord_index (c : Core) (r w : Nat) (v : Word) : (c.setRowWord r w v).index = c.index := rfl
@[simp] theorem Core.flyTo_index (c : Core) (r w l : Nat) : (c.flyTo r w l).index = c.index := rfl
@[simp] theorem Core.setTh_started (c : Core) (u : Nat) (t : Thread) : (c.setTh u t).started = c.started := rfl
@[simp] theorem Core.updTh_started (c : Core) (u : Nat) (f : Thread → Thread) : (c.updTh u f).started = c.started := rfl
@[simp] theorem Core.updAll_started (us : List Nat) (f : Thread → Thread) : ∀ c : Core, (c.updAll us f).started = c.started := by
  induction us with
  | nil => intro c; rfl
  | cons u us ih => intro c; exact ih (c.updTh u f)
@[simp] theorem Core.setRowWord_started (c : Core) (r w : Nat) (v : Word) : (c.setRowWord r w v).started = c.started := rfl
@[simp] theorem Core.flyTo_started (c : Core) (r w l : Nat) : (c.flyTo r w l).started = c.started := rfl
@[simp] theorem Core.setTh_bind (c : Core) (u : Nat) (t : Thread) : (c.setTh u t).bind = c.bind := rfl
@[simp] theorem Core.updTh_bind (c : Core) (u : Nat) (f : Thread → Thread) : (c.updTh u f).bind = c.bind := rfl
@[simp] theorem Core.updAll_bind (us : List Nat) (f : Thread → Thread) : ∀ c : Core, (c.updAll us f).bind = c.bind := by
  induction us with
  | nil => intro c; rfl
  | cons u us ih => intro c; exact ih (c.updTh u f)
@[simp] theorem Core.setRowWord_bind (c : Core) (r w : Nat) (v : Word) : (c.setRowWord r w v).bind = c.bind := rfl
@[simp] theorem Core.flyTo_bind (c : Core) (r w l : Nat) : (c.flyTo r w l).bind = c.bind := rfl
@[simp] theorem Core.setTh_warps (c : Core) (u : Nat) (t : Thread) : (c.setTh u t).warps = c.warps := rfl
@[simp] theorem Core.updTh_warps (c : Core) (u : Nat) (f : Thread → Thread) : (c.updTh u f).warps = c.warps := rfl
@[simp] theorem Core.updAll_warps (us : List Nat) (f : Thread → Thread) : ∀ c : Core, (c.updAll us f).warps = c.warps := by
  induction us with
  | nil => intro c; rfl
  | cons u us ih => intro c; exact ih (c.updTh u f)
@[simp] theorem Core.setRowWord_warps (c : Core) (r w : Nat) (v : Word) : (c.setRowWord r w v).warps = c.warps := rfl
@[simp] theorem Core.flyTo_warps (c : Core) (r w l : Nat) : (c.flyTo r w l).warps = c.warps := rfl
@[simp] theorem Core.setTh_nextWarp (c : Core) (u : Nat) (t : Thread) : (c.setTh u t).nextWarp = c.nextWarp := rfl
@[simp] theorem Core.updTh_nextWarp (c : Core) (u : Nat) (f : Thread → Thread) : (c.updTh u f).nextWarp = c.nextWarp := rfl
@[simp] theorem Core.updAll_nextWarp (us : List Nat) (f : Thread → Thread) : ∀ c : Core, (c.updAll us f).nextWarp = c.nextWarp := by
  induction us with
  | nil => intro c; rfl
  | cons u us ih => intro c; exact ih (c.updTh u f)
@[simp] theorem Core.setRowWord_nextWarp (c : Core) (r w : Nat) (v : Word) : (c.setRowWord r w v).nextWarp = c.nextWarp := rfl
@[simp] theorem Core.flyTo_nextWarp (c : Core) (r w l : Nat) : (c.flyTo r w l).nextWarp = c.nextWarp := rfl
@[simp] theorem Core.setRowWord_threads (c : Core) (r w : Nat) (v : Word) : (c.setRowWord r w v).threads = c.threads := rfl
@[simp] theorem Core.flyTo_threads (c : Core) (r w l : Nat) : (c.flyTo r w l).threads = c.threads := rfl
@[simp] theorem Core.setTh_rows (c : Core) (u : Nat) (t : Thread) : (c.setTh u t).rows = c.rows := rfl
@[simp] theorem Core.updTh_rows (c : Core) (u : Nat) (f : Thread → Thread) : (c.updTh u f).rows = c.rows := rfl
@[simp] theorem Core.updAll_rows (us : List Nat) (f : Thread → Thread) : ∀ c : Core, (c.updAll us f).rows = c.rows := by
  induction us with
  | nil => intro c; rfl
  | cons u us ih => intro c; exact ih (c.updTh u f)
@[simp] theorem Core.setTh_fe (c : Core) (u : Nat) (t : Thread) : (c.setTh u t).fe = c.fe := rfl
@[simp] theorem Core.updTh_fe (c : Core) (u : Nat) (f : Thread → Thread) : (c.updTh u f).fe = c.fe := rfl
@[simp] theorem Core.updAll_fe (us : List Nat) (f : Thread → Thread) : ∀ c : Core, (c.updAll us f).fe = c.fe := by
  induction us with
  | nil => intro c; rfl
  | cons u us ih => intro c; exact ih (c.updTh u f)
@[simp] theorem Core.setRowWord_fe (c : Core) (r w : Nat) (v : Word) : (c.setRowWord r w v).fe = c.fe := rfl
@[simp] theorem Core.flyTo_fe (c : Core) (r w l : Nat) : (c.flyTo r w l).fe = c.fe := rfl
@[simp] theorem Core.setTh_damask (c : Core) (u : Nat) (t : Thread) : (c.setTh u t).damask = c.damask := rfl
@[simp] theorem Core.updTh_damask (c : Core) (u : Nat) (f : Thread → Thread) : (c.updTh u f).damask = c.damask := rfl
@[simp] theorem Core.updAll_damask (us : List Nat) (f : Thread → Thread) : ∀ c : Core, (c.updAll us f).damask = c.damask := by
  induction us with
  | nil => intro c; rfl
  | cons u us ih => intro c; exact ih (c.updTh u f)
@[simp] theorem Core.setRowWord_damask (c : Core) (r w : Nat) (v : Word) : (c.setRowWord r w v).damask = c.damask := rfl
@[simp] theorem Core.flyTo_damask (c : Core) (r w l : Nat) : (c.flyTo r w l).damask = c.damask := rfl
@[simp] theorem Core.setTh_groups (c : Core) (u : Nat) (t : Thread) : (c.setTh u t).groups = c.groups := rfl
@[simp] theorem Core.updTh_groups (c : Core) (u : Nat) (f : Thread → Thread) : (c.updTh u f).groups = c.groups := rfl
@[simp] theorem Core.updAll_groups (us : List Nat) (f : Thread → Thread) : ∀ c : Core, (c.updAll us f).groups = c.groups := by
  induction us with
  | nil => intro c; rfl
  | cons u us ih => intro c; exact ih (c.updTh u f)
@[simp] theorem Core.setRowWord_groups (c : Core) (r w : Nat) (v : Word) : (c.setRowWord r w v).groups = c.groups := rfl
@[simp] theorem Core.flyTo_groups (c : Core) (r w l : Nat) : (c.flyTo r w l).groups = c.groups := rfl
@[simp] theorem Core.setTh_token (c : Core) (u : Nat) (t : Thread) : (c.setTh u t).token = c.token := rfl
@[simp] theorem Core.updTh_token (c : Core) (u : Nat) (f : Thread → Thread) : (c.updTh u f).token = c.token := rfl
@[simp] theorem Core.updAll_token (us : List Nat) (f : Thread → Thread) : ∀ c : Core, (c.updAll us f).token = c.token := by
  induction us with
  | nil => intro c; rfl
  | cons u us ih => intro c; exact ih (c.updTh u f)
@[simp] theorem Core.setRowWord_token (c : Core) (r w : Nat) (v : Word) : (c.setRowWord r w v).token = c.token := rfl
@[simp] theorem Core.flyTo_token (c : Core) (r w l : Nat) : (c.flyTo r w l).token = c.token := rfl
@[simp] theorem Core.setTh_dq (c : Core) (u : Nat) (t : Thread) : (c.setTh u t).dq = c.dq := rfl
@[simp] theorem Core.updTh_dq (c : Core) (u : Nat) (f : Thread → Thread) : (c.updTh u f).dq = c.dq := rfl
@[simp] theorem Core.updAll_dq (us : List Nat) (f : Thread → Thread) : ∀ c : Core, (c.updAll us f).dq = c.dq := by
  induction us with
  | nil => intro c; rfl
  | cons u us ih => intro c; exact ih (c.updTh u f)
@[simp] theorem Core.setRowWord_dq (c : Core) (r w : Nat) (v : Word) : (c.setRowWord r w v).dq = c.dq := rfl
@[simp] theorem Core.flyTo_dq (c : Core) (r w l : Nat) : (c.flyTo r w l).dq = c.dq := rfl
@[simp] theorem Core.setTh_wq (c : Core) (u : Nat) (t : Thread) : (c.setTh u t).wq = c.wq := rfl
@[simp] theorem Core.updTh_wq (c : Core) (u : Nat) (f : Thread → Thread) : (c.updTh u f).wq = c.wq := rfl
@[simp] theorem Core.updAll_wq (us : List Nat) (f : Thread → Thread) : ∀ c : Core, (c.updAll us f).wq = c.wq := by
  induction us with
  | nil => intro c; rfl
  | cons u us ih => intro c; exact ih (c.updTh u f)
@[simp] theorem Core.setRowWord_wq (c : Core) (r w : Nat) (v : Word) : (c.setRowWord r w v).wq = c.wq := rfl
@[simp] theorem Core.flyTo_wq (c : Core) (r w l : Nat) : (c.flyTo r w l).wq = c.wq := rfl
@[simp] theorem Core.setTh_bufs (c : Core) (u : Nat) (t : Thread) : (c.setTh u t).bufs = c.bufs := rfl
@[simp] theorem Core.updTh_bufs (c : Core) (u : Nat) (f : Thread → Thread) : (c.updTh u f).bufs = c.bufs := rfl
@[simp] theorem Core.updAll_bufs (us : List Nat) (f : Thread → Thread) : ∀ c : Core, (c.updAll us f).bufs = c.bufs := by
  induction us with
  | nil => intro c; rfl
  | cons u us ih => intro c; exact ih (c.updTh u f)
@[simp] theorem Core.setRowWord_bufs (c : Core) (r w : Nat) (v : Word) : (c.setRowWord r w v).bufs = c.bufs := rfl
@[simp] theorem Core.flyTo_bufs (c : Core) (r w l : Nat) : (c.flyTo r w l).bufs = c.bufs := rfl
@[simp] theorem Core.setTh_bufOld (c : Core) (u : Nat) (t : Thread) : (c.setTh u t).bufOld = c.bufOld := rfl
@[simp] theorem Core.updTh_bufOld (c : Core) (u : Nat) (f : Thread → Thread) : (c.updTh u f).bufOld = c.bufOld := rfl
@[simp] theorem Core.updAll_bufOld (us : List Nat) (f : Thread → Thread) : ∀ c : Core, (c.updAll us f).bufOld = c.bufOld := by
  induction us with
  | nil => intro c; rfl
  | cons u us ih => intro c; exact ih (c.updTh u f)
@[simp] theorem Core.setRowWord_bufOld (c : Core) (r w : Nat) (v : Word) : (c.setRowWord r w v).bufOld = c.bufOld := rfl
@[simp] theorem Core.flyTo_bufOld (c : Core) (r w l : Nat) : (c.flyTo r w l).bufOld = c.bufOld := rfl
@[simp] theorem Core.setTh_scratch (c : Core) (u : Nat) (t : Thread) : (c.setTh u t).scratch = c.scratch := rfl
@[simp] theorem Core.updTh_scratch (c : Core) (u : Nat) (f : Thread → Thread) : (c.updTh u f).scratch = c.scratch := rfl
@[simp] theorem Core.updAll_scratch (us : List Nat) (f : Thread → Thread) : ∀ c : Core, (c.updAll us f).scratch = c.scratch := by
  induction us with
  | nil => intro c; rfl
  | cons u us ih => intro c; exact ih (c.updTh u f)
@[simp] theorem Core.setRowWord_scratch (c : Core) (r w : Nat) (v : Word) : (c.setRowWord r w v).scratch = c.scratch := rfl
@[simp] theorem Core.flyTo_scratch (c : Core) (r w l : Nat) : (c.flyTo r w l).scratch = c.scratch := rfl
@[simp] theorem Core.setTh_recheck (c : Core) (u : Nat) (t : Thread) : (c.setTh u t).recheck = c.recheck := rfl
@[simp] theorem Core.updTh_recheck (c : Core) (u : Nat) (f : Thread → Thread) : (c.updTh u f).recheck = c.recheck := rfl
@[simp] theorem Core.updAll_recheck (us : List Nat) (f : Thread → Thread) : ∀ c : Core, (c.updAll us f).recheck = c.recheck := by
  induction us with
  | nil => intro c; rfl
  | cons u us ih => intro c; exact ih (c.updTh u f)
@[simp] theorem Core.setRowWord_recheck (c : Core) (r w : Nat) (v : Word) : (c.setRowWord r w v).recheck = c.recheck := rfl
@[simp] theorem Core.flyTo_recheck (c : Core) (r w l : Nat) : (c.flyTo r w l).recheck = c.recheck := rfl
@[simp] theorem Core.setTh_faultq (c : Core) (u : Nat) (t : Thread) : (c.setTh u t).faultq = c.faultq := rfl
@[simp] theorem Core.updTh_faultq (c : Core) (u : Nat) (f : Thread → Thread) : (c.updTh u f).faultq = c.faultq := rfl
@[simp] theorem Core.updAll_faultq (us : List Nat) (f : Thread → Thread) : ∀ c : Core, (c.updAll us f).faultq = c.faultq := by
  induction us with
  | nil => intro c; rfl
  | cons u us ih => intro c; exact ih (c.updTh u f)
@[simp] theorem Core.setRowWord_faultq (c : Core) (r w : Nat) (v : Word) : (c.setRowWord r w v).faultq = c.faultq := rfl
@[simp] theorem Core.flyTo_faultq (c : Core) (r w l : Nat) : (c.flyTo r w l).faultq = c.faultq := rfl
@[simp] theorem Core.setTh_lost (c : Core) (u : Nat) (t : Thread) : (c.setTh u t).lost = c.lost := rfl
@[simp] theorem Core.updTh_lost (c : Core) (u : Nat) (f : Thread → Thread) : (c.updTh u f).lost = c.lost := rfl
@[simp] theorem Core.updAll_lost (us : List Nat) (f : Thread → Thread) : ∀ c : Core, (c.updAll us f).lost = c.lost := by
  induction us with
  | nil => intro c; rfl
  | cons u us ih => intro c; exact ih (c.updTh u f)
@[simp] theorem Core.setRowWord_lost (c : Core) (r w : Nat) (v : Word) : (c.setRowWord r w v).lost = c.lost := rfl
@[simp] theorem Core.flyTo_lost (c : Core) (r w l : Nat) : (c.flyTo r w l).lost = c.lost := rfl
@[simp] theorem Core.setTh_ftrap (c : Core) (u : Nat) (t : Thread) : (c.setTh u t).ftrap = c.ftrap := rfl
@[simp] theorem Core.updTh_ftrap (c : Core) (u : Nat) (f : Thread → Thread) : (c.updTh u f).ftrap = c.ftrap := rfl
@[simp] theorem Core.updAll_ftrap (us : List Nat) (f : Thread → Thread) : ∀ c : Core, (c.updAll us f).ftrap = c.ftrap := by
  induction us with
  | nil => intro c; rfl
  | cons u us ih => intro c; exact ih (c.updTh u f)
@[simp] theorem Core.setRowWord_ftrap (c : Core) (r w : Nat) (v : Word) : (c.setRowWord r w v).ftrap = c.ftrap := rfl
@[simp] theorem Core.flyTo_ftrap (c : Core) (r w l : Nat) : (c.flyTo r w l).ftrap = c.ftrap := rfl
@[simp] theorem Core.setTh_vocab (c : Core) (u : Nat) (t : Thread) : (c.setTh u t).vocab = c.vocab := rfl
@[simp] theorem Core.updTh_vocab (c : Core) (u : Nat) (f : Thread → Thread) : (c.updTh u f).vocab = c.vocab := rfl
@[simp] theorem Core.updAll_vocab (us : List Nat) (f : Thread → Thread) : ∀ c : Core, (c.updAll us f).vocab = c.vocab := by
  induction us with
  | nil => intro c; rfl
  | cons u us ih => intro c; exact ih (c.updTh u f)
@[simp] theorem Core.setRowWord_vocab (c : Core) (r w : Nat) (v : Word) : (c.setRowWord r w v).vocab = c.vocab := rfl
@[simp] theorem Core.flyTo_vocab (c : Core) (r w l : Nat) : (c.flyTo r w l).vocab = c.vocab := rfl
@[simp] theorem Core.setTh_vocabpad (c : Core) (u : Nat) (t : Thread) : (c.setTh u t).vocabpad = c.vocabpad := rfl
@[simp] theorem Core.updTh_vocabpad (c : Core) (u : Nat) (f : Thread → Thread) : (c.updTh u f).vocabpad = c.vocabpad := rfl
@[simp] theorem Core.updAll_vocabpad (us : List Nat) (f : Thread → Thread) : ∀ c : Core, (c.updAll us f).vocabpad = c.vocabpad := by
  induction us with
  | nil => intro c; rfl
  | cons u us ih => intro c; exact ih (c.updTh u f)
@[simp] theorem Core.setRowWord_vocabpad (c : Core) (r w : Nat) (v : Word) : (c.setRowWord r w v).vocabpad = c.vocabpad := rfl
@[simp] theorem Core.flyTo_vocabpad (c : Core) (r w l : Nat) : (c.flyTo r w l).vocabpad = c.vocabpad := rfl
@[simp] theorem Core.setTh_l1 (c : Core) (u : Nat) (t : Thread) : (c.setTh u t).l1 = c.l1 := rfl
@[simp] theorem Core.updTh_l1 (c : Core) (u : Nat) (f : Thread → Thread) : (c.updTh u f).l1 = c.l1 := rfl
@[simp] theorem Core.updAll_l1 (us : List Nat) (f : Thread → Thread) : ∀ c : Core, (c.updAll us f).l1 = c.l1 := by
  induction us with
  | nil => intro c; rfl
  | cons u us ih => intro c; exact ih (c.updTh u f)
@[simp] theorem Core.setRowWord_l1 (c : Core) (r w : Nat) (v : Word) : (c.setRowWord r w v).l1 = c.l1 := rfl
@[simp] theorem Core.flyTo_l1 (c : Core) (r w l : Nat) : (c.flyTo r w l).l1 = c.l1 := rfl
@[simp] theorem Core.setTh_tlb (c : Core) (u : Nat) (t : Thread) : (c.setTh u t).tlb = c.tlb := rfl
@[simp] theorem Core.updTh_tlb (c : Core) (u : Nat) (f : Thread → Thread) : (c.updTh u f).tlb = c.tlb := rfl
@[simp] theorem Core.updAll_tlb (us : List Nat) (f : Thread → Thread) : ∀ c : Core, (c.updAll us f).tlb = c.tlb := by
  induction us with
  | nil => intro c; rfl
  | cons u us ih => intro c; exact ih (c.updTh u f)
@[simp] theorem Core.setRowWord_tlb (c : Core) (r w : Nat) (v : Word) : (c.setRowWord r w v).tlb = c.tlb := rfl
@[simp] theorem Core.flyTo_tlb (c : Core) (r w l : Nat) : (c.flyTo r w l).tlb = c.tlb := rfl
@[simp] theorem Core.setTh_reqs (c : Core) (u : Nat) (t : Thread) : (c.setTh u t).reqs = c.reqs := rfl
@[simp] theorem Core.updTh_reqs (c : Core) (u : Nat) (f : Thread → Thread) : (c.updTh u f).reqs = c.reqs := rfl
@[simp] theorem Core.updAll_reqs (us : List Nat) (f : Thread → Thread) : ∀ c : Core, (c.updAll us f).reqs = c.reqs := by
  induction us with
  | nil => intro c; rfl
  | cons u us ih => intro c; exact ih (c.updTh u f)
@[simp] theorem Core.setRowWord_reqs (c : Core) (r w : Nat) (v : Word) : (c.setRowWord r w v).reqs = c.reqs := rfl
@[simp] theorem Core.flyTo_reqs (c : Core) (r w l : Nat) : (c.flyTo r w l).reqs = c.reqs := rfl
@[simp] theorem Core.setTh_nextReq (c : Core) (u : Nat) (t : Thread) : (c.setTh u t).nextReq = c.nextReq := rfl
@[simp] theorem Core.updTh_nextReq (c : Core) (u : Nat) (f : Thread → Thread) : (c.updTh u f).nextReq = c.nextReq := rfl
@[simp] theorem Core.updAll_nextReq (us : List Nat) (f : Thread → Thread) : ∀ c : Core, (c.updAll us f).nextReq = c.nextReq := by
  induction us with
  | nil => intro c; rfl
  | cons u us ih => intro c; exact ih (c.updTh u f)
@[simp] theorem Core.setRowWord_nextReq (c : Core) (r w : Nat) (v : Word) : (c.setRowWord r w v).nextReq = c.nextReq := rfl
@[simp] theorem Core.flyTo_nextReq (c : Core) (r w l : Nat) : (c.flyTo r w l).nextReq = c.nextReq := rfl
@[simp] theorem Core.setTh_pend (c : Core) (u : Nat) (t : Thread) : (c.setTh u t).pend = c.pend := rfl
@[simp] theorem Core.updTh_pend (c : Core) (u : Nat) (f : Thread → Thread) : (c.updTh u f).pend = c.pend := rfl
@[simp] theorem Core.updAll_pend (us : List Nat) (f : Thread → Thread) : ∀ c : Core, (c.updAll us f).pend = c.pend := by
  induction us with
  | nil => intro c; rfl
  | cons u us ih => intro c; exact ih (c.updTh u f)
@[simp] theorem Core.setRowWord_pend (c : Core) (r w : Nat) (v : Word) : (c.setRowWord r w v).pend = c.pend := rfl
@[simp] theorem Core.flyTo_pend (c : Core) (r w l : Nat) : (c.flyTo r w l).pend = c.pend := rfl
@[simp] theorem Core.setTh_nextPend (c : Core) (u : Nat) (t : Thread) : (c.setTh u t).nextPend = c.nextPend := rfl
@[simp] theorem Core.updTh_nextPend (c : Core) (u : Nat) (f : Thread → Thread) : (c.updTh u f).nextPend = c.nextPend := rfl
@[simp] theorem Core.updAll_nextPend (us : List Nat) (f : Thread → Thread) : ∀ c : Core, (c.updAll us f).nextPend = c.nextPend := by
  induction us with
  | nil => intro c; rfl
  | cons u us ih => intro c; exact ih (c.updTh u f)
@[simp] theorem Core.setRowWord_nextPend (c : Core) (r w : Nat) (v : Word) : (c.setRowWord r w v).nextPend = c.nextPend := rfl
@[simp] theorem Core.flyTo_nextPend (c : Core) (r w l : Nat) : (c.flyTo r w l).nextPend = c.nextPend := rfl
@[simp] theorem Core.setTh_epoch (c : Core) (u : Nat) (t : Thread) : (c.setTh u t).epoch = c.epoch := rfl
@[simp] theorem Core.updTh_epoch (c : Core) (u : Nat) (f : Thread → Thread) : (c.updTh u f).epoch = c.epoch := rfl
@[simp] theorem Core.updAll_epoch (us : List Nat) (f : Thread → Thread) : ∀ c : Core, (c.updAll us f).epoch = c.epoch := by
  induction us with
  | nil => intro c; rfl
  | cons u us ih => intro c; exact ih (c.updTh u f)
@[simp] theorem Core.setRowWord_epoch (c : Core) (r w : Nat) (v : Word) : (c.setRowWord r w v).epoch = c.epoch := rfl
@[simp] theorem Core.flyTo_epoch (c : Core) (r w l : Nat) : (c.flyTo r w l).epoch = c.epoch := rfl
@[simp] theorem Core.setTh_latch (c : Core) (u : Nat) (t : Thread) : (c.setTh u t).latch = c.latch := rfl
@[simp] theorem Core.updTh_latch (c : Core) (u : Nat) (f : Thread → Thread) : (c.updTh u f).latch = c.latch := rfl
@[simp] theorem Core.updAll_latch (us : List Nat) (f : Thread → Thread) : ∀ c : Core, (c.updAll us f).latch = c.latch := by
  induction us with
  | nil => intro c; rfl
  | cons u us ih => intro c; exact ih (c.updTh u f)
@[simp] theorem Core.setRowWord_latch (c : Core) (r w : Nat) (v : Word) : (c.setRowWord r w v).latch = c.latch := rfl
@[simp] theorem Core.flyTo_latch (c : Core) (r w l : Nat) : (c.flyTo r w l).latch = c.latch := rfl
@[simp] theorem Core.setTh_scale (c : Core) (u : Nat) (t : Thread) : (c.setTh u t).scale = c.scale := rfl
@[simp] theorem Core.updTh_scale (c : Core) (u : Nat) (f : Thread → Thread) : (c.updTh u f).scale = c.scale := rfl
@[simp] theorem Core.updAll_scale (us : List Nat) (f : Thread → Thread) : ∀ c : Core, (c.updAll us f).scale = c.scale := by
  induction us with
  | nil => intro c; rfl
  | cons u us ih => intro c; exact ih (c.updTh u f)
@[simp] theorem Core.setRowWord_scale (c : Core) (r w : Nat) (v : Word) : (c.setRowWord r w v).scale = c.scale := rfl
@[simp] theorem Core.flyTo_scale (c : Core) (r w l : Nat) : (c.flyTo r w l).scale = c.scale := rfl
@[simp] theorem Core.setTh_mwords (c : Core) (u : Nat) (t : Thread) : (c.setTh u t).mwords = c.mwords := rfl
@[simp] theorem Core.updTh_mwords (c : Core) (u : Nat) (f : Thread → Thread) : (c.updTh u f).mwords = c.mwords := rfl
@[simp] theorem Core.updAll_mwords (us : List Nat) (f : Thread → Thread) : ∀ c : Core, (c.updAll us f).mwords = c.mwords := by
  induction us with
  | nil => intro c; rfl
  | cons u us ih => intro c; exact ih (c.updTh u f)
@[simp] theorem Core.setRowWord_mwords (c : Core) (r w : Nat) (v : Word) : (c.setRowWord r w v).mwords = c.mwords := rfl
@[simp] theorem Core.flyTo_mwords (c : Core) (r w l : Nat) : (c.flyTo r w l).mwords = c.mwords := rfl
@[simp] theorem Core.setTh_nextM (c : Core) (u : Nat) (t : Thread) : (c.setTh u t).nextM = c.nextM := rfl
@[simp] theorem Core.updTh_nextM (c : Core) (u : Nat) (f : Thread → Thread) : (c.updTh u f).nextM = c.nextM := rfl
@[simp] theorem Core.updAll_nextM (us : List Nat) (f : Thread → Thread) : ∀ c : Core, (c.updAll us f).nextM = c.nextM := by
  induction us with
  | nil => intro c; rfl
  | cons u us ih => intro c; exact ih (c.updTh u f)
@[simp] theorem Core.setRowWord_nextM (c : Core) (r w : Nat) (v : Word) : (c.setRowWord r w v).nextM = c.nextM := rfl
@[simp] theorem Core.flyTo_nextM (c : Core) (r w l : Nat) : (c.flyTo r w l).nextM = c.nextM := rfl
@[simp] theorem Core.setTh_msts (c : Core) (u : Nat) (t : Thread) : (c.setTh u t).msts = c.msts := rfl
@[simp] theorem Core.updTh_msts (c : Core) (u : Nat) (f : Thread → Thread) : (c.updTh u f).msts = c.msts := rfl
@[simp] theorem Core.updAll_msts (us : List Nat) (f : Thread → Thread) : ∀ c : Core, (c.updAll us f).msts = c.msts := by
  induction us with
  | nil => intro c; rfl
  | cons u us ih => intro c; exact ih (c.updTh u f)
@[simp] theorem Core.setRowWord_msts (c : Core) (r w : Nat) (v : Word) : (c.setRowWord r w v).msts = c.msts := rfl
@[simp] theorem Core.flyTo_msts (c : Core) (r w l : Nat) : (c.flyTo r w l).msts = c.msts := rfl
@[simp] theorem Core.setTh_poolWords (c : Core) (u : Nat) (t : Thread) : (c.setTh u t).poolWords = c.poolWords := rfl
@[simp] theorem Core.updTh_poolWords (c : Core) (u : Nat) (f : Thread → Thread) : (c.updTh u f).poolWords = c.poolWords := rfl
@[simp] theorem Core.updAll_poolWords (us : List Nat) (f : Thread → Thread) : ∀ c : Core, (c.updAll us f).poolWords = c.poolWords := by
  induction us with
  | nil => intro c; rfl
  | cons u us ih => intro c; exact ih (c.updTh u f)
@[simp] theorem Core.setRowWord_poolWords (c : Core) (r w : Nat) (v : Word) : (c.setRowWord r w v).poolWords = c.poolWords := rfl
@[simp] theorem Core.flyTo_poolWords (c : Core) (r w l : Nat) : (c.flyTo r w l).poolWords = c.poolWords := rfl
@[simp] theorem Core.setTh_nextPool (c : Core) (u : Nat) (t : Thread) : (c.setTh u t).nextPool = c.nextPool := rfl
@[simp] theorem Core.updTh_nextPool (c : Core) (u : Nat) (f : Thread → Thread) : (c.updTh u f).nextPool = c.nextPool := rfl
@[simp] theorem Core.updAll_nextPool (us : List Nat) (f : Thread → Thread) : ∀ c : Core, (c.updAll us f).nextPool = c.nextPool := by
  induction us with
  | nil => intro c; rfl
  | cons u us ih => intro c; exact ih (c.updTh u f)
@[simp] theorem Core.setRowWord_nextPool (c : Core) (r w : Nat) (v : Word) : (c.setRowWord r w v).nextPool = c.nextPool := rfl
@[simp] theorem Core.flyTo_nextPool (c : Core) (r w l : Nat) : (c.flyTo r w l).nextPool = c.nextPool := rfl
@[simp] theorem Core.setTh_tracker (c : Core) (u : Nat) (t : Thread) : (c.setTh u t).tracker = c.tracker := rfl
@[simp] theorem Core.updTh_tracker (c : Core) (u : Nat) (f : Thread → Thread) : (c.updTh u f).tracker = c.tracker := rfl
@[simp] theorem Core.updAll_tracker (us : List Nat) (f : Thread → Thread) : ∀ c : Core, (c.updAll us f).tracker = c.tracker := by
  induction us with
  | nil => intro c; rfl
  | cons u us ih => intro c; exact ih (c.updTh u f)
@[simp] theorem Core.setRowWord_tracker (c : Core) (r w : Nat) (v : Word) : (c.setRowWord r w v).tracker = c.tracker := rfl
@[simp] theorem Core.flyTo_tracker (c : Core) (r w l : Nat) : (c.flyTo r w l).tracker = c.tracker := rfl
@[simp] theorem Core.setTh_resumeReq (c : Core) (u : Nat) (t : Thread) : (c.setTh u t).resumeReq = c.resumeReq := rfl
@[simp] theorem Core.updTh_resumeReq (c : Core) (u : Nat) (f : Thread → Thread) : (c.updTh u f).resumeReq = c.resumeReq := rfl
@[simp] theorem Core.updAll_resumeReq (us : List Nat) (f : Thread → Thread) : ∀ c : Core, (c.updAll us f).resumeReq = c.resumeReq := by
  induction us with
  | nil => intro c; rfl
  | cons u us ih => intro c; exact ih (c.updTh u f)
@[simp] theorem Core.setRowWord_resumeReq (c : Core) (r w : Nat) (v : Word) : (c.setRowWord r w v).resumeReq = c.resumeReq := rfl
@[simp] theorem Core.flyTo_resumeReq (c : Core) (r w l : Nat) : (c.flyTo r w l).resumeReq = c.resumeReq := rfl
@[simp] theorem Core.setTh_resumePool (c : Core) (u : Nat) (t : Thread) : (c.setTh u t).resumePool = c.resumePool := rfl
@[simp] theorem Core.updTh_resumePool (c : Core) (u : Nat) (f : Thread → Thread) : (c.updTh u f).resumePool = c.resumePool := rfl
@[simp] theorem Core.updAll_resumePool (us : List Nat) (f : Thread → Thread) : ∀ c : Core, (c.updAll us f).resumePool = c.resumePool := by
  induction us with
  | nil => intro c; rfl
  | cons u us ih => intro c; exact ih (c.updTh u f)
@[simp] theorem Core.setRowWord_resumePool (c : Core) (r w : Nat) (v : Word) : (c.setRowWord r w v).resumePool = c.resumePool := rfl
@[simp] theorem Core.flyTo_resumePool (c : Core) (r w l : Nat) : (c.flyTo r w l).resumePool = c.resumePool := rfl
@[simp] theorem Core.setTh_resumeM (c : Core) (u : Nat) (t : Thread) : (c.setTh u t).resumeM = c.resumeM := rfl
@[simp] theorem Core.updTh_resumeM (c : Core) (u : Nat) (f : Thread → Thread) : (c.updTh u f).resumeM = c.resumeM := rfl
@[simp] theorem Core.updAll_resumeM (us : List Nat) (f : Thread → Thread) : ∀ c : Core, (c.updAll us f).resumeM = c.resumeM := by
  induction us with
  | nil => intro c; rfl
  | cons u us ih => intro c; exact ih (c.updTh u f)
@[simp] theorem Core.setRowWord_resumeM (c : Core) (r w : Nat) (v : Word) : (c.setRowWord r w v).resumeM = c.resumeM := rfl
@[simp] theorem Core.flyTo_resumeM (c : Core) (r w l : Nat) : (c.flyTo r w l).resumeM = c.resumeM := rfl
@[simp] theorem Core.setTh_resumeJ (c : Core) (u : Nat) (t : Thread) : (c.setTh u t).resumeJ = c.resumeJ := rfl
@[simp] theorem Core.updTh_resumeJ (c : Core) (u : Nat) (f : Thread → Thread) : (c.updTh u f).resumeJ = c.resumeJ := rfl
@[simp] theorem Core.updAll_resumeJ (us : List Nat) (f : Thread → Thread) : ∀ c : Core, (c.updAll us f).resumeJ = c.resumeJ := by
  induction us with
  | nil => intro c; rfl
  | cons u us ih => intro c; exact ih (c.updTh u f)
@[simp] theorem Core.setRowWord_resumeJ (c : Core) (r w : Nat) (v : Word) : (c.setRowWord r w v).resumeJ = c.resumeJ := rfl
@[simp] theorem Core.flyTo_resumeJ (c : Core) (r w l : Nat) : (c.flyTo r w l).resumeJ = c.resumeJ := rfl
@[simp] theorem Core.setTh_clock (c : Core) (u : Nat) (t : Thread) : (c.setTh u t).clock = c.clock := rfl
@[simp] theorem Core.updTh_clock (c : Core) (u : Nat) (f : Thread → Thread) : (c.updTh u f).clock = c.clock := rfl
@[simp] theorem Core.updAll_clock (us : List Nat) (f : Thread → Thread) : ∀ c : Core, (c.updAll us f).clock = c.clock := by
  induction us with
  | nil => intro c; rfl
  | cons u us ih => intro c; exact ih (c.updTh u f)
@[simp] theorem Core.setRowWord_clock (c : Core) (r w : Nat) (v : Word) : (c.setRowWord r w v).clock = c.clock := rfl
@[simp] theorem Core.flyTo_clock (c : Core) (r w l : Nat) : (c.flyTo r w l).clock = c.clock := rfl
@[simp] theorem Core.setTh_drops (c : Core) (u : Nat) (t : Thread) : (c.setTh u t).drops = c.drops := rfl
@[simp] theorem Core.updTh_drops (c : Core) (u : Nat) (f : Thread → Thread) : (c.updTh u f).drops = c.drops := rfl
@[simp] theorem Core.updAll_drops (us : List Nat) (f : Thread → Thread) : ∀ c : Core, (c.updAll us f).drops = c.drops := by
  induction us with
  | nil => intro c; rfl
  | cons u us ih => intro c; exact ih (c.updTh u f)
@[simp] theorem Core.setRowWord_drops (c : Core) (r w : Nat) (v : Word) : (c.setRowWord r w v).drops = c.drops := rfl
@[simp] theorem Core.flyTo_drops (c : Core) (r w l : Nat) : (c.flyTo r w l).drops = c.drops := rfl
@[simp] theorem Core.setTh_copies (c : Core) (u : Nat) (t : Thread) : (c.setTh u t).copies = c.copies := rfl
@[simp] theorem Core.updTh_copies (c : Core) (u : Nat) (f : Thread → Thread) : (c.updTh u f).copies = c.copies := rfl
@[simp] theorem Core.updAll_copies (us : List Nat) (f : Thread → Thread) : ∀ c : Core, (c.updAll us f).copies = c.copies := by
  induction us with
  | nil => intro c; rfl
  | cons u us ih => intro c; exact ih (c.updTh u f)
@[simp] theorem Core.setRowWord_copies (c : Core) (r w : Nat) (v : Word) : (c.setRowWord r w v).copies = c.copies := rfl
@[simp] theorem Core.flyTo_copies (c : Core) (r w l : Nat) : (c.flyTo r w l).copies = c.copies := rfl
@[simp] theorem Core.setTh_ghosts (c : Core) (u : Nat) (t : Thread) : (c.setTh u t).ghosts = c.ghosts := rfl
@[simp] theorem Core.updTh_ghosts (c : Core) (u : Nat) (f : Thread → Thread) : (c.updTh u f).ghosts = c.ghosts := rfl
@[simp] theorem Core.updAll_ghosts (us : List Nat) (f : Thread → Thread) : ∀ c : Core, (c.updAll us f).ghosts = c.ghosts := by
  induction us with
  | nil => intro c; rfl
  | cons u us ih => intro c; exact ih (c.updTh u f)
@[simp] theorem Core.setRowWord_ghosts (c : Core) (r w : Nat) (v : Word) : (c.setRowWord r w v).ghosts = c.ghosts := rfl
@[simp] theorem Core.flyTo_ghosts (c : Core) (r w l : Nat) : (c.flyTo r w l).ghosts = c.ghosts := rfl

end Sys2Proof.Machine
end

