-- ==== Sys2Proof/Laws/Issue.lean ====
section
/-! SUPPORT. What the shared shape of a word can do: complete with its body's effect, take a trap, or wait. -/

namespace Sys2Proof.Machine

open Sys2Proof

/-! ## Parts in sequence -/

@[simp] theorem Res.bind_ok {α β : Type} (a : α) (f : α → Res β) : (Res.ok a).bind f = f a := rfl
@[simp] theorem Res.bind_trap {α β : Type} (t : TrapInfo) (f : α → Res β) : (Res.trap t : Res α).bind f = .trap t := rfl
@[simp] theorem Res.bind_wait {α β : Type} (u : Bool) (f : α → Res β) : (Res.wait u : Res α).bind f = .wait u := rfl
@[simp] theorem Res.bind_waitAll {α β : Type} (f : α → Res β) : (Res.waitAll : Res α).bind f = .waitAll := rfl
@[simp] theorem Res.map_ok {α β : Type} (a : α) (f : α → β) : (Res.ok a).map f = .ok (f a) := rfl

/-- A part that is done was done in its first half. -/
theorem Res.bind_eq_ok {α β : Type} {r : Res α} {f : α → Res β} {b : β} (h : r.bind f = .ok b) :
    ∃ a, r = .ok a ∧ f a = .ok b := by
  cases r <;> simp_all [Res.bind]

/-! ## The core in hand -/

@[simp] theorem State.core_setCore_self (s : State) (k : Nat) (c : Core) : (s.setCore k c).core k = c := by
  simp [State.core, State.setCore]

theorem State.core_setCore_ne (s : State) {k j : Nat} (c : Core) (h : k ≠ j) : (s.setCore k c).core j = s.core j := by
  simp [State.core, State.setCore, AMap.lookD_put_ne _ _ _ h]

/-- Counting changes no core. -/
@[simp] theorem State.count_core (s : State) (v k n j : Nat) : (s.count v k n).core j = s.core j := by
  simp [State.core]

/-- Counting on some counters of a VF changes nothing of it but the counts. -/
theorem VF.ticks (now n : Nat) (is : List Nat) (x : VF) :
    is.foldl (VF.tick · now n) x = { x with
      perfcnt := (is.foldl (VF.tick · now n) x).perfcnt, perfnew := (is.foldl (VF.tick · now n) x).perfnew } := by
  induction is generalizing x with
  | nil => rfl
  | cons i is ih => rw [List.foldl_cons, ih (x.tick now n i)]; rfl

/-- Counting changes a VF in its counters alone. -/
theorem State.count_vf (s : State) (v k n w : Nat) :
    (s.count v k n).vf w = { (s.vf w) with
      perfcnt := ((s.count v k n).vf w).perfcnt, perfnew := ((s.count v k n).vf w).perfnew } := by
  dsimp only [State.count]
  split
  · simp only [State.vf, State.setVf]
    by_cases h : v = w
    · subst h; simp only [AMap.lookD_put_self]; exact VF.ticks _ _ _ _
    · simp [AMap.lookD_put_ne _ _ _ h]
  · rfl

/-! ## The end of a word -/

/-- What a completed word leaves. -/
def State.ended (s s' : State) : State :=
  ({ s' with cur := { s'.cur with ext := none, extBad := false, status := .issued } }).count (s.vfOf s.cur.core) 1 1

theorem finish_ok (s s' : State) : finish s (.ok s') = .next (s.ended s') := rfl

theorem finish_trap (s : State) (t : TrapInfo) : finish s (.trap t) = .next (s.raise t s.cur.pc) := rfl

theorem State.ended_completed (s s' : State) : (s.ended s').completed := by
  simp [State.completed, State.ended]

@[simp] theorem State.ended_core (s s' : State) (k : Nat) : (s.ended s').core k = s'.core k := by
  simp [State.ended, State.core]

/-- A word always goes on. -/
theorem finish_next (s : State) (r : Res State) : ∃ t, finish s r = .next t := by
  cases r <;> exact ⟨_, rfl⟩

/-- A word that raises a trap says which. -/
theorem State.raise_status (s : State) (t : TrapInfo) (pc : Word) : (s.raise t pc).cur.status = .trapped t (slotOf pc) := by
  have hend : ∀ (x : State) (l : Nat) (r : TrapRec), (x.endLaunch l r).cur = x.cur := by
    intro x l r; unfold State.endLaunch; split <;> (try split) <;> rfl
  unfold State.raise
  dsimp only
  repeat' split
  all_goals first | rfl | (rw [hend])

theorem finish_traps (s : State) (t : TrapInfo) : Traps (finish s (.trap t)) t.cause :=
  ⟨_, rfl, t, _, State.raise_status s t _, rfl⟩

/-! ## Warp words -/

/-- A warp word whose checks pass and whose body is done is done. -/
theorem warpWordS_ok {f : Form} {s s' : State} {srcs dsts : List Reg} {body : State → List Nat → Res State}
    (hf : checkForm f s = .ok ())
    (ho : operandCheck s.here s.active (fun u => srcs.all (s.here.srcOk u) && dsts.all (s.here.dstOk u)) s.lowLane
      (dsts.all dstNamed) = .ok ())
    (hh : helperCheck f s.here s.active = .ok ())
    (hb : body (s.setCore s.cur.core (s.here.advance s.cur.run s.active)) s.active = .ok s')
    (hw : watchdogCheck s.here s.active = .ok ()) :
    warpWordS f s srcs dsts body = .ok s' := by
  simp only [State.here] at *
  simp only [warpWordS, hf, ho, hh, hb, hw, Res.bind_ok]

/-- A warp word that is done passed its checks, and its body was done. -/
theorem warpWordS_eq_ok {f : Form} {s s' : State} {srcs dsts : List Reg} {body : State → List Nat → Res State}
    (h : warpWordS f s srcs dsts body = .ok s') :
    checkForm f s = .ok () ∧
    operandCheck s.here s.active (fun u => srcs.all (s.here.srcOk u) && dsts.all (s.here.dstOk u)) s.lowLane
      (dsts.all dstNamed) = .ok () ∧
    helperCheck f s.here s.active = .ok () ∧
    body (s.setCore s.cur.core (s.here.advance s.cur.run s.active)) s.active = .ok s' ∧
    watchdogCheck s.here s.active = .ok () := by
  unfold warpWordS at h
  obtain ⟨_, h1, h⟩ := Res.bind_eq_ok h
  obtain ⟨_, h2, h⟩ := Res.bind_eq_ok h
  obtain ⟨_, h3, h⟩ := Res.bind_eq_ok h
  obtain ⟨_, h4, h⟩ := Res.bind_eq_ok h
  obtain ⟨_, h5, h⟩ := Res.bind_eq_ok h
  cases h
  exact ⟨h1, h2, h3, h4, h5⟩

/-- A word whose form is not accepted traps with ILLEGAL_INSTRUCTION. -/
theorem warpWordS_illegal {f : Form} {s : State} {srcs dsts : List Reg} {body : State → List Nat → Res State}
    (hf : formIllegal f s = true) :
    warpWordS f s srcs dsts body = .trap (trapAt .illegalInstruction s.lowLane) := by
  simp [warpWordS, checkForm, hf]

theorem checkForm_ok {f : Form} {s : State} (hf : formIllegal f s = false) (ha : f.absent = false) :
    checkForm f s = .ok () := by
  simp [checkForm, hf, ha]

theorem operandCheck_ok {c : Core} {act : List Nat} {ok : Nat → Bool} {low : Nat} {named : Bool}
    (hn : named = true) (h : ∀ u ∈ act, ok u = true) : operandCheck c act ok low named = .ok () := by
  have hf : act.find? (fun u => !(ok u)) = none := by
    rw [List.find?_eq_none]; intro u hu; simp [h u hu]
  simp only [operandCheck, hn, hf]; rfl

theorem watchdogCheck_ok {c : Core} {act : List Nat} (h : ∀ u ∈ act, (c.th u).yc + 1 ≤ 1024 * (c.th u).dl) :
    watchdogCheck c act = .ok () := by
  have hf : act.find? (fun u => decide (1024 * (c.th u).dl < (c.th u).yc + 1)) = none := by
    rw [List.find?_eq_none]; intro u hu; have := h u hu; simp only [decide_eq_true_eq]; omega
  simp only [watchdogCheck, hf]

theorem helperCheck_ok {f : Form} {c : Core} {act : List Nat} (h : f.helper = true) : helperCheck f c act = .ok () := by
  simp [helperCheck, h]

end Sys2Proof.Machine
end

