-- ==== Sys2Proof/Laws/PerInstr.lean ====
section
/-! SUPPORT. The round trip of every instruction: the decoder reads back from the word that the encoder gives the same
instruction, with every operand at every value. An event has no word. -/

namespace Sys2Proof.Laws.RoundTrip

open Sys2Proof

section

set_option linter.unusedSimpArgs false
set_option Elab.async false

/-- The decoder reads the instruction back from its own word, under the SEL that the word needs (R31, R47, R50). -/
def Statement (i : Instr) : Prop := ∀ w, encode i = some w → decodeSel (encodeSel i) w = some i

theorem hdr (x0 x1 x2 x3) : Statement (.hdr x0 x1 x2 x3) := by
  intro w h
  obtain rfl := Option.some.inj h
  simp [decodeSel, decodeMaj01]

theorem nop (x0) : Statement (.nop x0) := by
  intro w h
  obtain rfl := Option.some.inj h
  simp [decodeSel, decodeMaj05]

theorem bra (x0 x1) : Statement (.bra x0 x1) := by
  intro w h
  obtain rfl := Option.some.inj h
  simp [decodeSel, decodeMaj02]

theorem brc (x0 x1 x2 x3) : Statement (.brc x0 x1 x2 x3) := by
  intro w h
  obtain rfl := Option.some.inj h
  simp [decodeSel, decodeMaj03]

theorem call (x0 x1) : Statement (.call x0 x1) := by
  intro w h
  obtain rfl := Option.some.inj h
  simp [decodeSel, decodeMaj04]

theorem brx (x0 x1) : Statement (.brx x0 x1) := by
  intro w h
  obtain rfl := Option.some.inj h
  simp [decodeSel, decodeMaj05]

theorem ret (x0 x1) : Statement (.ret x0 x1) := by
  intro w h
  obtain rfl := Option.some.inj h
  simp [decodeSel, decodeMaj05]

theorem exit (x0) : Statement (.exit x0) := by
  intro w h
  obtain rfl := Option.some.inj h
  simp [decodeSel, decodeMaj05]

theorem tail (x0) : Statement (.tail x0) := by
  intro w h
  obtain rfl := Option.some.inj h
  simp [decodeSel, decodeMaj06]

theorem prio (x0 x1) : Statement (.prio x0 x1) := by
  intro w h
  obtain rfl := Option.some.inj h
  simp [decodeSel, decodeMaj06]

theorem sleep (x0 x1) : Statement (.sleep x0 x1) := by
  intro w h
  obtain rfl := Option.some.inj h
  simp [decodeSel, decodeMaj06]

theorem yield (x0 x1) : Statement (.yield x0 x1) := by
  intro w h
  obtain rfl := Option.some.inj h
  simp [decodeSel, decodeMaj07, imm_low, imm_high]

theorem dqput (x0 x1 x2) : Statement (.dqput x0 x1 x2) := by
  intro w h
  obtain rfl := Option.some.inj h
  simp [decodeSel, decodeMaj08]

theorem dqtake (x0 x1) : Statement (.dqtake x0 x1) := by
  intro w h
  obtain rfl := Option.some.inj h
  simp [decodeSel, decodeMaj08]

theorem join (x0 x1 x2) : Statement (.join x0 x1 x2) := by
  intro w h
  obtain rfl := Option.some.inj h
  simp [decodeSel, decodeMaj09]

theorem leave (x0 x1) : Statement (.leave x0 x1) := by
  intro w h
  obtain rfl := Option.some.inj h
  simp [decodeSel, decodeMaj09]

theorem gbar (x0 x1) : Statement (.gbar x0 x1) := by
  intro w h
  obtain rfl := Option.some.inj h
  simp [decodeSel, decodeMaj09]

theorem gfire (x0 x1 x2) : Statement (.gfire x0 x1 x2) := by
  intro w h
  obtain rfl := Option.some.inj h
  simp [decodeSel, decodeMaj09]

theorem gsig (x0 x1 x2 x3) : Statement (.gsig x0 x1 x2 x3) := by
  intro w h
  obtain rfl := Option.some.inj h
  simp [decodeSel, decodeMaj0A]

theorem movi (x0 x1 x2) : Statement (.movi x0 x1 x2) := by
  intro w h
  obtain rfl := Option.some.inj h
  simp [decodeSel, decodeMaj0B]

theorem movh (x0 x1 x2) : Statement (.movh x0 x1 x2) := by
  intro w h
  obtain rfl := Option.some.inj h
  simp [decodeSel, decodeMaj0C]

theorem iaddi (x0 x1 x2 x3) : Statement (.iaddi x0 x1 x2 x3) := by
  intro w h
  obtain rfl := Option.some.inj h
  simp [decodeSel, decodeMaj0D]

theorem iadd (x0 x1 x2 x3) : Statement (.iadd x0 x1 x2 x3) := by
  intro w h
  obtain rfl := Option.some.inj h
  simp [decodeSel, decodeMaj0E]

theorem isub (x0 x1 x2 x3) : Statement (.isub x0 x1 x2 x3) := by
  intro w h
  obtain rfl := Option.some.inj h
  simp [decodeSel, decodeMaj0E]

theorem imul (x0 x1 x2 x3) : Statement (.imul x0 x1 x2 x3) := by
  intro w h
  obtain rfl := Option.some.inj h
  simp [decodeSel, decodeMaj0E]

theorem imulh (x0 x1 x2 x3) : Statement (.imulh x0 x1 x2 x3) := by
  intro w h
  obtain rfl := Option.some.inj h
  simp [decodeSel, decodeMaj0E]

theorem and (x0 x1 x2 x3) : Statement (.and x0 x1 x2 x3) := by
  intro w h
  obtain rfl := Option.some.inj h
  simp [decodeSel, decodeMaj0F]

theorem or (x0 x1 x2 x3) : Statement (.or x0 x1 x2 x3) := by
  intro w h
  obtain rfl := Option.some.inj h
  simp [decodeSel, decodeMaj0F]

theorem xor (x0 x1 x2 x3) : Statement (.xor x0 x1 x2 x3) := by
  intro w h
  obtain rfl := Option.some.inj h
  simp [decodeSel, decodeMaj0F]

theorem andn (x0 x1 x2 x3) : Statement (.andn x0 x1 x2 x3) := by
  intro w h
  obtain rfl := Option.some.inj h
  simp [decodeSel, decodeMaj0F]

theorem shl (x0 x1 x2 x3) : Statement (.shl x0 x1 x2 x3) := by
  intro w h
  obtain rfl := Option.some.inj h
  simp [decodeSel, decodeMaj10]

theorem shr (x0 x1 x2 x3) : Statement (.shr x0 x1 x2 x3) := by
  intro w h
  obtain rfl := Option.some.inj h
  simp [decodeSel, decodeMaj10]

theorem sar (x0 x1 x2 x3) : Statement (.sar x0 x1 x2 x3) := by
  intro w h
  obtain rfl := Option.some.inj h
  simp [decodeSel, decodeMaj10]

theorem rot (x0 x1 x2 x3) : Statement (.rot x0 x1 x2 x3) := by
  intro w h
  obtain rfl := Option.some.inj h
  simp [decodeSel, decodeMaj10]

theorem imin (x0 x1 x2 x3) : Statement (.imin x0 x1 x2 x3) := by
  intro w h
  obtain rfl := Option.some.inj h
  simp [decodeSel, decodeMaj11]

theorem imax (x0 x1 x2 x3) : Statement (.imax x0 x1 x2 x3) := by
  intro w h
  obtain rfl := Option.some.inj h
  simp [decodeSel, decodeMaj11]

theorem umin (x0 x1 x2 x3) : Statement (.umin x0 x1 x2 x3) := by
  intro w h
  obtain rfl := Option.some.inj h
  simp [decodeSel, decodeMaj11]

theorem umax (x0 x1 x2 x3) : Statement (.umax x0 x1 x2 x3) := by
  intro w h
  obtain rfl := Option.some.inj h
  simp [decodeSel, decodeMaj11]

theorem popc (x0 x1 x2) : Statement (.popc x0 x1 x2) := by
  intro w h
  obtain rfl := Option.some.inj h
  simp [decodeSel, decodeMaj12]

theorem clz (x0 x1 x2) : Statement (.clz x0 x1 x2) := by
  intro w h
  obtain rfl := Option.some.inj h
  simp [decodeSel, decodeMaj12]

theorem brev (x0 x1 x2) : Statement (.brev x0 x1 x2) := by
  intro w h
  obtain rfl := Option.some.inj h
  simp [decodeSel, decodeMaj12]

theorem iabs (x0 x1 x2) : Statement (.iabs x0 x1 x2) := by
  intro w h
  obtain rfl := Option.some.inj h
  simp [decodeSel, decodeMaj12]

theorem sel (x0 x1 x2 x3) : Statement (.sel x0 x1 x2 x3) := by
  intro w h
  obtain rfl := Option.some.inj h
  simp [decodeSel, decodeMaj13]

theorem lea (x0 x1 x2 x3) : Statement (.lea x0 x1 x2 x3) := by
  intro w h
  obtain rfl := Option.some.inj h
  simp [decodeSel, decodeMaj13]

theorem imad (x0 x1 x2 x3) : Statement (.imad x0 x1 x2 x3) := by
  intro w h
  obtain rfl := Option.some.inj h
  simp [decodeSel, decodeMaj13]

theorem idivs (x0 x1 x2 x3) : Statement (.idivs x0 x1 x2 x3) := by
  intro w h
  obtain rfl := Option.some.inj h
  simp [decodeSel, decodeMaj13]

theorem bfx (x0 x1 x2 x3) : Statement (.bfx x0 x1 x2 x3) := by
  intro w h
  obtain rfl := Option.some.inj h
  simp [decodeSel, decodeMaj14]

theorem bfxs (x0 x1 x2 x3) : Statement (.bfxs x0 x1 x2 x3) := by
  intro w h
  obtain rfl := Option.some.inj h
  simp [decodeSel, decodeMaj14]

theorem bfi (x0 x1 x2 x3) : Statement (.bfi x0 x1 x2 x3) := by
  intro w h
  obtain rfl := Option.some.inj h
  simp [decodeSel, decodeMaj14]

theorem icmp (x0 x1 x2 x3 x4) : Statement (.icmp x0 x1 x2 x3 x4) := by
  intro w h
  obtain rfl := Option.some.inj h
  simp [decodeSel, decodeMaj14, encV_cond, encV_pd]

theorem fadd (x0 x1 x2 x3) : Statement (.fadd x0 x1 x2 x3) := by
  intro w h
  obtain rfl := Option.some.inj h
  simp [decodeSel, decodeMaj15]

theorem fsub (x0 x1 x2 x3) : Statement (.fsub x0 x1 x2 x3) := by
  intro w h
  obtain rfl := Option.some.inj h
  simp [decodeSel, decodeMaj15]

theorem fmul (x0 x1 x2 x3) : Statement (.fmul x0 x1 x2 x3) := by
  intro w h
  obtain rfl := Option.some.inj h
  simp [decodeSel, decodeMaj15]

theorem ffma (x0 x1 x2 x3) : Statement (.ffma x0 x1 x2 x3) := by
  intro w h
  obtain rfl := Option.some.inj h
  simp [decodeSel, decodeMaj15]

theorem fmin (x0 x1 x2 x3) : Statement (.fmin x0 x1 x2 x3) := by
  intro w h
  obtain rfl := Option.some.inj h
  simp [decodeSel, decodeMaj16]

theorem fmax (x0 x1 x2 x3) : Statement (.fmax x0 x1 x2 x3) := by
  intro w h
  obtain rfl := Option.some.inj h
  simp [decodeSel, decodeMaj16]

theorem fabs (x0 x1 x2) : Statement (.fabs x0 x1 x2) := by
  intro w h
  obtain rfl := Option.some.inj h
  simp [decodeSel, decodeMaj16]

theorem fcmp (x0 x1 x2 x3 x4) : Statement (.fcmp x0 x1 x2 x3 x4) := by
  intro w h
  obtain rfl := Option.some.inj h
  simp [decodeSel, decodeMaj16, encV_cond, encV_pd]

theorem frcp (x0 x1 x2) : Statement (.frcp x0 x1 x2) := by
  intro w h
  obtain rfl := Option.some.inj h
  simp [decodeSel, decodeMaj17]

theorem frsq (x0 x1 x2) : Statement (.frsq x0 x1 x2) := by
  intro w h
  obtain rfl := Option.some.inj h
  simp [decodeSel, decodeMaj17]

theorem fsqrt (x0 x1 x2) : Statement (.fsqrt x0 x1 x2) := by
  intro w h
  obtain rfl := Option.some.inj h
  simp [decodeSel, decodeMaj17]

theorem fex2 (x0 x1 x2) : Statement (.fex2 x0 x1 x2) := by
  intro w h
  obtain rfl := Option.some.inj h
  simp [decodeSel, decodeMaj17]

theorem flg2 (x0 x1 x2) : Statement (.flg2 x0 x1 x2) := by
  intro w h
  obtain rfl := Option.some.inj h
  simp [decodeSel, decodeMaj18]

theorem ftanh (x0 x1 x2) : Statement (.ftanh x0 x1 x2) := by
  intro w h
  obtain rfl := Option.some.inj h
  simp [decodeSel, decodeMaj18]

theorem fsin (x0 x1 x2) : Statement (.fsin x0 x1 x2) := by
  intro w h
  obtain rfl := Option.some.inj h
  simp [decodeSel, decodeMaj18]

theorem fcos (x0 x1 x2) : Statement (.fcos x0 x1 x2) := by
  intro w h
  obtain rfl := Option.some.inj h
  simp [decodeSel, decodeMaj18]

theorem cvtf (x0 x1 x2 x3) : Statement (.cvtf x0 x1 x2 x3) := by
  intro w h
  obtain rfl := Option.some.inj h
  simp [decodeSel, decodeMaj19]

theorem cvtfi (x0 x1 x2 x3) : Statement (.cvtfi x0 x1 x2 x3) := by
  intro w h
  obtain rfl := Option.some.inj h
  simp [decodeSel, decodeMaj19]

theorem cvtif (x0 x1 x2 x3) : Statement (.cvtif x0 x1 x2 x3) := by
  intro w h
  obtain rfl := Option.some.inj h
  simp [decodeSel, decodeMaj19]

theorem cvtsr (x0 x1 x2 x3) : Statement (.cvtsr x0 x1 x2 x3) := by
  intro w h
  obtain rfl := Option.some.inj h
  simp [decodeSel, decodeMaj19]

theorem hfma2 (x0 x1 x2 x3) : Statement (.hfma2 x0 x1 x2 x3) := by
  intro w h
  obtain rfl := Option.some.inj h
  simp [decodeSel, decodeMaj1A]

theorem hadd2 (x0 x1 x2 x3) : Statement (.hadd2 x0 x1 x2 x3) := by
  intro w h
  obtain rfl := Option.some.inj h
  simp [decodeSel, decodeMaj1A]

theorem hmul2 (x0 x1 x2 x3) : Statement (.hmul2 x0 x1 x2 x3) := by
  intro w h
  obtain rfl := Option.some.inj h
  simp [decodeSel, decodeMaj1A]

theorem hmax2 (x0 x1 x2 x3) : Statement (.hmax2 x0 x1 x2 x3) := by
  intro w h
  obtain rfl := Option.some.inj h
  simp [decodeSel, decodeMaj1A]

theorem seed (x0 x1 x2) : Statement (.seed x0 x1 x2) := by
  intro w h
  obtain rfl := Option.some.inj h
  simp [decodeSel, decodeMaj1B]

theorem rand (x0 x1) : Statement (.rand x0 x1) := by
  intro w h
  obtain rfl := Option.some.inj h
  simp [decodeSel, decodeMaj1B]

theorem ext (x0 x1 x2 x3 x4 x5) : Statement (.ext x0 x1 x2 x3 x4 x5) := by
  intro w h
  obtain rfl := Option.some.inj h
  simp [decodeSel, decodeMaj1C]

theorem perm (x0 x1 x2 x3) : Statement (.perm x0 x1 x2 x3) := by
  intro w h
  obtain rfl := Option.some.inj h
  simp [decodeSel, decodeMaj1D]

theorem bcast (x0 x1 x2 x3) : Statement (.bcast x0 x1 x2 x3) := by
  intro w h
  obtain rfl := Option.some.inj h
  simp [decodeSel, decodeMaj1D]

theorem scan (x0 x1 x2 x3) : Statement (.scan x0 x1 x2 x3) := by
  intro w h
  obtain rfl := Option.some.inj h
  simp [decodeSel, decodeMaj1D]

theorem redl (x0 x1 x2 x3) : Statement (.redl x0 x1 x2 x3) := by
  intro w h
  obtain rfl := Option.some.inj h
  simp [decodeSel, decodeMaj1D]

theorem vote (x0 x1 x2 x3) : Statement (.vote x0 x1 x2 x3) := by
  intro w h
  obtain rfl := Option.some.inj h
  simp [decodeSel, decodeMaj1E]

theorem matchLanes (x0 x1 x2) : Statement (.matchLanes x0 x1 x2) := by
  intro w h
  obtain rfl := Option.some.inj h
  simp [decodeSel, decodeMaj1E]

theorem elect (x0 x1) : Statement (.elect x0 x1) := by
  intro w h
  obtain rfl := Option.some.inj h
  simp [decodeSel, decodeMaj1E]

theorem lanemask (x0 x1 x2) : Statement (.lanemask x0 x1 x2) := by
  intro w h
  obtain rfl := Option.some.inj h
  simp [decodeSel, decodeMaj1E]

theorem ld (x0 x1 x2 x3 x4 x5) : Statement (.ld x0 x1 x2 x3 x4 x5) := by
  intro w h
  obtain rfl := Option.some.inj h
  simp [decodeSel, decodeMaj1F]

theorem st (x0 x1 x2 x3 x4 x5) : Statement (.st x0 x1 x2 x3 x4 x5) := by
  intro w h
  obtain rfl := Option.some.inj h
  simp [decodeSel, decodeMaj20]

theorem lds (x0 x1 x2 x3 x4 x5) : Statement (.lds x0 x1 x2 x3 x4 x5) := by
  intro w h
  obtain rfl := Option.some.inj h
  simp [decodeSel, decodeMaj21]

theorem sts (x0 x1 x2 x3 x4 x5) : Statement (.sts x0 x1 x2 x3 x4 x5) := by
  intro w h
  obtain rfl := Option.some.inj h
  simp [decodeSel, decodeMaj22]

theorem ldw (x0 x1 x2 x3 x4 x5) : Statement (.ldw x0 x1 x2 x3 x4 x5) := by
  intro w h
  obtain rfl := Option.some.inj h
  simp [decodeSel, decodeMaj23]

theorem stw (x0 x1 x2 x3 x4 x5) : Statement (.stw x0 x1 x2 x3 x4 x5) := by
  intro w h
  obtain rfl := Option.some.inj h
  simp [decodeSel, decodeMaj24]

theorem pref (x0 x1 x2 x3) : Statement (.pref x0 x1 x2 x3) := by
  intro w h
  obtain rfl := Option.some.inj h
  simp [decodeSel, decodeMaj25]

theorem bufset (x0 x1 x2 x3) : Statement (.bufset x0 x1 x2 x3) := by
  intro w h
  obtain rfl := Option.some.inj h
  simp [encodeSel, decodeSel, decodeMaj26]

theorem frec (x0 x1) : Statement (.frec x0 x1) := by
  intro w h
  obtain rfl := Option.some.inj h
  simp [encodeSel, decodeSel, decodeMaj26]

theorem frecXlate (x0 x1) : Statement (.frecXlate x0 x1) := by
  intro w h
  obtain rfl := Option.some.inj h
  simp [encodeSel, decodeSel, decodeMaj26]

theorem migctlStart (x0 x1 x2 x3) : Statement (.migctlStart x0 x1 x2 x3) := by
  intro w h
  obtain rfl := Option.some.inj h
  simp [encodeSel, decodeSel, decodeMaj26]

theorem migctlQuery (x0 x1 x2 x3) : Statement (.migctlQuery x0 x1 x2 x3) := by
  intro w h
  obtain rfl := Option.some.inj h
  simp [encodeSel, decodeSel, decodeMaj26]

theorem migctlResolve (x0 x1 x2 x3) : Statement (.migctlResolve x0 x1 x2 x3) := by
  intro w h
  obtain rfl := Option.some.inj h
  simp [encodeSel, decodeSel, decodeMaj26]

theorem migctlAbort (x0 x1 x2 x3) : Statement (.migctlAbort x0 x1 x2 x3) := by
  intro w h
  obtain rfl := Option.some.inj h
  simp [encodeSel, decodeSel, decodeMaj26]

theorem migctlInvpg (x0 x1 x2 x3) : Statement (.migctlInvpg x0 x1 x2 x3) := by
  intro w h
  obtain rfl := Option.some.inj h
  simp [encodeSel, decodeSel, decodeMaj26]

theorem qpush (x0 x1 x2) : Statement (.qpush x0 x1 x2) := by
  intro w h
  obtain rfl := Option.some.inj h
  simp [encodeSel, decodeSel, decodeMaj26]

theorem qpop (x0 x1) : Statement (.qpop x0 x1) := by
  intro w h
  obtain rfl := Option.some.inj h
  simp [decodeSel, decodeMaj27]

theorem atom (x0 x1 x2 x3 x4 x5) : Statement (.atom x0 x1 x2 x3 x4 x5) := by
  intro w h
  obtain rfl := Option.some.inj h
  simp [decodeSel, decodeMaj28]

theorem atomAcq (x0 x1 x2 x3 x4 x5) : Statement (.atomAcq x0 x1 x2 x3 x4 x5) := by
  intro w h
  obtain rfl := Option.some.inj h
  simp [decodeSel, decodeMaj29]

theorem atomRel (x0 x1 x2 x3 x4 x5) : Statement (.atomRel x0 x1 x2 x3 x4 x5) := by
  intro w h
  obtain rfl := Option.some.inj h
  simp [decodeSel, decodeMaj2A]

theorem cas (x0 x1 x2 x3 x4 x5) : Statement (.cas x0 x1 x2 x3 x4 x5) := by
  intro w h
  obtain rfl := Option.some.inj h
  simp [decodeSel, decodeMaj2B]

theorem atomnr (x0 x1 x2 x3 x4 x5) : Statement (.atomnr x0 x1 x2 x3 x4 x5) := by
  intro w h
  obtain rfl := Option.some.inj h
  simp [decodeSel, decodeMaj2C]

theorem satom (x0 x1 x2 x3 x4 x5) : Statement (.satom x0 x1 x2 x3 x4 x5) := by
  intro w h
  obtain rfl := Option.some.inj h
  simp [decodeSel, decodeMaj2D]

theorem acq (x0) : Statement (.acq x0) := by
  intro w h
  obtain rfl := Option.some.inj h
  simp [decodeSel, decodeMaj2E]

theorem rel (x0) : Statement (.rel x0) := by
  intro w h
  obtain rfl := Option.some.inj h
  simp [decodeSel, decodeMaj2E]

theorem fence (x0) : Statement (.fence x0) := by
  intro w h
  obtain rfl := Option.some.inj h
  simp [decodeSel, decodeMaj2E]

theorem bwait (x0 x1 x2) : Statement (.bwait x0 x1 x2) := by
  intro w h
  obtain rfl := Option.some.inj h
  simp [decodeSel, decodeMaj2E]

theorem binit (x0 x1 x2) : Statement (.binit x0 x1 x2) := by
  intro w h
  obtain rfl := Option.some.inj h
  simp [decodeSel, decodeMaj2F]

theorem barrive (x0 x1 x2) : Statement (.barrive x0 x1 x2) := by
  intro w h
  obtain rfl := Option.some.inj h
  simp [decodeSel, decodeMaj2F]

theorem bexpect (x0 x1 x2) : Statement (.bexpect x0 x1 x2) := by
  intro w h
  obtain rfl := Option.some.inj h
  simp [decodeSel, decodeMaj2F]

theorem btest (x0 x1 x2 x3) : Statement (.btest x0 x1 x2 x3) := by
  intro w h
  obtain rfl := Option.some.inj h
  simp [decodeSel, decodeMaj2F]

theorem ndef (x0 x1 x2 x3) : Statement (.ndef x0 x1 x2 x3) := by
  intro w h
  obtain rfl := Option.some.inj h
  simp [decodeSel, decodeMaj30]

theorem nedge (x0 x1 x2 x3) : Statement (.nedge x0 x1 x2 x3) := by
  intro w h
  obtain rfl := Option.some.inj h
  simp [decodeSel, decodeMaj30]

theorem nfire (x0 x1 x2) : Statement (.nfire x0 x1 x2) := by
  intro w h
  obtain rfl := Option.some.inj h
  simp [decodeSel, decodeMaj30]

theorem cpy (x0 x1 x2 x3) : Statement (.cpy x0 x1 x2 x3) := by
  intro w h
  obtain rfl := Option.some.inj h
  simp [decodeSel, decodeMaj30]

theorem gath (x0 x1 x2 x3) : Statement (.gath x0 x1 x2 x3) := by
  intro w h
  obtain rfl := Option.some.inj h
  simp [decodeSel, decodeMaj30]

theorem scat (x0 x1 x2 x3) : Statement (.scat x0 x1 x2 x3) := by
  intro w h
  obtain rfl := Option.some.inj h
  simp [decodeSel, decodeMaj30]

theorem nwait (x0 x1 x2 x3) : Statement (.nwait x0 x1 x2 x3) := by
  intro w h
  obtain rfl := Option.some.inj h
  simp [decodeSel, decodeMaj30]

theorem mresv (x0 x1 x2) : Statement (.mresv x0 x1 x2) := by
  intro w h
  obtain rfl := Option.some.inj h
  simp [decodeSel, decodeMaj31]

theorem mldb (x0 x1 x2 x3) : Statement (.mldb x0 x1 x2 x3) := by
  intro w h
  obtain rfl := Option.some.inj h
  simp [decodeSel, decodeMaj31, opt_pair_low, opt_pair_high]

theorem mgath (x0 x1 x2 x3 x4) : Statement (.mgath x0 x1 x2 x3 x4) := by
  intro w h
  obtain rfl := Option.some.inj h
  simp [decodeSel, decodeMaj31, opt_low, opt_mid, opt_high, bit_eq_one]

theorem mma (x0 x1 x2 x3 x4 x5) : Statement (.mma x0 x1 x2 x3 x4 x5) := by
  intro w h
  obtain rfl := Option.some.inj h
  simp [decodeSel, decodeMaj31, opt_low, opt_mid, opt_high, bit_eq_one]

theorem mtrn (x0 x1 x2 x3 x4) : Statement (.mtrn x0 x1 x2 x3 x4) := by
  intro w h
  obtain rfl := Option.some.inj h
  simp [decodeSel, decodeMaj31, opt_low, opt_mid, opt_high, bit_eq_one]

theorem mzero (x0 x1 x2 x3) : Statement (.mzero x0 x1 x2 x3) := by
  intro w h
  obtain rfl := Option.some.inj h
  simp [decodeSel, decodeMaj31, opt_pair_low, opt_pair_high]

theorem mst (x0 x1 x2 x3 x4 x5 x6) : Statement (.mst x0 x1 x2 x3 x4 x5 x6) := by
  intro w h
  obtain rfl := Option.some.inj h
  simp [decodeSel, decodeMaj31, opt_low, opt_mid, opt_high, bit_eq_one]

theorem mscale (x0 x1 x2 x3 x4 x5 x6) : Statement (.mscale x0 x1 x2 x3 x4 x5 x6) := by
  intro w h
  obtain rfl := Option.some.inj h
  simp [decodeSel, decodeMaj31, opt_low, opt_mid, opt_high, bit_eq_one]

theorem mfree (x0 x1) : Statement (.mfree x0 x1) := by
  intro w h
  obtain rfl := Option.some.inj h
  simp [decodeSel, decodeMaj31]

theorem treg (x0 x1 x2) : Statement (.treg x0 x1 x2) := by
  intro w h
  obtain rfl := Option.some.inj h
  simp [decodeSel, decodeMaj32]

theorem tdrop (x0 x1) : Statement (.tdrop x0 x1) := by
  intro w h
  obtain rfl := Option.some.inj h
  simp [decodeSel, decodeMaj32]

theorem tfetch (x0 x1 x2) : Statement (.tfetch x0 x1 x2) := by
  intro w h
  obtain rfl := Option.some.inj h
  simp [decodeSel, decodeMaj32]

theorem thalo (x0 x1 x2 x3) : Statement (.thalo x0 x1 x2 x3) := by
  intro w h
  obtain rfl := Option.some.inj h
  simp [decodeSel, decodeMaj32]

theorem tinv (x0 x1 x2) : Statement (.tinv x0 x1 x2) := by
  intro w h
  obtain rfl := Option.some.inj h
  simp [decodeSel, decodeMaj33]

theorem tlook (x0 x1 x2 x3) : Statement (.tlook x0 x1 x2 x3) := by
  intro w h
  obtain rfl := Option.some.inj h
  simp [decodeSel, decodeMaj33]

theorem snap (x0 x1 x2) : Statement (.snap x0 x1 x2) := by
  intro w h
  obtain rfl := Option.some.inj h
  simp [decodeSel, decodeMaj34]

theorem rest (x0 x1 x2) : Statement (.rest x0 x1 x2) := by
  intro w h
  obtain rfl := Option.some.inj h
  simp [decodeSel, decodeMaj34]

theorem spawn (x0 x1 x2 x3) : Statement (.spawn x0 x1 x2 x3) := by
  intro w h
  obtain rfl := Option.some.inj h
  simp [decodeSel, decodeMaj34]

theorem spawnFar (x0 x1 x2 x3) : Statement (.spawnFar x0 x1 x2 x3) := by
  intro w h
  obtain rfl := Option.some.inj h
  simp [decodeSel, decodeMaj34]

theorem drop (x0 x1) : Statement (.drop x0 x1) := by
  intro w h
  obtain rfl := Option.some.inj h
  simp [decodeSel, decodeMaj34]

theorem hinfo (x0 x1 x2 x3) : Statement (.hinfo x0 x1 x2 x3) := by
  intro w h
  obtain rfl := Option.some.inj h
  simp [decodeSel, decodeMaj34]

theorem recruit (x0 x1 x2 x3) : Statement (.recruit x0 x1 x2 x3) := by
  intro w h
  obtain rfl := Option.some.inj h
  simp [decodeSel, decodeMaj34]

theorem offer (x0 x1 x2) : Statement (.offer x0 x1 x2) := by
  intro w h
  obtain rfl := Option.some.inj h
  simp [decodeSel, decodeMaj34]

theorem hend (x0 x1 x2) : Statement (.hend x0 x1 x2) := by
  intro w h
  obtain rfl := Option.some.inj h
  simp [decodeSel, decodeMaj34]

theorem hwait (x0 x1) : Statement (.hwait x0 x1) := by
  intro w h
  obtain rfl := Option.some.inj h
  simp [decodeSel, decodeMaj34]

theorem hkill (x0 x1) : Statement (.hkill x0 x1) := by
  intro w h
  obtain rfl := Option.some.inj h
  simp [decodeSel, decodeMaj34]

theorem kvnewSeq (x0 x1 x2 x3 x4) : Statement (.kvnewSeq x0 x1 x2 x3 x4) := by
  intro w h
  obtain rfl := Option.some.inj h
  simp [encodeSel, decodeSel, decodeMaj35]

theorem kvnewPool (x0 x1 x2 x3 x4) : Statement (.kvnewPool x0 x1 x2 x3 x4) := by
  intro w h
  obtain rfl := Option.some.inj h
  simp [encodeSel, decodeSel, decodeMaj35]

theorem kvnewDrop (x0 x1 x2 x3 x4) : Statement (.kvnewDrop x0 x1 x2 x3 x4) := by
  intro w h
  obtain rfl := Option.some.inj h
  simp [encodeSel, decodeSel, decodeMaj35]

theorem kvapp (x0 x1 x2 x3 x4) : Statement (.kvapp x0 x1 x2 x3 x4) := by
  intro w h
  obtain rfl := Option.some.inj h
  simp [encodeSel, decodeSel, decodeMaj35]

theorem kvfork (x0 x1 x2 x3 x4) : Statement (.kvfork x0 x1 x2 x3 x4) := by
  intro w h
  obtain rfl := Option.some.inj h
  simp [encodeSel, decodeSel, decodeMaj35]

theorem kvforkCow (x0 x1 x2 x3) : Statement (.kvforkCow x0 x1 x2 x3) := by
  intro w h
  obtain rfl := Option.some.inj h
  simp [encodeSel, decodeSel, decodeMaj35]

theorem kvfree (x0 x1 x2 x3 x4) : Statement (.kvfree x0 x1 x2 x3 x4) := by
  intro w h
  obtain rfl := Option.some.inj h
  simp [encodeSel, decodeSel, decodeMaj35]

theorem kvfreeTrunc (x0 x1 x2 x3 x4) : Statement (.kvfreeTrunc x0 x1 x2 x3 x4) := by
  intro w h
  obtain rfl := Option.some.inj h
  simp [encodeSel, decodeSel, decodeMaj35]

theorem kvwalk (x0 x1 x2 x3 x4) : Statement (.kvwalk x0 x1 x2 x3 x4) := by
  intro w h
  obtain rfl := Option.some.inj h
  simp [encodeSel, decodeSel, decodeMaj35]

theorem kvinvSet (x0 x1 x2 x3 x4) : Statement (.kvinvSet x0 x1 x2 x3 x4) := by
  intro w h
  obtain rfl := Option.some.inj h
  simp [encodeSel, decodeSel, decodeMaj35]

theorem kvinvClr (x0 x1 x2 x3 x4) : Statement (.kvinvClr x0 x1 x2 x3 x4) := by
  intro w h
  obtain rfl := Option.some.inj h
  simp [encodeSel, decodeSel, decodeMaj35]

theorem rspan (x0 x1 x2 x3 x4) : Statement (.rspan x0 x1 x2 x3 x4) := by
  intro w h
  obtain rfl := Option.some.inj h
  simp [encodeSel, decodeSel, decodeMaj35]

theorem xqsend (x0 x1 x2) : Statement (.xqsend x0 x1 x2) := by
  intro w h
  obtain rfl := Option.some.inj h
  simp [encodeSel, decodeSel, decodeMaj35]

theorem xqrecv (x0 x1 x2) : Statement (.xqrecv x0 x1 x2) := by
  intro w h
  obtain rfl := Option.some.inj h
  simp [encodeSel, decodeSel, decodeMaj35]

theorem xqrecvDraft (x0 x1 x2) : Statement (.xqrecvDraft x0 x1 x2) := by
  intro w h
  obtain rfl := Option.some.inj h
  simp [encodeSel, decodeSel, decodeMaj35]

theorem gstep (x0 x1 x2 x3 x4) : Statement (.gstep x0 x1 x2 x3 x4) := by
  intro w h
  obtain rfl := Option.some.inj h
  simp [encodeSel, decodeSel, decodeMaj35]

theorem gstepBind (x0 x1 x2 x3 x4) : Statement (.gstepBind x0 x1 x2 x3 x4) := by
  intro w h
  obtain rfl := Option.some.inj h
  simp [encodeSel, decodeSel, decodeMaj35]

theorem gmask (x0 x1 x2 x3 x4) : Statement (.gmask x0 x1 x2 x3 x4) := by
  intro w h
  obtain rfl := Option.some.inj h
  simp [encodeSel, decodeSel, decodeMaj35]

theorem kvquotaRd (x0 x1 x2) : Statement (.kvquotaRd x0 x1 x2) := by
  intro w h
  obtain rfl := Option.some.inj h
  simp [encodeSel, decodeSel, decodeMaj35]

theorem kvquotaWr (x0 x1 x2) : Statement (.kvquotaWr x0 x1 x2) := by
  intro w h
  obtain rfl := Option.some.inj h
  simp [encodeSel, decodeSel, decodeMaj35]

theorem trap (x0 x1) : Statement (.trap x0 x1) := by
  intro w h
  obtain rfl := Option.some.inj h
  simp [encodeSel, decodeSel, decodeMaj36]

theorem tretRetry (x0 x1 x2 x3) : Statement (.tretRetry x0 x1 x2 x3) := by
  intro w h
  obtain rfl := Option.some.inj h
  simp [encodeSel, decodeSel, decodeMaj36]

theorem tretNext (x0 x1 x2 x3) : Statement (.tretNext x0 x1 x2 x3) := by
  intro w h
  obtain rfl := Option.some.inj h
  simp [encodeSel, decodeSel, decodeMaj36]

theorem tretEnd (x0 x1 x2 x3) : Statement (.tretEnd x0 x1 x2 x3) := by
  intro w h
  obtain rfl := Option.some.inj h
  simp [encodeSel, decodeSel, decodeMaj36]

theorem sysrd (x0 x1 x2) : Statement (.sysrd x0 x1 x2) := by
  intro w h
  obtain rfl := Option.some.inj h
  simp [encodeSel, decodeSel, decodeMaj36]

theorem syswr (x0 x1 x2) : Statement (.syswr x0 x1 x2) := by
  intro w h
  obtain rfl := Option.some.inj h
  simp [encodeSel, decodeSel, decodeMaj36]

theorem perf (x0 x1 x2) : Statement (.perf x0 x1 x2) := by
  intro w h
  obtain rfl := Option.some.inj h
  simp [encodeSel, decodeSel, decodeMaj37]

theorem haltctx (x0 x1 x2) : Statement (.haltctx x0 x1 x2) := by
  intro w h
  obtain rfl := Option.some.inj h
  simp [encodeSel, decodeSel, decodeMaj37]

theorem ckptCut (x0 x1) : Statement (.ckptCut x0 x1) := by
  intro w h
  obtain rfl := Option.some.inj h
  simp [encodeSel, decodeSel, decodeMaj37]

theorem ckptQuery (x0 x1) : Statement (.ckptQuery x0 x1) := by
  intro w h
  obtain rfl := Option.some.inj h
  simp [encodeSel, decodeSel, decodeMaj37]

theorem ckptAbort (x0 x1) : Statement (.ckptAbort x0 x1) := by
  intro w h
  obtain rfl := Option.some.inj h
  simp [encodeSel, decodeSel, decodeMaj37]

theorem ckptRestore (x0 x1) : Statement (.ckptRestore x0 x1) := by
  intro w h
  obtain rfl := Option.some.inj h
  simp [encodeSel, decodeSel, decodeMaj37]

theorem wdog (x0 x1) : Statement (.wdog x0 x1) := by
  intro w h
  obtain rfl := Option.some.inj h
  simp [encodeSel, decodeSel, decodeMaj37]

theorem wdogSet (x0 x1 x2) : Statement (.wdogSet x0 x1 x2) := by
  intro w h
  obtain rfl := Option.some.inj h
  simp [encodeSel, decodeSel, decodeMaj37]

theorem watchdog (x0 x1) : Statement (.watchdog x0 x1) := fun _ h => nomatch h

theorem sleepWake (x0 x1) : Statement (.sleepWake x0 x1) := fun _ h => nomatch h

theorem offerTimeout (x0 x1) : Statement (.offerTimeout x0 x1) := fun _ h => nomatch h

theorem teardownComplete (x0) : Statement (.teardownComplete x0) := fun _ h => nomatch h

theorem loadDataArrival (x0 x1) : Statement (.loadDataArrival x0 x1) := fun _ h => nomatch h

theorem storeRegistration (x0 x1) : Statement (.storeRegistration x0 x1) := fun _ h => nomatch h

theorem storeGrant (x0 x1) : Statement (.storeGrant x0 x1) := fun _ h => nomatch h

theorem atomicPerformance (x0 x1) : Statement (.atomicPerformance x0 x1) := fun _ h => nomatch h

theorem atomicResultArrival (x0 x1) : Statement (.atomicResultArrival x0 x1) := fun _ h => nomatch h

theorem translationWalk (x0 x1) : Statement (.translationWalk x0 x1) := fun _ h => nomatch h

theorem migrationLineCopy (x0 x1) : Statement (.migrationLineCopy x0 x1) := fun _ h => nomatch h

theorem barrierRecheck (x0 x1) : Statement (.barrierRecheck x0 x1) := fun _ h => nomatch h

theorem jacquardWordApply (x0) : Statement (.jacquardWordApply x0) := fun _ h => nomatch h

theorem engineLaunch (x0) : Statement (.engineLaunch x0) := fun _ h => nomatch h

theorem engineLaunchCompletion (x0 x1) : Statement (.engineLaunchCompletion x0 x1) := fun _ h => nomatch h

theorem matrixWordApply (x0) : Statement (.matrixWordApply x0) := fun _ h => nomatch h

theorem matrixPassGrant (x0) : Statement (.matrixPassGrant x0) := fun _ h => nomatch h

theorem matrixPassComplete (x0) : Statement (.matrixPassComplete x0) := fun _ h => nomatch h

theorem latchLoadComplete (x0) : Statement (.latchLoadComplete x0) := fun _ h => nomatch h

theorem mstCredit (x0 x1) : Statement (.mstCredit x0 x1) := fun _ h => nomatch h

theorem brocadeSweep (x0) : Statement (.brocadeSweep x0) := fun _ h => nomatch h

theorem tinvSliceApply (x0 x1 x2) : Statement (.tinvSliceApply x0 x1 x2) := fun _ h => nomatch h

theorem twillChase (x0) : Statement (.twillChase x0) := fun _ h => nomatch h

theorem poolLaneOperation (x0 x1) : Statement (.poolLaneOperation x0 x1) := fun _ h => nomatch h

theorem graphLoadComplete (x0 x1) : Statement (.graphLoadComplete x0 x1) := fun _ h => nomatch h

theorem runStart (x0 x1) : Statement (.runStart x0 x1) := fun _ h => nomatch h

theorem schedulerDispatch : Statement .schedulerDispatch := fun _ h => nomatch h

theorem launchComplete (x0) : Statement (.launchComplete x0) := fun _ h => nomatch h

theorem sliceExpiry (x0) : Statement (.sliceExpiry x0) := fun _ h => nomatch h

theorem graceExpiry (x0) : Statement (.graceExpiry x0) := fun _ h => nomatch h

theorem killExpiry (x0) : Statement (.killExpiry x0) := fun _ h => nomatch h

theorem contextSave (x0) : Statement (.contextSave x0) := fun _ h => nomatch h

theorem contextResume (x0) : Statement (.contextResume x0) := fun _ h => nomatch h

theorem checkpointSweep (x0) : Statement (.checkpointSweep x0) := fun _ h => nomatch h

theorem pieceReserveCopy (x0 x1) : Statement (.pieceReserveCopy x0 x1) := fun _ h => nomatch h

theorem checkpointDrain (x0) : Statement (.checkpointDrain x0) := fun _ h => nomatch h

theorem quantumScrub (x0) : Statement (.quantumScrub x0) := fun _ h => nomatch h

theorem powerOn (x0) : Statement (.powerOn x0) := fun _ h => nomatch h

theorem unallocatedEncoding (x0 x1) : Statement (.unallocatedEncoding x0 x1) := fun _ h => nomatch h

theorem messageEnqueued (x0 x1) : Statement (.messageEnqueued x0 x1) := fun _ h => nomatch h

theorem graphloadLoad (x0 x1 x2) : Statement (.graphloadLoad x0 x1 x2) := fun _ h => nomatch h

theorem graphloadUnload (x0 x1) : Statement (.graphloadUnload x0 x1) := fun _ h => nomatch h

theorem triggerWrite (x0 x1 x2) : Statement (.triggerWrite x0 x1 x2) := fun _ h => nomatch h

theorem graphstatWrite (x0 x1 x2) : Statement (.graphstatWrite x0 x1 x2) := fun _ h => nomatch h

theorem pcfg (x0 x1) : Statement (.pcfg x0 x1) := fun _ h => nomatch h

theorem qmove (x0 x1) : Statement (.qmove x0 x1) := fun _ h => nomatch h

theorem quantumOnline (x0 x1) : Statement (.quantumOnline x0 x1) := fun _ h => nomatch h

theorem memoryRelease (x0 x1 x2 x3) : Statement (.memoryRelease x0 x1 x2 x3) := fun _ h => nomatch h

theorem fwupdate (x0) : Statement (.fwupdate x0) := fun _ h => nomatch h

theorem hostCxlMemWrite (x0 x1 x2 x3) : Statement (.hostCxlMemWrite x0 x1 x2 x3) := fun _ h => nomatch h

theorem hostCxlMemRead (x0 x1 x2 x3) : Statement (.hostCxlMemRead x0 x1 x2 x3) := fun _ h => nomatch h

theorem harespResolve (x0 x1 x2) : Statement (.harespResolve x0 x1 x2) := fun _ h => nomatch h

theorem harespAbort (x0 x1 x2) : Statement (.harespAbort x0 x1 x2) := fun _ h => nomatch h

theorem harespMakeCopy (x0 x1 x2) : Statement (.harespMakeCopy x0 x1 x2) := fun _ h => nomatch h

theorem harespStartRun (x0 x1 x2) : Statement (.harespStartRun x0 x1 x2) := fun _ h => nomatch h

theorem harespDiscardRun (x0 x1 x2) : Statement (.harespDiscardRun x0 x1 x2) := fun _ h => nomatch h

theorem harespPieceDrained (x0 x1 x2) : Statement (.harespPieceDrained x0 x1 x2) := fun _ h => nomatch h

theorem haqheadWrite (x0 x1) : Statement (.haqheadWrite x0 x1) := fun _ h => nomatch h

theorem clhandlerWrite (x0 x1 x2 x3) : Statement (.clhandlerWrite x0 x1 x2 x3) := fun _ h => nomatch h

theorem perfselWrite (x0 x1 x2) : Statement (.perfselWrite x0 x1 x2) := fun _ h => nomatch h

theorem pretimersWrite (x0 x1) : Statement (.pretimersWrite x0 x1) := fun _ h => nomatch h

theorem registerWrite (x0 x1) : Statement (.registerWrite x0 x1) := fun _ h => nomatch h

theorem uncorrectableError (x0) : Statement (.uncorrectableError x0) := fun _ h => nomatch h

theorem clockStep (x0) : Statement (.clockStep x0) := fun _ h => nomatch h

theorem getCertificate (x0 x1) : Statement (.getCertificate x0 x1) := fun _ h => nomatch h

theorem challenge (x0) : Statement (.challenge x0) := fun _ h => nomatch h

theorem getMeasurements (x0) : Statement (.getMeasurements x0) := fun _ h => nomatch h

theorem unsupportedRequest (x0) : Statement (.unsupportedRequest x0) := fun _ h => nomatch h

theorem otherHostWrite (x0 x1) : Statement (.otherHostWrite x0 x1) := fun _ h => nomatch h

theorem controllerDma (x0 x1 x2) : Statement (.controllerDma x0 x1 x2) := fun _ h => nomatch h

theorem nvmeCommand (x0 x1) : Statement (.nvmeCommand x0 x1) := fun _ h => nomatch h

theorem report : Statement .report := fun _ h => nomatch h

theorem retrain : Statement .retrain := fun _ h => nomatch h

theorem pcieLinkError : Statement .pcieLinkError := fun _ h => nomatch h

theorem deviceReset : Statement .deviceReset := fun _ h => nomatch h

theorem getVersion : Statement .getVersion := fun _ h => nomatch h

theorem getCapabilities : Statement .getCapabilities := fun _ h => nomatch h

theorem negotiateAlgorithms : Statement .negotiateAlgorithms := fun _ h => nomatch h

theorem getDigests : Statement .getDigests := fun _ h => nomatch h

end

end Sys2Proof.Laws.RoundTrip
end

