-- ==== Sys2Proof/Laws/Results.lean ====
section
/-! SUPPORT. What writing results into registers does: the value stands in the row, and nothing else changes. -/

namespace Sys2Proof.Machine

open Sys2Proof

/-! ## Lists by index -/

theorem getAt_setAt_self {α : Type} (l : List α) (i : Nat) (x d : α) (h : i < l.length) : getAt (setAt l i x) i d = x := by
  induction l generalizing i with
  | nil => exact absurd h (by simp)
  | cons a t ih => cases i with
    | zero => rfl
    | succ i => exact ih i (by simpa using h)

theorem getAt_setAt_ne {α : Type} (l : List α) {i j : Nat} (x d : α) (h : i ≠ j) : getAt (setAt l i x) j d = getAt l j d := by
  induction l generalizing i j with
  | nil => rfl
  | cons a t ih => cases i with
    | zero => cases j with
      | zero => exact absurd rfl h
      | succ j => rfl
    | succ i => cases j with
      | zero => rfl
      | succ j => exact ih (by omega)

@[simp] theorem length_setAt {α : Type} (l : List α) (i : Nat) (x : α) : (setAt l i x).length = l.length := by
  induction l generalizing i with
  | nil => rfl
  | cons a t ih => cases i with
    | zero => rfl
    | succ i => simp [setAt, ih]

/-! ## Threads -/

@[simp] theorem Core.th_setTh_self (c : Core) (u : Nat) (t : Thread) : (c.setTh u t).th u = t := by
  simp [Core.th, Core.setTh]

theorem Core.th_setTh_ne (c : Core) {u v : Nat} (t : Thread) (h : u ≠ v) : (c.setTh u t).th v = c.th v := by
  simp [Core.th, Core.setTh, AMap.lookD_put_ne _ _ _ h]

theorem Core.th_updTh_self (c : Core) (u : Nat) (f : Thread → Thread) (h : AMap.has c.threads u = true) :
    (c.updTh u f).th u = f (c.th u) := by
  simp [Core.th, Core.updTh, AMap.lookD_upd_self _ _ _ _ h]

theorem Core.th_updTh_ne (c : Core) {u v : Nat} (f : Thread → Thread) (h : u ≠ v) : (c.updTh u f).th v = c.th v := by
  simp [Core.th, Core.updTh, AMap.lookD_upd_ne _ _ _ h]

@[simp] theorem Core.has_updTh (c : Core) (u v : Nat) (f : Thread → Thread) :
    AMap.has (c.updTh u f).threads v = AMap.has c.threads v := by
  simp [Core.updTh]

/-- Changing a list of threads changes no other. -/
theorem Core.th_updAll_notin (us : List Nat) (f : Thread → Thread) (v : Nat) : ∀ (c : Core), v ∉ us → (c.updAll us f).th v = c.th v := by
  induction us with
  | nil => intro c _; rfl
  | cons u us ih =>
    intro c h
    simp only [List.mem_cons, not_or] at h
    show ((c.updTh u f).updAll us f).th v = c.th v
    rw [ih _ h.2, Core.th_updTh_ne _ _ (fun h' => h.1 h'.symm)]

@[simp] theorem Core.has_updAll (us : List Nat) (f : Thread → Thread) (v : Nat) : ∀ (c : Core),
    AMap.has (c.updAll us f).threads v = AMap.has c.threads v := by
  induction us with
  | nil => intro c; rfl
  | cons u us ih => intro c; exact (ih (c.updTh u f)).trans (Core.has_updTh c u v f)

/-- Changing a list of threads changes each of them once. -/
theorem Core.th_updAll_in (us : List Nat) (f : Thread → Thread) (v : Nat) : ∀ (c : Core), us.Nodup → v ∈ us →
    AMap.has c.threads v = true → (c.updAll us f).th v = f (c.th v) := by
  induction us with
  | nil => intro c _ h; exact absurd h (by simp)
  | cons u us ih =>
    intro c hn h hv
    have hn' := List.nodup_cons.1 hn
    show ((c.updTh u f).updAll us f).th v = f (c.th v)
    rcases List.mem_cons.1 h with rfl | h
    · rw [Core.th_updAll_notin _ _ _ _ hn'.1, Core.th_updTh_self _ _ _ hv]
    · have hne : u ≠ v := fun h' => hn'.1 (h' ▸ h)
      rw [ih _ hn'.2 h (by simpa using hv), Core.th_updTh_ne _ _ hne]

/-! ## Rows -/

theorem Core.row_setRowWord_ne (c : Core) {r r' : Nat} (w : Nat) (v : Word) (h : r ≠ r') : (c.setRowWord r w v).row r' = c.row r' := by
  simp [Core.row, Core.setRowWord, AMap.lookD_upd_ne _ _ _ h]

theorem Core.row_setRowWord_self (c : Core) (r w : Nat) (v : Word) (h : AMap.has c.rows r = true) :
    (c.setRowWord r w v).row r = { (c.row r) with words := setAt (c.row r).words w v } := by
  simp [Core.row, Core.setRowWord, AMap.lookD_upd_self _ _ _ _ h]

@[simp] theorem Core.has_setRowWord (c : Core) (r w r' : Nat) (v : Word) :
    AMap.has (c.setRowWord r w v).rows r' = AMap.has c.rows r' := by
  simp [Core.setRowWord]

@[simp] theorem Core.th_setRowWord (c : Core) (r w u : Nat) (v : Word) : (c.setRowWord r w v).th u = c.th u := rfl

/-- A write of a row's word changes no count and no length. -/
theorem Core.row_setRowWord_shape (c : Core) (r w r' : Nat) (v : Word) :
    ((c.setRowWord r w v).row r').count = (c.row r').count ∧
    ((c.setRowWord r w v).row r').words.length = (c.row r').words.length := by
  by_cases h : r = r'
  · subst h
    by_cases hh : AMap.has c.rows r = true
    · simp [Core.row_setRowWord_self _ _ _ _ hh]
    · have hn : AMap.look c.rows r = none := by
        simpa [AMap.has] using hh
      have : AMap.look (c.setRowWord r w v).rows r = none := by
        simp [Core.setRowWord, AMap.look_upd_self, hn]
      simp [Core.row, AMap.lookD, this, hn]
  · simp [Core.row_setRowWord_ne _ _ _ h]

/-- The word written reads back; every other word of every row is as it was. -/
theorem Core.rowWord_setRowWord (c : Core) (r w r' w' : Nat) (v : Word) (h : AMap.has c.rows r = true)
    (hw : w < (c.row r).words.length) :
    (c.setRowWord r w v).rowWord r' w' = if r = r' ∧ w = w' then v else c.rowWord r' w' := by
  by_cases hr : r = r'
  · subst hr
    simp only [Core.rowWord, Core.row_setRowWord_self _ _ _ _ h]
    by_cases hw' : w = w'
    · subst hw'; simp [getAt_setAt_self _ _ _ _ hw]
    · simp [hw', getAt_setAt_ne _ _ _ hw']
  · simp [Core.rowWord, Core.row_setRowWord_ne _ _ _ hr, hr]

/-! ## One result -/

/-- The number of a register of the row store is its code. -/
theorem Core.own_single {c : Core} {u i : Nat} (h : (c.row (getAt (c.th u).map i 0)).count ≤ 1) : c.own u i = .ok c := by
  simp [Core.own, h]

/-- A note of a write that no earlier one may follow takes the value at once (R37). -/
theorem noteWrite_last {n : Early} {new : DWord} {es : List Early}
    (h : ∀ e ∈ es, e.outlasts n.code n.landAt = false) : noteWrite n new es = (n :: capNotes n es, true) := by
  have hf : es.any (fun e => e.outlasts n.code n.landAt) = false := by
    rw [List.any_eq_false]; intro e he; simp [h e he]
  simp only [noteWrite, hf]; rfl

/-- A note of a result on its way to a row's word changes no word of any row, no count and no length. -/
theorem Core.row_flyTo_shape (c : Core) (r w l r' : Nat) :
    ((c.flyTo r w l).row r').words = (c.row r').words ∧ ((c.flyTo r w l).row r').count = (c.row r').count := by
  by_cases h : r = r'
  · subst h
    by_cases hh : AMap.has c.rows r = true
    · simp [Core.row, Core.flyTo, AMap.lookD_upd_self _ _ _ _ hh]
    · have hn : AMap.look c.rows r = none := by simpa [AMap.has] using hh
      have : AMap.look (c.flyTo r w l).rows r = none := by simp [Core.flyTo, AMap.look_upd_self, hn]
      simp [Core.row, AMap.lookD, this, hn]
  · simp [Core.row, Core.flyTo, AMap.lookD_upd_ne _ _ _ h]

@[simp] theorem Core.rowWord_flyTo (c : Core) (r w l r' w' : Nat) : (c.flyTo r w l).rowWord r' w' = c.rowWord r' w' := by
  simp [Core.rowWord, (Core.row_flyTo_shape c r w l r').1]

@[simp] theorem Core.has_flyTo (c : Core) (r w l r' : Nat) : AMap.has (c.flyTo r w l).rows r' = AMap.has c.rows r' := by
  simp [Core.flyTo]

/-- The note of a result that issues now in a register of a thread. -/
def Core.shortNoteOf (c : Core) (u : Nat) (d : Reg) (p : Nat × Nat) (delay : Nat) : Early :=
  shortNote d.toNat ((c.readPlace (c.th u) p).setWidth 64) (c.th u).vt c.clock delay

/-- Writing a register whose row the thread holds alone. -/
theorem Core.writeAt_owned {c : Core} {u delay : Nat} {d : Reg} {v : Word} {p : Nat × Nat} (hp : placeOf d = some p)
    (hc : (c.row (getAt (c.th u).map p.1 0)).count ≤ 1)
    (hl : ∀ e ∈ (c.th u).early, e.outlasts d.toNat (c.clock + delay) = false) :
    c.writeAt u d v delay = .ok (((c.setRowWord (getAt (c.th u).map p.1 0) p.2 v).flyTo (getAt (c.th u).map p.1 0) p.2
      (c.clock + delay)).setTh u { (c.th u) with early := c.shortNoteOf u d p delay :: capNotes (c.shortNoteOf u d p delay) (c.th u).early }) := by
  have h : noteWrite (c.shortNoteOf u d p delay) (v.setWidth 64) (c.th u).early =
      (c.shortNoteOf u d p delay :: capNotes (c.shortNoteOf u d p delay) (c.th u).early, true) := noteWrite_last hl
  simp only [Core.writeAt, hp, Core.own_single hc, Res.map_ok, Core.note]
  rw [show shortNote d.toNat ((c.readPlace (c.th u) p).setWidth 64) (c.th u).vt c.clock delay = c.shortNoteOf u d p delay from rfl, h]
  rfl

/-- A core of which only threads and rows changed is in the same cycle. -/
theorem Core.onlyThreads.clock {c d : Core} (h : c.onlyThreads d) : d.clock = c.clock :=
  (rfl : ({ d with threads := c.threads, rows := c.rows } : Core).clock = d.clock).symm.trans
    (congrArg Core.clock (show ({ d with threads := c.threads, rows := c.rows } : Core) = c from h))

/-- What the results of a word in the lanes `us` of its run leave in the core: `act` are the lanes where it executes. -/
structure Core.Resulted (c c' : Core) (draw : Nat) (fill : Thread → Word → Thread) (us act : List Nat) (d : Reg)
    (val : Nat → Word) : Prop where
  frame : c.onlyThreads c'
  others : ∀ v, v ∉ us → c'.th v = c.th v
  listed : ∀ v, AMap.has c.threads v = true → AMap.has c'.threads v = true
  shape : ∀ r, AMap.has c'.rows r = AMap.has c.rows r ∧ (c'.row r).count = (c.row r).count ∧
    (c'.row r).words.length = (c.row r).words.length
  values : ∀ u ∈ us, act.contains u = true → ∀ q, c.cell u d = some q → c'.rowWord q.1 q.2 = val u
  words : ∀ r w, (∀ u ∈ us, act.contains u = true → c.cell u d ≠ some (r, w)) → c'.rowWord r w = c.rowWord r w
  active : ∀ u ∈ us, act.contains u = true → ∃ es, c'.th u = fill { (c.th u) with early := es } (val u)
  excluded : ∀ u ∈ us, act.contains u = false → c'.th u = fill (c.th u) (c.readReg draw u d)

/-- One lane's result: `fill` is what the lane's last-result entries become. -/
def Core.laneWrite (c : Core) (draw delay : Nat) (fill : Thread → Word → Thread) (act : List Nat) (d : Reg)
    (val : Nat → Word) (u : Nat) : Res Core :=
  if act.contains u then (c.writeAt u d (val u) delay).map (fun c => c.updTh u (fun t => fill t (val u)))
  else .ok (c.updTh u (fun t => fill t (c.readReg draw u d)))

/-- What a register reads depends on its thread and, for a register of the row store, on its row's word alone. -/
theorem Core.readReg_congr {c c' : Core} {draw u : Nat} {r : Reg} (ht : c'.th u = c.th u)
    (hw : ∀ q, c.cell u r = some q → c'.rowWord q.1 q.2 = c.rowWord q.1 q.2) :
    c'.readReg draw u r = c.readReg draw u r := by
  unfold Core.readReg
  simp only [ht]
  split
  · rename_i p hp
    have := hw (getAt (c.th u).map p.1 0, p.2) (by simp [Core.cell, hp])
    simp only [Core.readPlace] at *
    rw [this]
  · rfl

theorem Core.cell_congr {c c' : Core} {u : Nat} (r : Reg) (ht : (c'.th u).map = (c.th u).map) : c'.cell u r = c.cell u r := by
  simp [Core.cell, ht]

/-- The results of a word in every lane of its run. -/
theorem forEach_laneWrite {draw delay : Nat} {fill : Thread → Word → Thread} {act : List Nat} {d : Reg} {val : Nat → Word}
    (hfill : ∀ t v, (fill t v).map = t.map) :
    ∀ (us : List Nat) (c : Core), c.Owns us d → c.noLater (us.filter (fun u => act.contains u)) d delay →
      ∃ c', forEach (fun u c => c.laneWrite draw delay fill act d val u) us c = .ok c' ∧
        c.Resulted c' draw fill us act d val := by
  intro us
  induction us with
  | nil =>
    intro c _ _
    exact ⟨c, rfl, ⟨rfl, fun _ _ => rfl, fun _ h => h, fun _ => ⟨rfl, rfl, rfl⟩, by simp, fun _ _ _ => rfl, by simp, by simp⟩⟩
  | cons u us ih =>
    intro c ho hl
    have hn := List.nodup_cons.1 ho.nodup
    have hu : AMap.has c.threads u = true := ho.listed u (by simp)
    -- the first lane
    have h1 : ∃ c1, c.laneWrite draw delay fill act d val u = .ok c1 ∧ c.onlyThreads c1 ∧
        (∀ v, v ≠ u → c1.th v = c.th v) ∧ (∀ v, AMap.has c.threads v = true → AMap.has c1.threads v = true) ∧
        (∀ r, AMap.has c1.rows r = AMap.has c.rows r ∧ (c1.row r).count = (c.row r).count ∧
          (c1.row r).words.length = (c.row r).words.length) ∧
        (act.contains u = true → (∃ es, c1.th u = fill { (c.th u) with early := es } (val u)) ∧
          ∀ q, c.cell u d = some q → c1.rowWord q.1 q.2 = val u) ∧
        (∀ r w, (act.contains u = true → c.cell u d ≠ some (r, w)) → c1.rowWord r w = c.rowWord r w) ∧
        (act.contains u = false → c1.th u = fill (c.th u) (c.readReg draw u d)) := by
      by_cases ha : act.contains u = true
      · cases hp : placeOf d with
        | none =>
          refine ⟨c.updTh u (fun t => fill t (val u)), ?_, rfl, ?_, ?_, ?_, ?_, ?_, ?_⟩
          · simp only [Core.laneWrite, ha, if_true, Core.writeAt, hp, Res.map_ok]
          · intro v hv; exact Core.th_updTh_ne _ _ (fun h => hv h.symm)
          · intro v hv; simpa using hv
          · intro r; exact ⟨rfl, rfl, rfl⟩
          · intro _
            exact ⟨⟨(c.th u).early, Core.th_updTh_self _ _ _ hu⟩, by simp [Core.cell, hp]⟩
          · intro r w _; rfl
          · intro h; rw [ha] at h; exact absurd h (by simp)
        | some p =>
          have hcell : c.cell u d = some (getAt (c.th u).map p.1 0, p.2) := by simp [Core.cell, hp]
          obtain ⟨hrow, hcount, hlen⟩ := ho.row u (by simp) _ hcell
          have hearly : ∀ e ∈ (c.th u).early, e.outlasts d.toNat (c.clock + delay) = false :=
            hl u (by rw [List.mem_filter]; exact ⟨by simp, ha⟩)
          have hw := Core.writeAt_owned (v := val u) hp hcount hearly
          refine ⟨(((c.setRowWord (getAt (c.th u).map p.1 0) p.2 (val u)).flyTo (getAt (c.th u).map p.1 0) p.2
              (c.clock + delay)).setTh u { (c.th u) with
                early := c.shortNoteOf u d p delay :: capNotes (c.shortNoteOf u d p delay) (c.th u).early }).updTh u
              (fun t => fill t (val u)), ?_, rfl, ?_, ?_, ?_, ?_, ?_, ?_⟩
          · simp only [Core.laneWrite, ha, if_true, hw, Res.map_ok]
          · intro v hv
            rw [Core.th_updTh_ne _ _ (fun h => hv h.symm), Core.th_setTh_ne _ _ (fun h => hv h.symm)]
            rfl
          · intro v hv
            rw [Core.has_updTh]
            show AMap.has (AMap.put _ _ _) v = true
            rw [AMap.has_put]; simp only [Bool.or_eq_true]; exact .inr hv
          · intro r
            have hs := Core.row_setRowWord_shape c (getAt (c.th u).map p.1 0) p.2 r (val u)
            have hf := Core.row_flyTo_shape (c.setRowWord (getAt (c.th u).map p.1 0) p.2 (val u)) (getAt (c.th u).map p.1 0) p.2
              (c.clock + delay) r
            exact ⟨(Core.has_flyTo _ _ _ _ r).trans (Core.has_setRowWord c _ _ r _), hf.2.trans hs.1,
              (congrArg List.length hf.1).trans hs.2⟩
          · intro _
            refine ⟨⟨c.shortNoteOf u d p delay :: capNotes (c.shortNoteOf u d p delay) (c.th u).early, ?_⟩, ?_⟩
            · rw [Core.th_updTh_self]
              · rw [Core.th_setTh_self]
              · show AMap.has (AMap.put _ _ _) u = true
                rw [AMap.has_put]; simp
            · intro q hq
              rw [hcell] at hq; cases hq
              show ((c.setRowWord _ _ _).flyTo _ _ _).rowWord _ _ = _
              rw [Core.rowWord_flyTo, Core.rowWord_setRowWord _ _ _ _ _ _ hrow hlen]; simp
          · intro r w h
            show ((c.setRowWord _ _ _).flyTo _ _ _).rowWord _ _ = _
            rw [Core.rowWord_flyTo, Core.rowWord_setRowWord _ _ _ _ _ _ hrow hlen, if_neg]
            intro ⟨h1, h2⟩
            exact h ha (by rw [hcell]; simp only at h1 h2; rw [h1, h2])
          · intro h; rw [ha] at h; exact absurd h (by simp)
      · have ha' : act.contains u = false := by simpa using ha
        refine ⟨c.updTh u (fun t => fill t (c.readReg draw u d)), ?_, rfl, ?_, ?_, ?_, ?_, ?_, ?_⟩
        · simp only [Core.laneWrite, ha']; rfl
        · intro v hv; exact Core.th_updTh_ne _ _ (fun h => hv h.symm)
        · intro v hv; simpa using hv
        · intro r; exact ⟨rfl, rfl, rfl⟩
        · intro h; rw [ha'] at h; exact absurd h (by simp)
        · intro r w _; rfl
        · intro _; exact Core.th_updTh_self _ _ _ hu
    obtain ⟨c1, e1, f1, o1, l1, s1, a1, w1, x1⟩ := h1
    -- the other lanes start from a core like the first
    have hmap : ∀ v, (c1.th v).map = (c.th v).map := by
      intro v
      by_cases hv : v = u
      · subst hv
        by_cases ha : act.contains v = true
        · obtain ⟨es, h⟩ := (a1 ha).1; rw [h, hfill]
        · rw [x1 (by simpa using ha), hfill]
      · rw [o1 v hv]
    have hcell : ∀ v, c1.cell v d = c.cell v d := fun v => Core.cell_congr d (hmap v)
    have ho1 : c1.Owns us d := by
      refine ⟨hn.2, fun v hv => l1 v (ho.listed v (by simp [hv])), ?_, ?_⟩
      · intro v hv q hq
        rw [hcell] at hq
        obtain ⟨g1, g2, g3⟩ := ho.row v (by simp [hv]) q hq
        obtain ⟨k1, k2, k3⟩ := s1 q.1
        exact ⟨by rw [k1]; exact g1, by rw [k2]; exact g2, by rw [k3]; exact g3⟩
      · intro v hv w hw hne q hq
        rw [hcell] at hq ⊢
        exact ho.apart v (by simp [hv]) w (by simp [hw]) hne q hq
    have hne : ∀ v ∈ us, v ≠ u := fun v hv h => hn.1 (h ▸ hv)
    have hk : c1.clock = c.clock := f1.clock
    have hl1 : c1.noLater (us.filter (fun u => act.contains u)) d delay := by
      intro v hv e he
      have hv' := List.mem_filter.1 hv
      rw [o1 v (hne v hv'.1)] at he
      rw [hk]
      exact hl v (by rw [List.mem_filter]; exact ⟨by simp [hv'.1], hv'.2⟩) e he
    obtain ⟨c', e', r⟩ := ih c1 ho1 hl1
    refine ⟨c', by simp only [forEach, e1, Res.bind_ok]; exact e', ?_⟩
    refine ⟨?_, ?_, ?_, ?_, ?_, ?_, ?_, ?_⟩
    · have h2 := r.frame
      simp only [Core.onlyThreads] at *
      rw [← f1, ← h2]
    · intro v hv
      simp only [List.mem_cons, not_or] at hv
      rw [r.others v hv.2, o1 v hv.1]
    · intro v hv; exact r.listed v (l1 v hv)
    · intro q
      obtain ⟨g1, g2, g3⟩ := r.shape q
      obtain ⟨k1, k2, k3⟩ := s1 q
      exact ⟨g1.trans k1, g2.trans k2, g3.trans k3⟩
    · intro v hv ha q hq
      rcases List.mem_cons.1 hv with rfl | hv
      · rw [r.words q.1 q.2, (a1 ha).2 q hq]
        intro w hw _ h
        rw [hcell] at h
        exact ho.apart w (by simp [hw]) v (by simp) (hne w hw) _ h hq
      · exact r.values v hv ha q (by rw [hcell]; exact hq)
    · intro q w h
      rw [r.words q w, w1 q w (fun ha => h u (by simp) ha)]
      intro v hv ha
      rw [hcell]
      exact h v (by simp [hv]) ha
    · intro v hv ha
      rcases List.mem_cons.1 hv with rfl | hv
      · rw [r.others _ hn.1]; exact (a1 ha).1
      · obtain ⟨es, h⟩ := r.active v hv ha
        exact ⟨es, by rw [h, o1 v (hne v hv)]⟩
    · intro v hv ha
      rcases List.mem_cons.1 hv with rfl | hv
      · rw [r.others _ hn.1]; exact x1 ha
      · rw [r.excluded v hv ha, o1 v (hne v hv)]
        congr 1
        apply Core.readReg_congr (o1 v (hne v hv))
        intro q hq
        apply w1
        intro _ h
        exact ho.apart u (by simp) v (by simp [hv]) (fun h' => hne v hv h'.symm) _ h hq

/-- The results of a pipe-X or pipe-Y word. -/
theorem Core.results_spec {c : Core} {draw : Nat} {p : ResPipe} {run act : List Nat} {d : Reg} {val : Nat → Word}
    (ho : c.Owns run d) (hl : c.noLater (run.filter (fun u => act.contains u)) d p.delay) :
    ∃ c', c.results draw p run act d val = .ok c' ∧ c.Resulted c' draw (fun t v => t.fill p v) run act d val :=
  forEach_laneWrite (fun t v => by cases p <;> rfl) run c ho hl

end Sys2Proof.Machine
end

