-- ==== Sys2Proof/Laws/Words.lean ====
section
/-! SUPPORT. What a warp word of one result does, and when. -/

namespace Sys2Proof.Machine

open Sys2Proof

/-! ## Advancing the run -/

/-- The threads of the run once the word has issued. -/
theorem Core.th_advance {c : Core} {run act : List Nat} (u : Nat) (hn : run.Nodup) (hr : ∀ u ∈ run, AMap.has c.threads u = true)
    (hact : act.Nodup) (ha : ∀ u ∈ act, u ∈ run) :
    (c.advance run act).th u = if u ∈ run then (c.th u).issued (act.contains u) else c.th u := by
  unfold Core.advance
  by_cases hu : u ∈ run
  · have h1 : (c.updAll run (fun t => { t with pc := t.pc + 4#32 })).th u = { (c.th u) with pc := (c.th u).pc + 4#32 } :=
      Core.th_updAll_in run _ u c hn hu (hr u hu)
    by_cases hua : u ∈ act
    · rw [Core.th_updAll_in act _ u _ hact hua (by simpa using hr u hu), h1]
      simp [hu, hua, Thread.issued]
    · rw [Core.th_updAll_notin act _ u _ hua, h1]
      simp [hu, hua, Thread.issued]
  · have hua : u ∉ act := fun h => hu (ha u h)
    rw [Core.th_updAll_notin act _ u _ hua, Core.th_updAll_notin run _ u _ hu]
    simp [hu]

theorem State.active_sub (s : State) (u : Nat) (h : u ∈ s.active) : u ∈ s.cur.run := (List.mem_filter.1 h).1

theorem State.active_eq (s : State) :
    s.active = s.cur.run.filter (fun u => (s.thread u).guard s.cur.draw u s.ext.g) := rfl

theorem State.active_contains (s : State) (u : Nat) : s.active.contains u = decide (u ∈ s.active) := by
  by_cases h : u ∈ s.active <;> simp [h]

/-- What a register reads does not depend on PC or YC. -/
theorem Core.readReg_issued {c c' : Core} {draw u : Nat} (r : Reg) (b : Bool) (ht : c'.th u = (c.th u).issued b)
    (hrow : c'.rows = c.rows) : c'.readReg draw u r = c.readReg draw u r := by
  simp only [Core.readReg, ht, Thread.issued, Core.readPlace, Core.rowWord, Core.row, hrow, Thread.y]

/-! ## One result -/

/-- A warp word of one result whose checks pass completes with that result. -/
theorem warpWord_results {f : Form} {s : State} {p : ResPipe} {d : Reg} {srcs : List Reg} {val : Core → Nat → Word}
    (hf : checkForm f s = .ok ()) (hh : helperCheck f s.here s.active = .ok ())
    (hb : ∀ u ∈ s.active, (s.thread u).yc + 1 ≤ 1024 * (s.thread u).dl)
    (hr : s.reads srcs) (hw : s.writes d p.delay)
    (hval : ∀ c' : Core, (∀ u ∈ s.cur.run, c'.th u = (s.thread u).issued (s.active.contains u)) → c'.rows = s.here.rows →
      (∀ x, x ∉ s.cur.run → c'.th x = s.thread x) →
      ∀ u ∈ s.active, val c' u = val s.here u) :
    ∃ t, finish s (warpWord f s srcs [d] (fun c act => c.results s.cur.draw p s.cur.run act d (val c))) = .next t ∧
      t.completed ∧ ResultEffect s t p d (val s.here) (fun _ => Thread.onlyNotes) := by
  have hnd : s.active.Nodup := hw.owns.nodup.filter _
  have hth := fun u => Core.th_advance (c := s.here) (run := s.cur.run) (act := s.active) u hw.owns.nodup hw.owns.listed hnd
    s.active_sub
  generalize hc1 : s.here.advance s.cur.run s.active = c1 at hth
  have hrows : c1.rows = s.here.rows := by rw [← hc1]; simp [Core.advance]
  have hin : ∀ u ∈ s.cur.run, c1.th u = (s.thread u).issued (s.active.contains u) := by
    intro u hu; rw [hth, if_pos hu]; rfl
  have hout : ∀ u, u ∉ s.cur.run → c1.th u = s.thread u := by intro u hu; rw [hth, if_neg hu]; rfl
  have hcell : ∀ u, c1.cell u d = s.here.cell u d := by
    intro u; apply Core.cell_congr; rw [hth]; split <;> rfl
  have hrow : ∀ r, c1.row r = s.here.row r := by intro r; simp [Core.row, hrows]
  have hhas : ∀ v, AMap.has s.here.threads v = true → AMap.has c1.threads v = true := by
    intro v hv; rw [← hc1]; simpa [Core.advance] using hv
  have hOwns : c1.Owns s.cur.run d := by
    refine ⟨hw.owns.nodup, fun u hu => hhas u (hw.owns.listed u hu), ?_, ?_⟩
    · intro u hu q hq
      rw [hcell] at hq
      rw [hrow, hrows]
      exact hw.owns.row u hu q hq
    · intro u hu v hv hne q hq
      rw [hcell] at hq ⊢
      exact hw.owns.apart u hu v hv hne q hq
  have hLater : c1.noLater (s.cur.run.filter (fun u => s.active.contains u)) d p.delay := by
    intro u hu e he
    have hu' := List.mem_filter.1 hu
    have : u ∈ s.active := by simpa using hu'.2
    have hk : c1.clock = s.here.clock := by rw [← hc1]; simp [Core.advance]
    rw [hin u hu'.1] at he
    rw [hk]
    exact hw.last u this e he
  obtain ⟨c', e', r⟩ := Core.results_spec (draw := s.cur.draw) (p := p) (run := s.cur.run) (act := s.active) (d := d)
    (val := val c1) hOwns hLater
  have hv : ∀ u ∈ s.active, val c1 u = val s.here u := hval c1 hin hrows hout
  have hbody : (fun (s1 : State) (act : List Nat) => ((fun (c : Core) act => c.results s.cur.draw p s.cur.run act d (val c))
      (s1.core s1.cur.core) act).map (fun c => s1.setCore s1.cur.core c))
      (s.setCore s.cur.core (s.here.advance s.cur.run s.active)) s.active =
      .ok ((s.setCore s.cur.core c1).setCore s.cur.core c') := by
    simp only [hc1, State.setCore_cur, State.core_setCore_self, e', Res.map_ok]
  have hok : warpWord f s srcs [d] (fun c act => c.results s.cur.draw p s.cur.run act d (val c)) =
      .ok ((s.setCore s.cur.core c1).setCore s.cur.core c') := by
    unfold warpWord
    apply warpWordS_ok hf _ hh hbody (watchdogCheck_ok hb)
    apply operandCheck_ok
    · simp [hw.named]
    · intro u hu
      simp only [Bool.and_eq_true, List.all_eq_true, List.mem_singleton]
      exact ⟨fun r hr' => hr u hu r hr', fun r hr' => by rw [hr']; exact hw.allowed u hu⟩
  refine ⟨_, by rw [hok, finish_ok], State.ended_completed _ _, ?_⟩
  have hcore : ∀ k, (s.ended ((s.setCore s.cur.core c1).setCore s.cur.core c')).core k =
      if k = s.cur.core then c' else s.core k := by
    intro k
    rw [State.ended_core]
    split
    · rename_i h; rw [h, State.core_setCore_self]
    · rename_i h
      rw [State.core_setCore_ne _ _ (fun h' => h h'.symm), State.core_setCore_ne _ _ (fun h' => h h'.symm)]
  have hself := hcore s.cur.core
  rw [if_pos rfl] at hself
  refine ⟨⟨?_, ?_, ?_⟩, ?_, ?_, ?_, ?_, ?_, ?_⟩
  · intro v
    simp only [State.ended]
    rw [State.count_vf]
    rfl
  · intro k hk; rw [hcore, if_neg hk]
  · simp [State.ended]
  · rw [hself]
    have h1 : s.here.onlyThreads c1 := by rw [← hc1]; simp [Core.onlyThreads, Core.advance]
    have h2 := r.frame
    simp only [Core.onlyThreads] at *
    rw [← h1, ← h2]
  · intro u hu; rw [hself, r.others u hu, hout u hu]
  · intro u hu q hq
    rw [hself, r.values u (s.active_sub u hu) (by simpa using hu) q (by rw [hcell]; exact hq), hv u hu]
  · intro q w h
    rw [hself, r.words q w]
    · simp [Core.rowWord, hrow]
    · intro u hu ha; rw [hcell]; exact h u (by simpa using ha)
  · intro u hu
    obtain ⟨es, he⟩ := r.active u (s.active_sub u hu) (by simpa using hu)
    rw [hself, he, hin u (s.active_sub u hu), hv u hu]
    have : s.active.contains u = true := by simpa using hu
    rw [this]
    cases p <;> rfl
  · intro u hu hna
    have hf' : s.active.contains u = false := by simpa using hna
    rw [hself, r.excluded u hu hf', hin u hu, hf']
    rw [Core.readReg_issued d false (by rw [hin u hu, hf']; rfl) hrows]

end Sys2Proof.Machine
end

