-- ==== Sys2Proof/Tests/States.lean ====
section
/-! SUPPORT. Small states for the tests: one thread, one warp of 16 threads, a front end; and short ways to show that a word
may issue in them. -/

namespace Sys2Proof.Tests

open Sys2Proof Sys2Proof.Machine Sys2Proof.Claims

/-- A thread of warp 0 with 13 rows of its own. -/
def thread0 : Thread := { Thread.blank with map := List.range 13, dl := 255 }

/-- A core whose one warp has one thread, of lane 0. -/
def core0 : Core :=
  { Core.reset with
    launch := some 0, started := true, warps := [⟨0, 0, 0, 1#64, false⟩], nextWarp := 1, threads := [(0, thread0)],
    rows := (List.range 13).map (fun r => (r, { Row.reset with count := 1 })) }

/-- The launch on it: two packets of words, the header of the probe. -/
def launch0 : Launch :=
  { vf := 0, slot := 0, node := 0, hdr := probeHeader, code := List.replicate 6 0x02800000#32, fecode := List.replicate 6 0x02800000#32,
    handlers := [], mem := [], poison := [], brocade := [], spawnNext := 0, placed := [(0, 0)], completed := 0, tearing := false }

/-- A partition with VF 0, its system VF. -/
def part0 : Part :=
  ⟨[], 0, 0, 1#64, [], [], 0#64, 0#64, 0, 0#32, [], 0, 0, 64, 0#64, 0#64, [], 0, none, 0, 0, 0, [], [], 0#16, 0#32, []⟩

/-- The word in hand: a warp word of lane 0 at PC 0. -/
def cur0 : Cur := ⟨0, false, 0, [0], true, 0#32, 0#32, 1, none, false, 0, .issued⟩

/-- A running machine with that core and that word in hand. -/
def one : State :=
  { State.reset with
    boot := .running, parts := [(0, part0)], quanta := [(0, ⟨1, some 0, none, .online⟩)], launches := [(0, launch0)], cores := [(0, core0)],
    cur := cur0 }

/-- The same with an EXT in hand. -/
def oneExt (x : Ext) : State := { one with cur := { cur0 with ext := some x } }

/-- The same with its core changed. -/
def oneCore (f : Core → Core) : State := { one with cores := [(0, f core0)] }

/-- Registers of the thread of lane 0 set. -/
def Core.sets (c : Core) (vs : List (Reg × Word)) : Core :=
  vs.foldl (fun c p => match placeOf p.1 with | some q => c.setRowWord q.1 q.2 p.2 | none => c) c

/-- The state of one thread with registers set. -/
def oneWith (vs : List (Reg × Word)) : State := oneCore (fun c => Tests.Core.sets c vs)

/-- A front end at PC 0 whose word is in hand. -/
def front0 : FrontEnd := ⟨0#32, List.replicate 64 0#64, 0#8, List.replicate 12 0, 15#4, 15#4, 0#12, 0#32, [], 0, 0, false, false, .run⟩
def frontCore : Core := { Core.reset with launch := some 0, started := true, fe := some front0 }
def front : State := { one with cores := [(0, frontCore)], cur := { cur0 with fe := true, run := [] } }

/-- An EXT that asks for nothing. -/
def plainExt : Ext := ⟨0#7, 0#3, false, false, 0#4, 0#4⟩

/-! ## Short ways -/

/-- The checks of `WarpReady` on a state whose word has no register to read. -/
theorem ready {s : State} {i : Instr} (h : (!s.cur.fe && !s.cur.extBad && takes s.ext i && i.wf) = true)
    (b : s.active.all (fun u => decide ((s.thread u).yc + 1 ≤ 1024 * (s.thread u).dl)) = true) : WarpReady s i := by
  simp only [Bool.and_eq_true, Bool.not_eq_true'] at h
  refine ⟨h.1.1.1, h.1.1.2, h.1.2, h.2, fun u hu => ?_⟩
  exact of_decide_eq_true (List.all_eq_true.1 b u hu)

theorem readies {s : State} {rs : List Reg} (h : s.active.all (fun u => rs.all (fun r => s.here.srcOk u r)) = true) : s.reads rs :=
  fun u hu r hr => List.all_eq_true.1 (List.all_eq_true.1 h u hu) r hr

/-- The checks of `Core.Owns` for a run of one thread. -/
def ownCheck (c : Core) (u : Nat) (r : Reg) : Bool :=
  AMap.has c.threads u && (match c.cell u r with
    | some q => AMap.has c.rows q.1 && decide ((c.row q.1).count ≤ 1) && decide (q.2 < (c.row q.1).words.length)
    | none => true)

theorem owns_one {c : Core} {u : Nat} {r : Reg} (h : ownCheck c u r = true) : c.Owns [u] r := by
  simp only [ownCheck, Bool.and_eq_true] at h
  refine ⟨by simp, by simpa using h.1, ?_, ?_⟩
  · intro v hv q hq
    obtain rfl : v = u := by simpa using hv
    have h2 := h.2
    rw [hq] at h2
    simpa [and_assoc] using h2
  · intro v hv w hw hne
    simp only [List.mem_singleton] at hv hw
    exact absurd (hv.trans hw.symm) hne

/-- The checks of `State.writes` for a run of one thread with no early result. -/
def writeCheck (s : State) (u : Nat) (d : Reg) : Bool :=
  decide (s.cur.run = [u]) && dstNamed d && s.here.dstOk u d && ownCheck s.here u d && (s.here.th u).early.isEmpty

theorem writes_one {s : State} {u : Nat} {d : Reg} {n : Nat} (h : writeCheck s u d = true) : s.writes d n := by
  simp only [writeCheck, Bool.and_eq_true, decide_eq_true_eq] at h
  obtain ⟨⟨⟨⟨hr, hn⟩, hd⟩, ho⟩, he⟩ := h
  have hm : ∀ v ∈ s.active, v = u := fun v hv => by simpa [hr] using s.active_sub v hv
  refine ⟨hn, fun v hv => hm v hv ▸ hd, hr ▸ owns_one ho, fun v hv e hmem => ?_⟩
  rw [hm v hv, List.isEmpty_iff.1 he] at hmem
  exact absurd hmem (by simp)

theorem writesPred_one {s : State} {u p n : Nat}
    (h : (decide (s.cur.run = [u]) && AMap.has s.here.threads u && (s.here.th u).early.isEmpty) = true) : s.writesPred p n := by
  simp only [Bool.and_eq_true, decide_eq_true_eq] at h
  obtain ⟨⟨hr, hl⟩, he⟩ := h
  refine ⟨by simp [hr], by simpa [hr] using hl, fun v hv e hmem => ?_⟩
  have hv : v = u := by simpa [hr] using s.active_sub v hv
  have : (s.thread v).early = [] := by rw [hv]; exact List.isEmpty_iff.1 he
  rw [this] at hmem
  exact absurd hmem (by simp)

theorem writesBlock_one {s : State} {u : Nat} {d : Reg} {n m : Nat}
    (h : (s.active.all (fun u => s.here.blockOk u d n) && (List.range n).all (fun k => writeCheck s u (nth d k))) = true) :
    WritesBlock s d n m := by
  simp only [Bool.and_eq_true] at h
  exact ⟨fun v hv => List.all_eq_true.1 h.1 v hv, fun k hk => writes_one (List.all_eq_true.1 h.2 k (List.mem_range.2 hk))⟩

theorem oneReg_one {s : State} {u : Nat} {d : Reg}
    (h : (decide (s.cur.run = [u]) && s.active.all (fun u => s.here.blockOk u d 1) && (s.here.th u).early.isEmpty) = true) :
    OneReg s d := by
  simp only [Bool.and_eq_true, decide_eq_true_eq] at h
  refine ⟨fun v hv => List.all_eq_true.1 h.1.2 v hv, fun v hv e hmem => ?_⟩
  have hm : v = u := by simpa [h.1.1] using s.active_sub v hv
  rw [hm, List.isEmpty_iff.1 h.2] at hmem
  exact absurd hmem (by simp)

/-! ## Rows -/

theorem look_mem {α : Type} (m : AMap α) (k : Nat) (v : α) (h : AMap.look m k = some v) : (k, v) ∈ m := by
  induction m with
  | nil => exact absurd h (by simp [AMap.look])
  | cons p t ih =>
    obtain ⟨j, w⟩ := p
    simp only [AMap.look] at h
    split at h
    · next e => subst e; obtain rfl := Option.some.inj h; exact List.mem_cons_self
    · exact List.mem_cons_of_mem _ (ih h)

theorem rowsCounted {c : Core} (h1 : c.rows.all (fun p => decide ((c.row p.1).count = (heldRows c).count p.1)) = true)
    (h2 : (heldRows c).all (fun r => AMap.has c.rows r) = true) (h3 : c.threads.all (fun p => p.2.helper.isNone && decide (p.2.map.length ≤ 13)) = true)
    (h4 : c.damask.all (fun p => decide (p.2.map.length ≤ 13)) = true) (h5 : c.rows.all (fun p => decide (p.2.words.length = 8)) = true)
    (h6 : (AMap.keys c.threads).Nodup ∧ (AMap.keys c.rows).Nodup ∧ (AMap.keys c.damask).Nodup) : RowsCounted c := by
  refine ⟨fun r => ?_, fun p hp h hh => ?_, ⟨fun p hp => ?_, fun p hp => of_decide_eq_true (List.all_eq_true.1 h4 p hp)⟩,
    fun p hp => of_decide_eq_true (List.all_eq_true.1 h5 p hp), h6.1, h6.2.1, h6.2.2⟩
  · cases hl : AMap.look c.rows r with
    | some w => exact of_decide_eq_true (List.all_eq_true.1 h1 _ (look_mem _ _ _ hl))
    | none =>
      have hn : r ∉ heldRows c := fun hm => by
        have := List.all_eq_true.1 h2 r hm
        simp [AMap.has, hl] at this
      rw [List.count_eq_zero.2 hn]
      simp [Core.row, AMap.lookD, hl, Row.reset]
  · have := List.all_eq_true.1 h3 p hp
    simp [hh] at this
  · have := List.all_eq_true.1 h3 p hp
    simp only [Bool.and_eq_true, decide_eq_true_eq] at this
    exact this.2

theorem spareRows {c : Core} {us : List Nat} (h : 16 * us.length + c.rows.length ≤ 1024) : rowsToSpare c us := by
  intro slice
  have h1 := List.length_filter_le (fun u => c.sliceTh (c.th u) == slice || (c.th u).map.any (fun r => sliceOf r == slice)) us
  have h2 := List.length_filter_le (fun p : Nat × Row => sliceOf p.1 == slice) c.rows
  simp only [Core.freeRows]
  omega

theorem noneParked {c : Core} (h : c.threads.all (fun p => decide (p.2.hold = .run)) = true) (u : Nat) : (c.th u).hold = .run := by
  simp only [Core.th, AMap.lookD]
  cases hl : AMap.look c.threads u with
  | some t => exact of_decide_eq_true (List.all_eq_true.1 h _ (look_mem _ _ _ hl))
  | none => rfl

theorem parkedOwn_none {c : Core} (h : c.threads.all (fun p => decide (p.2.hold = .run)) = true) : parkedOwn c := by
  intro u n d hd
  rw [noneParked h u] at hd
  exact absurd hd (by simp)

theorem frontReady {s : State} {i : Instr} {f : FrontEnd}
    (h : (s.cur.fe && s.cur.ext.isNone && !s.cur.extBad && i.wf && decide (s.here.fe = some f)) = true) : FrontReady s i f := by
  simp only [Bool.and_eq_true, Bool.not_eq_true', decide_eq_true_eq] at h
  exact ⟨h.1.1.1.1, Option.isNone_iff_eq_none.1 h.1.1.1.2, h.1.1.2, h.1.2, h.2⟩

theorem front_noLater (d : Reg) (n : Nat) : front0.noLater d n := fun e he => absurd he (by simp [front0])

end Sys2Proof.Tests
end

