-- ==== Sys2Proof/Tests/WitnessWords.lean ====
section
/-! SUPPORT. Witnesses of the hypotheses of the statements about words. -/

namespace Sys2Proof.Tests

open Sys2Proof Sys2Proof.Machine Sys2Proof.Claims

section

set_option Elab.async false
set_option linter.unusedVariables false

abbrev lk0 : Link := ⟨false, 0#2⟩

/-- The thread of lane 0 is the one member of group 3, whose number stands in v5. -/
def group0 : Group := ⟨[(0, none)], 0#32, []⟩
def grouped : State := oneCore (fun c => { (Tests.Core.sets c [(5, 3#32)]) with groups := [(3, group0)] })

/-- A front end with k registers set. -/
def frontSet (vs : List (Nat × DWord)) : FrontEnd := { front0 with k := vs.foldl (fun k p => setAt k p.1 p.2) front0.k }
def frontWith (vs : List (Nat × DWord)) : State := { front with cores := [(0, { frontCore with fe := some (frontSet vs) })] }

/-- A launch with 256 KiB of scratchpad: barrier 16383 is in v4. -/
def roomy : AMap Launch := [(0, { launch0 with hdr := { probeHeader with scratchKiB := 256 } })]
def barred : State := { oneWith [(4, 16383#32), (5, 0xFFFFFFFF#32)] with launches := roomy }
def barredFront : State := { front with launches := roomy }

/-- b2 is a flat record of memory, b3 one of the scratchpad: elements of 4 bytes. -/
def buffered : State :=
  { oneCore (fun c => { c with
      bufs := [(2, BitVec.ofNat 128 (1000 * 2 ^ 64 + 2 * 2 ^ 52)), (3, BitVec.ofNat 128 (1000 * 2 ^ 64 + 2 ^ 62 + 2 * 2 ^ 52))] }) with
    launches := roomy }

/-- b2 again, and the core holds the translation of the first 2 MiB. -/
def translated : State :=
  { oneCore (fun c => { c with
      bufs := [(2, BitVec.ofNat 128 (1000 * 2 ^ 64 + 2 * 2 ^ 52))], tlb := [⟨0, 0, 0, 0x200000, true, 0⟩] }) with
    launches := roomy }

/-- The checks of `MayAccess` for the thread of lane 0, no flag named, no fault and no earlier result. -/
theorem accesses {s : State} {m : Asked} (h : (decide (s.cur.run = [0]) && s.active.all (fun u => m.readable u) &&
    s.active.all (fun u => (if s.ext.c3 = 0#7 then [m.idx] else [m.idx, s.ext.c3]).all (fun r => s.here.srcOk u r)) &&
    m.spaces.contains (bSpace (recordOf s m)) && s.here.reqs.isEmpty && s.active.all (fun u => (flagUsed s u m.flag).isNone) &&
    s.active.all (fun u => (accessOf s m u).fault.isNone && !(accessOf s m u).waits) && AMap.has s.here.threads 0 &&
    (List.range m.ndst).all (fun k => ownCheck s.here 0 (nth m.dst k)) && s.here.rows.all (fun p => p.2.fly.isEmpty) &&
    s.here.threads.all (fun p => p.1 == 0) && s.here.pend.isEmpty) = true) :
    MayAccess s m := by
  simp only [Bool.and_eq_true, decide_eq_true_eq, List.all_eq_true, Bool.not_eq_true'] at h
  obtain ⟨⟨⟨⟨⟨⟨⟨⟨⟨⟨⟨hrun, h1⟩, h2⟩, h3⟩, h4⟩, h5⟩, h6⟩, h7⟩, h8⟩, h9⟩, h11⟩, h10⟩ := h
  have hm : ∀ v ∈ s.active, v = 0 := fun v hv => by simpa [hrun] using s.active_sub v hv
  refine ⟨h1, h2, by simpa using h3, fun _ r hr => ?_, fun u hu n hn => ?_, fun u hu n hn => ?_, fun u hu => (h6 u hu).2,
    ⟨by simp [hrun], fun u hu => ?_⟩, fun k hk => hrun ▸ owns_one (h8 k (List.mem_range.2 hk)), fun _ _ _ _ q _ => ?_, fun u hu _ _ _ _ p hp hne => ?_, fun p hp => ?_⟩
  · simp [List.isEmpty_iff.1 h4] at hr
  · simp [Option.isNone_iff_eq_none.1 (h5 u hu)] at hn
  · simp [Option.isNone_iff_eq_none.1 (h6 u hu).1] at hn
  · rw [hrun] at hu; rw [List.mem_singleton.1 hu]; exact h7
  · simp only [Core.flying, Core.row, AMap.lookD]
    cases hl : AMap.look s.here.rows q.1 with
    | none => rfl
    | some w =>
      have hf : w.fly = [] := List.isEmpty_iff.1 (h9 _ (look_mem _ _ _ hl))
      simp [hf]
  · exact absurd ((beq_iff_eq.1 (h11 p hp)).trans (hm u hu).symm) hne
  · simp [List.isEmpty_iff.1 h10] at hp

/-- The handler role's launch of cluster 0 stands on the core, with one request waiting; an EXT with this SEL. -/
def serving (sel : BitVec 4) : State :=
  { oneExt { plainExt with sel := sel } with
    clusters := [(0, { Cluster.reset with handler := some (0, 0), xtab := [(7, ⟨1#8, 0, 5, true, false⟩)], xpend := [7] })] }
theorem handling : isHandler (serving 1) := by
  intro u hu
  obtain rfl : u = 0 := List.mem_singleton.1 hu
  exact ⟨(0, 0), 0, by decide, by decide, by decide, by decide⟩

theorem witness_IntegerWordsComplete_1 :
    ∃ (i : Instr) (s : State) (x : IntWord), intWordOf s.ext i = some x ∧ WarpReady s i ∧ s.reads x.srcs ∧ s.writes x.dst 4 :=
  ⟨.iadd lk0 4 5 6, one, _, rfl, ready (by decide) (by decide), readies (by decide), writes_one (u := 0) (by decide)⟩

theorem witness_IntegerWordsComplete_2 :
    ∃ (i : Instr) (s : State) (f : FrontEnd) (x : IntWord), intWordOf s.ext i = some x ∧ FrontReady s i f ∧ (∀ r ∈ x.srcs, feSrcOk r = true) ∧ feDstOk x.dst = true ∧ f.noLater x.dst (f.last + 4) :=
  ⟨.iadd lk0 4 5 6, front, front0, _, rfl, frontReady (by decide), by decide, by decide, front_noLater _ _⟩

theorem witness_ComparesWriteTheirPredicates_1 :
    ∃ (s : State) (lk : Link) (k : BitVec 4) (p : BitVec 3) (a b : Reg), WarpReady s (.icmp lk k p a b) ∧ s.reads [a, b] ∧ s.writesPred p.toNat 4 :=
  ⟨one, lk0, 11, 7, 4, 5, ready (by decide) (by decide), readies (by decide), writesPred_one (u := 0) (by decide)⟩

theorem witness_ComparesWriteTheirPredicates_2 :
    ∃ (s : State) (f : FrontEnd) (lk : Link) (k : BitVec 4) (p : BitVec 3) (a b : Reg), FrontReady s (.icmp lk k p a b) f ∧ feSrcOk a = true ∧ feSrcOk b = true ∧ (∀ e ∈ f.early, e.outlasts (predCode p.toNat) (f.last + 4) = false) :=
  ⟨front, front0, lk0, 11, 7, 4, 5, frontReady (by decide), by decide, by decide, by decide⟩

theorem witness_ComparesWriteTheirPredicates_3 :
    ∃ (s : State) (lk : Link) (k : BitVec 4) (p : BitVec 3) (a b : Reg), WarpReady s (.fcmp lk k p a b) ∧ s.reads [a, b] ∧ s.writesPred p.toNat 4 :=
  ⟨one, lk0, 7, 0, 4, 5, ready (by decide) (by decide), readies (by decide), writesPred_one (u := 0) (by decide)⟩

theorem witness_UndefinedFormsAreIllegal_1 :
    ∃ (i : Instr) (s : State) (st : Stream), streamOf i = some st ∧ (∀ w a b y, i ≠ .hdr w a b y) ∧ (∀ a b c d e f, i ≠ .ext a b c d e f) ∧ (s.cur.extBad = true ∨ takes s.ext i = false ∨ i.wf = false ∨ (s.cur.fe = true ∧ (st = .warp ∨ s.cur.ext.isSome = true)) ∨ (s.cur.fe = false ∧ st = .front)) :=
  ⟨.icmp lk0 12 0 4 5, one, .both, rfl, fun _ _ _ _ h => (nomatch h), fun _ _ _ _ _ _ h => (nomatch h), by decide⟩

theorem witness_FloatWordsComplete_1 :
    ∃ (i : Instr) (s : State) (x : FloatWord), floatWordOf s i = some x ∧ WarpReady s i ∧ s.reads x.srcs ∧ s.writes x.dst x.pipe.delay :=
  ⟨.fadd lk0 4 5 6, one, _, rfl, ready (by decide) (by decide), readies (by decide), writes_one (u := 0) (by decide)⟩

theorem witness_FloatWordsComplete_2 :
    ∃ (i : Instr) (s : State) (x : FloatWord) (lk : Link) (d a b : Reg), floatWordOf s i = some x ∧ WarpReady s i ∧ s.reads x.srcs ∧ s.writes x.dst 4 ∧
    s.ext.sat = false ∧ (∃ t, exec i s = .next t) ∧ i = .fadd lk d a b ∧ 0 ∈ s.active ∧ isNan (s.here.readF s.cur.draw 0 fp32 a) = true ∧ (s.here.cell 0 d).isSome = true :=
  ⟨.fadd lk0 4 5 6, oneWith [(5, 0x7FC00000#32)], _, lk0, 4, 5, 6, rfl, ready (by decide) (by decide), readies (by decide), writes_one (u := 0) (by decide), rfl, ⟨_, rfl⟩, rfl, by decide, by decide, by decide⟩

theorem witness_MinimaAndConversionsComplete_1 :
    ∃ (s : State) (lk : Link) (d a b : Reg), WarpReady s (.fmax lk d a b) ∧ WarpReady s (.fmin lk d a b) ∧ s.reads [a, b] ∧ s.writes d 4 :=
  ⟨one, lk0, 4, 5, 6, ready (by decide) (by decide), ready (by decide) (by decide), readies (by decide), writes_one (u := 0) (by decide)⟩

theorem witness_MinimaAndConversionsComplete_2 :
    ∃ (i : Instr) (s : State) (d : Reg) (srcs : List Reg), convertOf s i = some (d, srcs) ∧ WarpReady s i ∧ s.reads srcs ∧ s.writes d 6 :=
  ⟨.cvtif lk0 4 5 0, one, 4, [5], rfl, ready (by decide) (by decide), readies (by decide), writes_one (u := 0) (by decide)⟩

theorem witness_GeneratorsStepAndSeed_1 :
    ∃ (s : State) (lk : Link) (d : Reg), WarpReady s (.rand lk d) ∧ s.writes d 6 :=
  ⟨one, lk0, 4, ready (by decide) (by decide), writes_one (u := 0) (by decide)⟩

theorem witness_GeneratorsStepAndSeed_2 :
    ∃ (s : State) (lk : Link) (a b : Reg), WarpReady s (.seed lk a b) ∧ s.reads [a, b] ∧ s.cur.run.Nodup ∧ (∀ u ∈ s.cur.run, AMap.has s.here.threads u = true) :=
  ⟨one, lk0, 4, 5, ready (by decide) (by decide), readies (by decide), by decide, by decide⟩

theorem witness_LanesReadAndCombine_1 :
    ∃ (i : Instr) (s : State) (x : CrossWord), crossOf s i = some x ∧ WarpReady s i ∧ Converged s ∧ s.reads x.srcs ∧ x.needs ∧ (∀ lk d a b, i = .vote lk d a b → b.toNat ≤ 4) ∧ s.writes x.dst 6 ∧ (∀ q, x.pred = some q → s.writesPred q.1 6) :=
  ⟨.perm lk0 4 5 6, one, _, rfl, ready (by decide) (by decide), ⟨by decide, .inl rfl, fun _ => rfl, fun _ => by decide, fun _ => by decide⟩, readies (by decide), by simp only [moveOf]; decide, fun _ _ _ _ h => (nomatch h), writes_one (u := 0) (by decide), fun _ h => (nomatch h)⟩

theorem witness_LanesReadAndCombine_2 :
    ∃ (i : Instr) (s : State) (x : CrossWord), combineOf s i = some x ∧ WarpReady s i ∧ Converged s ∧ s.reads x.srcs ∧ s.writes x.dst 6 ∧ ((lanesOf s = 16 ∨ lanesOf s = 32 ∨ lanesOf s = 64)) :=
  ⟨.redl lk0 4 5 10, one, _, rfl, ready (by decide) (by decide), ⟨by decide, .inl rfl, fun _ => rfl, fun _ => by decide, fun _ => by decide⟩, readies (by decide), writes_one (u := 0) (by decide), .inl (by decide)⟩

theorem witness_BranchesAndCallsMoveTheirLanes_1 :
    ∃ (i : Instr) (s : State) (x : Branch), branchOf s i = some x ∧ WarpReady s i ∧ Listed s ∧ s.reads x.srcs ∧ ((∀ u, x.direct = true ∨ u ∈ s.active → inSegment s (x.target u))) :=
  ⟨.bra 0 1, one, _, rfl, ready (by decide) (by decide), ⟨by decide, by decide⟩, readies (by decide), fun u _ => by show inSegment one (offsetTo one 1); unfold inSegment; decide⟩

theorem witness_BranchesAndCallsMoveTheirLanes_2 :
    ∃ (i : Instr) (s : State) (f : FrontEnd) (x : Branch), frontBranchOf s f i = some x ∧ FrontReady s i f ∧ (∀ r ∈ x.srcs, feSrcOk r = true) ∧ inSegment s (x.target 0) :=
  ⟨.brc 0 3 true 1, front, front0, _, rfl, frontReady (by decide), by decide, by show inSegment front (offsetTo front 1); unfold inSegment; decide⟩

theorem witness_BranchesAndCallsMoveTheirLanes_3 :
    ∃ (i : Instr) (s : State) (off : BitVec 19) (k : BitVec 2) (p : BitVec 3) (n : Bool), (i = .bra k off ∨ i = .brc k p n off ∨ i = .call k off) ∧ ¬ inSegment s (offsetTo s off) :=
  ⟨.bra 0 100, one, 100, 0, 0, false, .inl rfl, by show ¬ inSegment one (offsetTo one 100); unfold inSegment; decide⟩

theorem witness_BranchesAndCallsMoveTheirLanes_4 :
    ∃ (i : Instr) (s : State) (x : Branch) (u : Nat), branchOf s i = some x ∧ x.direct = false ∧ s.cur.fe = false ∧ u ∈ s.active ∧ (∀ r ∈ x.srcs, s.here.srcOk u r = true) ∧ ¬ inSegment s (x.target u) :=
  ⟨.brx 0 4, oneWith [(4, 100#32)], _, 0, rfl, rfl, rfl, by decide, by decide, by unfold inSegment; decide⟩

theorem witness_BranchesAndCallsMoveTheirLanes_5 :
    ∃ (i : Instr) (s : State) (f : FrontEnd) (x : Branch), frontBranchOf s f i = some x ∧ x.direct = false ∧ s.cur.fe = true ∧ s.here.fe = some f ∧ (∀ r ∈ x.srcs, feSrcOk r = true) ∧ ¬ inSegment s (x.target 0) :=
  ⟨.ret 0 4, frontWith [(4, 100#64)], frontSet [(4, 100#64)], _, rfl, rfl, rfl, rfl, by decide, by unfold inSegment; decide⟩

theorem witness_BranchesAndCallsMoveTheirLanes_6 :
    ∃ (lk : BitVec 2) (off : BitVec 19) (s : State), WarpReady s (.call lk off) ∧ inSegment s (offsetTo s off) ∧ s.writes 103#7 0 :=
  ⟨0, 1, one, ready (by decide) (by decide), by show inSegment one (offsetTo one 1); unfold inSegment; decide, writes_one (u := 0) (by decide)⟩

theorem witness_BranchesAndCallsMoveTheirLanes_7 :
    ∃ (lk : BitVec 2) (off : BitVec 19) (s : State) (f : FrontEnd), FrontReady s (.call lk off) f ∧ inSegment s (offsetTo s off) ∧ f.noLater 63#7 f.last :=
  ⟨0, 1, front, front0, frontReady (by decide), by show inSegment front (offsetTo front 1); unfold inSegment; decide, front_noLater _ _⟩

theorem witness_NopPrioSleepAndYield_1 :
    ∃ (s : State) (lk : Link), WarpReady s (.nop lk) ∧ Listed s :=
  ⟨one, lk0, ready (by decide) (by decide), ⟨by decide, by decide⟩⟩

theorem witness_NopPrioSleepAndYield_2 :
    ∃ (s : State) (lk : Link) (f : FrontEnd), FrontReady s (.nop lk) f :=
  ⟨front, lk0, front0, frontReady (by decide)⟩

theorem witness_NopPrioSleepAndYield_3 :
    ∃ (s : State) (lk : Link) (a : Reg), WarpReady s (.prio lk a) ∧ Listed s ∧ noHelpers s ∧ s.reads [a] :=
  ⟨one, lk0, 4, ready (by decide) (by decide), ⟨by decide, by decide⟩, by unfold noHelpers; decide, readies (by decide)⟩

theorem witness_NopPrioSleepAndYield_4 :
    ∃ (s : State) (lk : Link) (a : Reg), WarpReady s (.sleep lk a) ∧ Listed s ∧ noHelpers s ∧ s.reads [a] :=
  ⟨one, lk0, 4, ready (by decide) (by decide), ⟨by decide, by decide⟩, by unfold noHelpers; decide, readies (by decide)⟩

theorem witness_NopPrioSleepAndYield_5 :
    ∃ (s : State) (lk : Link) (l : BitVec 8), WarpReady s (.yield lk l) ∧ Listed s ∧ noHelpers s ∧ (∀ u ∈ s.active, atRest s u) :=
  ⟨one, lk0, 255, ready (by decide) (by decide), ⟨by decide, by decide⟩, by unfold noHelpers; decide, by unfold atRest; decide⟩

theorem witness_ClausesAndExtensions_1 :
    ∃ (s : State) (w : BitVec 12) (a b : BitVec 4) (y : Bool), s.cur.fe = false ∧ Listed s ∧ (y = true → noHelpers s ∧ ∀ u ∈ s.cur.run, atRest s u) :=
  ⟨one, 0xFFF, 0, 11, true, rfl, ⟨by decide, by decide⟩, fun _ => ⟨by unfold noHelpers; decide, by unfold atRest; decide⟩⟩

theorem witness_ClausesAndExtensions_2 :
    ∃ (s : State) (f : FrontEnd) (w : BitVec 12) (a b : BitVec 4) (y : Bool), FrontReady s (.hdr w a b y) f ∧ (y = true → ∀ n ∈ f.flags, n = 0) :=
  ⟨front, front0, 0, 15, 0, true, frontReady (by decide), fun _ => by decide⟩

theorem witness_ClausesAndExtensions_3 :
    ∃ (s : State) (c3 : Reg) (rm : BitVec 3) (sr sat : Bool) (g sel : BitVec 4), s.cur.fe = false ∧ Listed s :=
  ⟨one, 0, 4, false, false, 0, 15, rfl, ⟨by decide, by decide⟩⟩

theorem witness_EndsAndDecisions_1 :
    ∃ (i : Instr) (s : State) (lk : Link), WarpReady s i ∧ noHelpers s ∧ (AMap.keys s.here.groups).Nodup ∧ ((i = .exit lk ∧ (∀ u ∈ s.active, atRest s u)) ∨ (i = .tail lk ∧ (∀ u ∈ s.active, s.here.teamDone u = true) ∧ s.here.tracker.length + s.active.length ≤ 64)) :=
  ⟨.exit lk0, one, lk0, ready (by decide) (by decide), by unfold noHelpers; decide, by decide, .inl ⟨rfl, by unfold atRest; decide⟩⟩

theorem witness_EndsAndDecisions_2 :
    ∃ (s : State) (lk : Link), WarpReady s (.tail lk) ∧ noHelpers s ∧ (AMap.keys s.here.groups).Nodup ∧ (∀ u ∈ s.active, s.here.teamDone u = true) ∧ s.here.tracker.length + s.active.length ≤ 64 :=
  ⟨one, lk0, ready (by decide) (by decide), by unfold noHelpers; decide, by decide, by decide, by decide⟩

theorem witness_EndsAndDecisions_3 :
    ∃ (s : State) (lk : Link) (f : FrontEnd), FrontReady s (.exit lk) f ∧ (∀ n ∈ f.flags, n = 0) :=
  ⟨front, lk0, front0, frontReady (by decide), by decide⟩

theorem witness_EndsAndDecisions_4 :
    ∃ (s : State) (lk : BitVec 2) (f : FrontEnd) (h : Header) (a b : Reg), FrontReady s (.dqput lk a b) f ∧ feSrcOk a = true ∧ feSrcOk b = true ∧ s.header s.cur.core = some h ∧ s.here.dq.length < 64 ∧ bufsStand s :=
  ⟨front, 0, front0, probeHeader, 4, 63, frontReady (by decide), by decide, by decide, rfl, by decide, by unfold bufsStand; decide⟩

theorem witness_EndsAndDecisions_5 :
    ∃ (s : State) (lk : Link) (d : Reg) (before after : List QEntry) (e : QEntry), WarpReady s (.dqtake lk d) ∧ Converged s ∧ s.here.dq = before ++ e :: after ∧ (∀ x ∈ before, s.cur.warp ∉ x.left) ∧ s.cur.warp ∈ e.left ∧ s.writes d 4 :=
  ⟨oneCore (fun c => { c with dq := [⟨7#64, [0]⟩] }), lk0, 4, [], [], ⟨7#64, [0]⟩, ready (by decide) (by decide), ⟨by decide, .inl rfl, fun _ => rfl, fun _ => by decide, fun _ => by decide⟩, rfl, by decide, by decide, writes_one (u := 0) (by decide)⟩

theorem witness_GroupsAreJoinedAndLeft_1 :
    ∃ (s : State) (lk : Link) (d a : Reg), WarpReady s (.join lk d a) ∧ noHelpers s ∧ s.reads [a] ∧ s.writes d 4 :=
  ⟨oneWith [(5, 0xFFFFFFFF#32)], lk0, 4, 5, ready (by decide) (by decide), by unfold noHelpers; decide, readies (by decide), writes_one (u := 0) (by decide)⟩

theorem witness_GroupsAreJoinedAndLeft_2 :
    ∃ (s : State) (lk : Link) (a : Reg), WarpReady s (.leave lk a) ∧ noHelpers s ∧ s.reads [a] ∧ GroupsStand s.here :=
  ⟨grouped, lk0, 5, ready (by decide) (by decide), by unfold noHelpers; decide, readies (by decide), ⟨by decide, by decide, by decide⟩⟩

theorem witness_BarriersWaitForTheirPhase_1 :
    ∃ (s : State) (lk : Link) (a : Reg), WarpReady s (.gbar lk a) ∧ Listed s ∧ noHelpers s ∧ s.reads [a] ∧ GroupsStand s.here ∧ inGroup s a :=
  ⟨grouped, lk0, 5, ready (by decide) (by decide), ⟨by decide, by decide⟩, by unfold noHelpers; decide, readies (by decide), ⟨by decide, by decide, by decide⟩, by unfold inGroup; decide⟩

theorem witness_ArrivalsAndSignals_1 :
    ∃ (s : State) (lk : Link) (d a : Reg), WarpReady s (.gfire lk d a) ∧ noHelpers s ∧ s.reads [a] ∧ s.writes d 4 ∧ GroupsStand s.here ∧ inGroup s a :=
  ⟨grouped, lk0, 4, 5, ready (by decide) (by decide), by unfold noHelpers; decide, readies (by decide), writes_one (u := 0) (by decide), ⟨by decide, by decide, by decide⟩, by unfold inGroup; decide⟩

theorem witness_ArrivalsAndSignals_2 :
    ∃ (s : State) (lk : Link) (d a b : Reg), WarpReady s (.gsig lk d a b) ∧ noHelpers s ∧ s.reads [a, b] ∧ s.writes d 4 ∧ inGroup s a :=
  ⟨grouped, lk0, 4, 5, 6, ready (by decide) (by decide), by unfold noHelpers; decide, readies (by decide), writes_one (u := 0) (by decide), by unfold inGroup; decide⟩

theorem witness_MemoryWordsPostTheirAccesses_1 :
    ∃ (i : Instr) (s : State) (m : Asked), askedOf s i = some m ∧ WarpReady s i ∧ MayAccess s m :=
  ⟨.ld lk0 4 2 5 false 4, buffered, _, rfl, ready (by decide) (by decide), accesses (by decide)⟩

theorem witness_MemoryWordsPostTheirAccesses_2 :
    ∃ (i : Instr) (s : State) (m : Asked), askedOf s i = some m ∧ WarpReady s i ∧ MayAccess s m :=
  ⟨.sts lk0 4 3 5 true 0, buffered, _, rfl, ready (by decide) (by decide), accesses (by decide)⟩

theorem witness_MemoryWordsPostTheirAccesses_3 :
    ∃ (i : Instr) (s : State) (m : Asked), askedOf s i = some m ∧ WarpReady s i ∧ MayAccess s m :=
  ⟨.cas lk0 4 2 8 false 4, buffered, _, rfl, ready (by decide) (by decide), accesses (by decide)⟩

theorem witness_PrefetchesQueuesAndRecords_1 :
    ∃ (s : State) (lk : Link) (b : BitVec 5) (x : Reg) (sz : BitVec 3), WarpReady s (.pref lk b x sz) ∧ Listed s ∧
    s.reads (if s.ext.c3 = 0#7 then [x] else [x, s.ext.c3]) ∧ bSpace (s.here.buf s.cur.draw b.toNat) = 0 ∧
    (∀ r ∈ s.here.reqs, r.stage ≠ .stuck) ∧
    let rec_ : BufRec := s.here.buf s.cur.draw b.toNat
    let at_ (u : Nat) : Access := s.form s.cur.core (s.vfOf s.cur.core) rec_
      ((s.here.readReg s.cur.draw u x).toNat + if s.ext.c3 = 0#7 then 0 else (s.here.readReg s.cur.draw u s.ext.c3).toNat) 1 false
    let key (u : Nat) : Key := s.keyOf (s.vfOf s.cur.core) rec_ (at_ u).index (at_ u).off (at_ u).addr
    ∃ u ∈ s.active, (at_ u).fault = none ∧ (s.here.heldLines s (key u).vf (s.linesOf (key u) ((at_ u).addr / 64 * 64))).isSome = true :=
  ⟨translated, lk0, 2, 5, 0, ready (by decide) (by decide), ⟨by decide, by decide⟩, readies (by decide), by decide, by decide, 0, by decide, by decide, by decide⟩

theorem witness_PrefetchesQueuesAndRecords_2 :
    ∃ (s : State) (lk : Link) (d : Reg), WarpReady s (.frec lk d) ∧ noHelpers s ∧ WritesBlock s d 8 4 ∧ (∀ r ∈ s.here.faultq, r.length = 8) :=
  ⟨oneCore (fun c => { c with faultq := [List.replicate 8 7#32] }), lk0, 8, ready (by decide) (by decide), by unfold noHelpers; decide, writesBlock_one (u := 0) (by decide), by decide⟩

theorem witness_PrefetchesQueuesAndRecords_3 :
    ∃ (s : State) (lk : Link) (d : Reg) (before after : List QEntry) (e : QEntry) (w : Warp), WarpReady s (.qpop lk d) ∧ Converged s ∧ WritesBlock s d 2 4 ∧ s.here.warps.find? (fun x => x.id == s.cur.warp) = some w ∧ AMap.lookD s.here.wq w.role [] = before ++ e :: after ∧ (∀ x ∈ before, s.cur.warp ∉ x.left) ∧ s.cur.warp ∈ e.left :=
  ⟨oneCore (fun c => { c with wq := [(0, [⟨7#64, [0]⟩])] }), lk0, 4, [], [], ⟨7#64, [0]⟩, ⟨0, 0, 0, 1#64, false⟩, ready (by decide) (by decide), ⟨by decide, .inl rfl, fun _ => rfl, fun _ => by decide, fun _ => by decide⟩, writesBlock_one (u := 0) (by decide), rfl, rfl, by decide, by decide⟩

theorem witness_PrefetchesQueuesAndRecords_4 :
    ∃ (s : State) (lk : BitVec 2) (f : FrontEnd) (d a b : Reg), FrontReady s (.bufset lk d a b) f ∧ feSrcOk a = true ∧ feSrcOk b = true ∧ (let r : BufRec := BitVec.ofNat 128 ((f.read s.cur.draw b).toNat * 2 ^ 64 + (f.read s.cur.draw a).toNat)
    recValid r = true) :=
  ⟨frontWith [(4, 0x0020000000000000#64), (5, 100#64)], 0, frontSet [(4, 0x0020000000000000#64), (5, 100#64)], 31, 4, 5, frontReady (by decide), by decide, by decide, by decide⟩

theorem witness_PrefetchesQueuesAndRecords_5 :
    ∃ (s : State) (lk : BitVec 2) (f : FrontEnd) (h : Header) (a b : Reg), FrontReady s (.qpush lk a b) f ∧ feSrcOk a = true ∧ feSrcOk b = true ∧ s.header s.cur.core = some h ∧ (let q := (f.read s.cur.draw b).toNat % 4
    (AMap.lookD s.here.wq q []).length < 32 ∧ bufsStand s) :=
  ⟨front, 0, front0, probeHeader, 4, 5, frontReady (by decide), by decide, by decide, rfl, by decide, by unfold bufsStand; decide⟩

theorem witness_OrderingWordsWaitAndInvalidate_1 :
    ∃ (i : Instr) (s : State) (lk : Link), (i = .acq lk ∨ i = .rel lk ∨ i = .fence lk) ∧ WarpReady s i ∧ Listed s ∧ (∀ u ∈ s.active, ∀ r ∈ s.here.reqs, r.ofThread u = true → r.unread = false ∧ (i ≠ .acq lk → r.unregistered = false)) :=
  ⟨.acq lk0, one, lk0, .inl rfl, ready (by decide) (by decide), ⟨by decide, by decide⟩, by decide⟩

theorem witness_OrderingWordsWaitAndInvalidate_2 :
    ∃ (i : Instr) (s : State) (lk : Link) (f : FrontEnd), (i = .acq lk ∨ i = .rel lk ∨ i = .fence lk) ∧ FrontReady s i f :=
  ⟨.fence lk0, front, lk0, front0, .inr (.inr rfl), frontReady (by decide)⟩

theorem witness_BarrierObjectsChange_1 :
    ∃ (s : State) (lk : Link) (a b : Reg) (i : Instr) (f : Nat → Bar → Bar), WarpReady s i ∧ Listed s ∧ s.reads [a, b] ∧ (∀ u ∈ s.active, isBarrier s (barOf s a u)) ∧ ((i = .binit lk a b ∧ (∀ u ∈ s.active, (s.here.readReg s.cur.draw u b).toNat % 65536 ≠ 0) ∧ f = (fun u => initiated ((s.here.readReg s.cur.draw u b).toNat % 65536))) ∨ (i = .bexpect lk a b ∧ f = (fun u => expected (s.here.readReg s.cur.draw u b).toNat))) :=
  ⟨barred, lk0, 4, 5, .binit lk0 4 5, _, ready (by decide) (by decide), ⟨by decide, by decide⟩, readies (by decide), by unfold isBarrier; decide, .inl ⟨rfl, by decide, rfl⟩⟩

theorem witness_BarrierObjectsChange_2 :
    ∃ (s : State) (lk : Link) (d a : Reg), WarpReady s (.barrive lk d a) ∧ s.reads [a] ∧ s.writes d 4 ∧ (∀ u ∈ s.active, isBarrier s (barOf s a u)) ∧ (∀ u ∈ s.active, ∀ r ∈ s.here.reqs, r.ofThread u = true → r.unread = false) :=
  ⟨barred, lk0, 6, 4, ready (by decide) (by decide), readies (by decide), writes_one (u := 0) (by decide), by unfold isBarrier; decide, by decide⟩

theorem witness_BarrierObjectsChange_3 :
    ∃ (i : Instr) (s : State) (f : FrontEnd) (lk : Link) (d a b : Reg) (g : Bar → Bar), FrontReady s i f ∧ feSrcOk a = true ∧ isBarrier s (frontBar s f a) ∧ ((i = .binit lk a b ∧ feSrcOk b = true ∧ d = 108#7 ∧ (f.read s.cur.draw b).toNat % 65536 ≠ 0 ∧ g = initiated ((f.read s.cur.draw b).toNat % 65536)) ∨ (i = .bexpect lk a b ∧ feSrcOk b = true ∧ d = 108#7 ∧ g = expected ((f.read s.cur.draw b).toNat % 2 ^ 48)) ∨ (i = .barrive lk d a ∧ feDstOk d = true ∧ f.noLater d (f.last + 4) ∧ g = arrived)) :=
  ⟨.barrive lk0 6 4, barredFront, front0, lk0, 6, 4, 5, _, frontReady (by decide), by decide, by unfold isBarrier; decide, .inr (.inr ⟨rfl, by decide, front_noLater _ _, rfl⟩)⟩

theorem witness_BarrierObjectsChange_4 :
    ∃ (s : State) (lk : Link) (a b : Reg), WarpReady s (.bwait lk a b) ∧ Listed s ∧ s.reads [a, b] ∧ (∀ u ∈ s.active, isBarrier s (barOf s a u) ∧ passed (s.here.bar (barOf s a u)).phase (s.here.readReg s.cur.draw u b) = true) :=
  ⟨barred, lk0, 4, 5, ready (by decide) (by decide), ⟨by decide, by decide⟩, readies (by decide), by unfold isBarrier; decide⟩

theorem witness_BarrierObjectsChange_5 :
    ∃ (s : State) (lk : Link) (d a b : Reg), WarpReady s (.btest lk d a b) ∧ s.reads [a, b] ∧ s.writes d 4 ∧ (∀ u ∈ s.active, isBarrier s (barOf s a u)) :=
  ⟨barred, lk0, 6, 4, 5, ready (by decide) (by decide), readies (by decide), writes_one (u := 0) (by decide), by unfold isBarrier; decide⟩

theorem witness_BarrierObjectsChange_6 :
    ∃ (s : State) (f : FrontEnd) (lk : Link) (d a b : Reg), feSrcOk a = true ∧ feSrcOk b = true ∧ isBarrier s (frontBar s f a) ∧ FrontReady s (.bwait lk a b) f ∧ FrontReady s (.btest lk d a b) f :=
  ⟨barredFront, front0, lk0, 6, 4, 5, by decide, by decide, by unfold isBarrier; decide, frontReady (by decide), frontReady (by decide)⟩

theorem witness_FaultServiceWords_1 :
    ∃ (s : State) (lk : Link) (d : Reg), WarpReady s (.frecXlate lk d) ∧ s.ext.sel = 1#4 ∧ noHelpers s ∧ isHandler s ∧ WritesBlock s d 8 4 ∧ s.active.length ≤ (s.cluster (clusterOf s.cur.core)).xpend.length ∧ (∀ e ∈ (s.cluster (clusterOf s.cur.core)).xpend, AMap.has (s.cluster (clusterOf s.cur.core)).xtab e = true) :=
  ⟨serving 1, lk0, 8, ready (by decide) (by decide), rfl, by unfold noHelpers; decide, handling, writesBlock_one (u := 0) (by decide), by decide, by decide⟩

theorem witness_FaultServiceWords_2 :
    ∃ (i : Instr) (s : State) (lk : Link) (d a b : Reg), WarpReady s i ∧ noHelpers s ∧ (atLevelOne s ∨ isHandler s) ∧ s.reads (if s.ext.c3 = 0#7 then [a, b] else [a, b, s.ext.c3]) ∧ s.writes d 4 ∧ s.active ≠ [] :=
  ⟨.migctlQuery lk0 4 5 6, serving 1, lk0, 4, 5, 6, ready (by decide) (by decide), by unfold noHelpers; decide, .inr (handling), readies (by decide), writes_one (u := 0) (by decide), by decide⟩

theorem witness_FaultServiceWords_3 :
    ∃ (i : Instr) (s : State) (lk : Link) (d a b : Reg), s.cur.fe = false ∧ ¬ atLevelOne s ∧ ¬ isHandler s ∧ (i = .frecXlate lk d ∨ i = .migctlStart lk d a b ∨ i = .migctlQuery lk d a b ∨ i = .migctlResolve lk d a b ∨ i = .migctlAbort lk d a b ∨ i = .migctlInvpg lk d a b) :=
  ⟨.frecXlate lk0 4, one, lk0, 4, 5, 6, rfl, by unfold atLevelOne; decide, fun h => absurd (h 0 (by decide)) (by rintro ⟨h, l, h1, _⟩; exact nomatch h1), .inl rfl⟩

end

end Sys2Proof.Tests
end

