-- ==== Sys2Proof/Tests/WitnessSystem.lean ====
section
/-! SUPPORT. Witnesses of the hypotheses of the statements about pool, queue, grammar, system, trap and checkpoint words. -/

namespace Sys2Proof.Tests

open Sys2Proof Sys2Proof.Machine Sys2Proof.Claims

section

set_option Elab.async false
set_option linter.unusedVariables false


/-- Pool 9 of four pages. -/
def pool9 : Pool := ⟨4, 4, 1, 0, 1, [], [], [], []⟩
def withPool : AMap VF := [(0, { VF.reset with tensors := [(9, { Tensor.reset with state := 1, rows := 4, format := 2 })], pools := [(9, pool9)] })]
def pooled : State := { oneWith [(4, 9#32)] with vfs := withPool }

/-- A pool descriptor in v4 to v11, its pages of `pay` payload tiles. -/
def describing (pay : Word) : State :=
  oneWith [(4, 0x100000#32), (6, 4#32), (7, 4#32), (8, pay), (11, 0x1009#32)]

/-- The handler role's launch, with a copy request that waits or none. -/
def copierOf (q : List CopyReq) : State := { pooled with clusters := [(0, { Cluster.reset with handler := some (0, 0), copies := q })] }
def copying : State := copierOf [⟨0, 9, 0, 0⟩]
def idleCopier : State := copierOf []
theorem copier (s : State) (h : s.here.launch = some 0 ∧ s.cur.run = [0] ∧ (s.cluster (clusterOf s.cur.core)).handler = some (0, 0) ∧ (s.thread 0).role = 0) :
    isHandler s := by
  intro u hu
  obtain rfl : u = 0 := List.mem_singleton.1 (h.2.1 ▸ hu)
  exact ⟨(0, 0), 0, h.2.2.1, h.1, rfl, h.2.2.2⟩

/-- Virtual bytes 0 to 2 MiB at physical 2 MiB, and a table of one state, symbol, class and token bound in slot 0. -/
def entryBytes (addr : Nat) (leaf : Bool) : List Byte := leBytes (2 ^ 63 + 2 ^ 62 + (if leaf then 2 ^ 61 else 0) + addr) 8
def paged (s : State) : State :=
  { s with
    mem := ((s.mem.putBytes 0x10000 (entryBytes 0x12000 false)).putBytes 0x12000 (entryBytes 0x14000 false)).putBytes 0x14000
      (entryBytes 0x200000 true)
    parts := [(0, { part0 with pch := List.replicate 12 0xFFFFFFFFFFFFFFFF#64 })]
    vfs := [(0, { VF.reset with ptroot := 0x10001#64 })] }
def table0 : GrammarSlot := ⟨0, 0, 1, 1, 1, 1, 64, 128⟩
def bound : State := { paged one with dies := [(0, { Die.reset with grammar := [(0, table0)] })] }
def binding : State := paged (oneWith [(5, 0x100000#32)])
theorem bare {s : State} (h : s.brocade = []) : Coherent s :=
  ⟨h ▸ .nil, h ▸ .nil, h ▸ (by simp), h ▸ (by simp), h ▸ (by simp)⟩
theorem blockRest {s : State} {a : Reg} {u : Nat} (h : (decide (blockWord s a u / 2 ^ 20 % 2 ^ 8 = 0) && [1, 2, 3, 4].all (fun j =>
    decide (blockArg s a u j / 2 ^ 14 % 4 = 0) && decide (blockArg s a u j / 2 ^ 30 = 0))) = true) :
    blockWord s a u / 2 ^ 20 % 2 ^ 8 = 0 ∧ ∀ j, 1 ≤ j → j ≤ 4 → blockArg s a u j / 2 ^ 14 % 4 = 0 ∧ blockArg s a u j / 2 ^ 30 = 0 := by
  simp only [Bool.and_eq_true, decide_eq_true_eq, List.all_eq_true] at h
  exact ⟨h.1, fun j h1 h2 => h.2 j (by simp; omega)⟩
theorem bytesGood {s : State} {v va n pa : Nat} (h : ((List.range n).all (fun i =>
    decide (s.walk v ((va + i) / 64 * 64) false = .ok pa) && !(s.physPoison (pa + (va + i) % 64)))) = true) : vaGood s v va n := by
  intro i hi
  have := List.all_eq_true.1 h i (List.mem_range.2 hi)
  simp only [Bool.and_eq_true, decide_eq_true_eq, Bool.not_eq_true'] at this
  exact ⟨pa, this⟩

/-- The run, or the front end, at level 1. -/
def above : State := oneCore (fun c => { c with threads := [(0, { thread0 with pl := true })] })
def levelled0 : FrontEnd := { front0 with pl := true }
def levelled : State := { front with cores := [(0, { frontCore with fe := some levelled0 })] }

/-- The thread waits for a service that ends by now. -/
def deferred (job : LateJob) : State := oneCore (fun c => { c with threads := [(0, { thread0 with hold := .later 0 job })] })
theorem deferred_blank (job : LateJob) (w : Nat) (h : w ≠ 0) : ((deferred job).core 0).th w = Thread.blank := by
  have : ((deferred job).core 0).threads = [(0, { thread0 with hold := .later 0 job })] := rfl
  simp [Core.th, this, AMap.lookD, AMap.look, Ne.symm h]
theorem deferred_other (job : LateJob) (w : Nat) (h : w ≠ 0) (m : Nat) (j : LateJob) : (((deferred job).core 0).th w).hold ≠ .later m j := by
  rw [deferred_blank job w h]
  simp [Thread.blank]

/-- No SYSWR is less than 4 cycles old. -/
theorem meets_now {s : State} {P : DWord → Prop} (h : s.sysOld = []) (hp : P (s.vf (myVf s)).trapbase) (b : DWord)
    (hb : meetsBase s b) : P b := by
  rcases hb with rfl | ⟨e, he, _⟩
  · exact hp
  · rw [h] at he; exact nomatch he

/-- TRAPBASE names a segment of the system's. -/
def vectored : State := { one with vfs := [(0, { VF.reset with trapbase := 0x0020000000000001#64 })] }

/-- The thread is in its handler: entry 2 is its trap entry, whose handle stands in v5. -/
def trapped : State :=
  oneCore (fun c => { (Tests.Core.sets { c with rows := (List.range 26).map (fun r => (r, { Row.reset with count := 1 })) } [(5, 0x01000002#32)]) with
    threads := [(0, { thread0 with pl := true, intrap := true, trapEntry := some 2, trapRec := ⟨0#32, 0#32, 0#32, 0x01000002#32⟩ })]
    damask := [(2, { Entry.reset with
      state := 1, map := (List.range 13).map (· + 13), resume := 108#7, flags := List.replicate 12 0, dl := 255, trapEntry := true })] })
/-- The same with an access in flight, and an EXT of TRET.next. -/
def restless : State :=
  { trapped with
    cores := [(0, { trapped.here with threads := trapped.here.threads.map (fun p => (p.1, { p.2 with flags := setAt p.2.flags 0 1 })) })]
    cur := { cur0 with ext := some { plainExt with sel := 1 } } }
def trappedBy (sel : BitVec 4) : State := { trapped with cur := { cur0 with ext := some { plainExt with sel := sel } } }

/-- Thread 0 has recruited the helper of lane 0, whose team's operation is 3. -/
def helping : State :=
  { oneCore (fun c => { c with
      threads := [(0, { thread0 with team := some ⟨0, 1, some 3, []⟩ }), (64, { thread0 with
        map := (List.range 13).map (· + 13), helper := some ⟨0, 0, 0, [26, 27, 28, 29]⟩ })]
      rows := (List.range 30).map (fun r => (r, { Row.reset with count := 1 })) }) with
    cur := { cur0 with run := [64] } }
theorem helpersCounted : RowsCounted helping.here := by
  refine ⟨fun r => ?_, fun p hp h hh => ?_, ⟨by decide, by decide⟩, by decide, by decide, by decide, by decide⟩
  · cases hl : AMap.look helping.here.rows r with
    | some w => exact of_decide_eq_true (List.all_eq_true.1 (show helping.here.rows.all (fun p => decide
        ((helping.here.row p.1).count = (heldRows helping.here).count p.1)) = true by decide) _ (look_mem _ _ _ hl))
    | none =>
      have hn : r ∉ heldRows helping.here := fun hm => by
        have := List.all_eq_true.1 (show (heldRows helping.here).all (fun r => AMap.has helping.here.rows r) = true by decide) r hm
        simp [AMap.has, hl] at this
      rw [List.count_eq_zero.2 hn]
      simp [Core.row, AMap.lookD, hl, Row.reset]
  · have := List.all_eq_true.1 (show helping.here.threads.all (fun p => match p.2.helper with
      | some h => h.reserved.all (fun r => decide ((heldRows helping.here).count r = 1)) | none => true) = true by decide) p hp
    rw [hh] at this
    exact fun r hr => of_decide_eq_true (List.all_eq_true.1 this r hr)

theorem witness_PoolWordsAreQueued_1 :
    ∃ (i : Instr) (s : State) (x : PoolWord), poolWordOf i = some x ∧ WarpReady s i ∧ Listed s ∧ (∀ u ∈ s.active, s.here.blockOk u x.dst 3 = true ∧ s.here.blockOk u x.src x.args = true ∧ isPool s (blockArg s x.src u 0) ∧ (x.op (blockArg s x.src u)).isSome = true) ∧ (∀ k < 3, s.here.Owns s.cur.run (nth x.dst k)) :=
  by
  refine ⟨.kvnewSeq lk0 12 4 0 false, pooled, _, rfl, ready (by decide) (by decide), ⟨by decide, by decide⟩, fun u hu => ?_, fun k hk => owns_one (by revert k; decide)⟩
  obtain rfl : u = 0 := List.mem_singleton.1 hu
  exact ⟨by decide, by decide, by unfold isPool; decide, by decide⟩

theorem witness_PoolWordsAreQueued_2 :
    ∃ (i : Instr) (s : State) (x : PoolWord), poolWordOf i = some x ∧ WarpReady s i ∧ (∀ u ∈ s.active, s.here.blockOk u x.dst 3 = true ∧ s.here.blockOk u x.src x.args = true) ∧
    ((∃ u ∈ s.active, x.op (blockArg s x.src u) = none) ∧ ∃ u ∈ s.active, ¬ (blockArg s x.src u 0 = 0)) :=
  ⟨.kvapp lk0 12 4 0 false, oneWith [(4, 9#32), (6, 16#32)], _, rfl, ready (by decide) (by decide), by decide, ⟨0, by decide, by decide⟩, 0, by decide, by decide⟩

theorem witness_PoolsAreMade_1 :
    ∃ (s : State) (lk : Link) (d a : Reg) (pd : BitVec 3) (pe : Bool) (p : Pool) (vbase id n : Nat), let w := fun j => leadReads s (nth a j)
    WarpReady s (.kvnewPool lk d a pd pe) ∧ WritesBlock s d 3 4 ∧ predLast s (predNamed pd pe) ∧ s.active ≠ [] ∧ (∀ u ∈ s.active, s.here.blockOk u a 8 = true) ∧ describesPool w p vbase id ∧ GoodPool w p vbase ∧ takesEntry s id n :=
  ⟨describing 1, lk0, 12, 4, 0, false, ⟨4, 4, 1, 0, 1, [], [], [], []⟩, 0x100000, 9, 9, ready (by decide) (by decide), writesBlock_one (u := 0) (by decide), fun q h => (nomatch h), by decide, by decide, ⟨by decide, by decide, by decide⟩, ⟨by decide, by decide, by decide, by decide, by decide, by decide⟩, ⟨fun _ => rfl, fun h => absurd h (by decide), by decide, fun l hl => (nomatch hl)⟩⟩

theorem witness_PoolsAreMade_2 :
    ∃ (s : State) (lk : Link) (d a : Reg) (pd : BitVec 3) (pe : Bool) (reason : Word), WarpReady s (.kvnewPool lk d a pd pe) ∧ WritesBlock s d 3 4 ∧ predLast s (predNamed pd pe) ∧ s.active ≠ [] ∧ (∀ u ∈ s.active, s.here.blockOk u a 8 = true) ∧ NoPool s (fun j => leadReads s (nth a j)) reason :=
  ⟨describing 0, lk0, 12, 4, 0, false, 5#32, ready (by decide) (by decide), writesBlock_one (u := 0) (by decide), fun q h => (nomatch h), by decide, by decide, .bad ⟨4, 4, 0, 0, 1, [], [], [], []⟩ 0x100000 9 ⟨by decide, by decide, by decide⟩ (fun h => absurd h.payload.1 (by decide))⟩

theorem witness_PoolsAreDroppedAndCopied_1 :
    ∃ (s : State) (lk : Link) (d a : Reg) (pd : BitVec 3) (pe : Bool), let n := leadReads s a
    WarpReady s (.kvnewDrop lk d a pd pe) ∧ Listed s ∧ s.active ≠ [] ∧ feUid ∉ s.active ∧ (∀ u ∈ s.active, s.here.blockOk u d 3 = true ∧ s.here.blockOk u a 1 = true ∧ isPool s (blockArg s a u 0)) ∧ (∀ k < 3, s.here.Owns s.cur.run (nth d k)) :=
  by
  refine ⟨pooled, lk0, 12, 4, 0, false, ready (by decide) (by decide), ⟨by decide, by decide⟩, by decide, by decide, fun u hu => ?_, fun k hk => owns_one (by revert k; decide)⟩
  obtain rfl : u = 0 := List.mem_singleton.1 hu
  exact ⟨by decide, by decide, by unfold isPool; decide⟩

theorem witness_PoolsAreDroppedAndCopied_2 :
    ∃ (s : State) (lk : Link) (d : Reg) (pd : BitVec 3) (pe : Bool) (r : CopyReq) (rs : List CopyReq), WarpReady s (.kvforkCow lk d pd pe) ∧ WritesBlock s d 3 4 ∧ predLast s (predNamed pd pe) ∧ isHandler s ∧ s.active ≠ [] ∧ (s.cluster (clusterOf s.cur.core)).copies = r :: rs ∧ (∀ q, s.pool r.vf r.t = some q → q.queue.Nodup) :=
  by
  refine ⟨copying, lk0, 12, 0, false, ⟨0, 9, 0, 0⟩, [], ready (by decide) (by decide), writesBlock_one (u := 0) (by decide), fun q h => (nomatch h), copier _ (by decide), by decide, rfl, fun q hq => ?_⟩
  obtain rfl := Option.some.inj hq
  decide

theorem witness_PoolsAreDroppedAndCopied_3 :
    ∃ (s : State) (lk : Link) (d : Reg) (pd : BitVec 3) (pe : Bool), WarpReady s (.kvforkCow lk d pd pe) ∧ isHandler s ∧ s.active ≠ [] ∧ (∀ u ∈ s.active, s.here.blockOk u d 3 = true) ∧ (s.cluster (clusterOf s.cur.core)).copies = [] :=
  ⟨idleCopier, lk0, 12, 0, false, ready (by decide) (by decide), copier _ (by decide), by decide, by decide, rfl⟩

theorem witness_PoolsAreDroppedAndCopied_4 :
    ∃ (s : State) (lk : Link) (d : Reg) (pd : BitVec 3) (pe : Bool), WarpReady s (.kvforkCow lk d pd pe) ∧ ¬ isHandler s :=
  ⟨one, lk0, 12, 0, false, ready (by decide) (by decide), fun h => absurd (h 0 (by decide)) (by rintro ⟨h, l, h1, _⟩; exact nomatch h1)⟩

theorem witness_QueueWordsWait_1 :
    ∃ (i : Instr) (s : State) (lk : Link) (c b : Reg) (fits : Hold → Prop), WarpReady s i ∧ Listed s ∧ s.active ≠ [] ∧ feUid ∉ s.active ∧ (∀ u ∈ s.active, s.here.blockOk u c 1 = true ∧ s.here.blockOk u b 16 = true) ∧ (let ctrl := reads s (s.active.headD 0) c
    let place : WordAt := ⟨s.cur.pc, s.cur.gpc, s.cur.glen⟩
    ((i = .xqsend lk c b ∧ fits = fun h => h = .xqsend ctrl ((List.range 16).map (fun j => reads s (s.active.headD 0) (nth b j))) (comesBack s)) ∨ (i = .xqrecv lk b c ∧ (∀ k < 16, s.here.Owns s.cur.run (nth b k)) ∧ fits = fun h => h = .xqrecv b ctrl none place (comesBack s)) ∨ (i = .xqrecvDraft lk b c ∧ (∀ k < 16, s.here.Owns s.cur.run (nth b k)) ∧ fits = fun h => ∃ x y : DWord, meetsSys s noUid 0x02 (s.here.vocab.setWidth 64) x ∧ meetsSys s noUid 0x03 (s.here.vocabpad.setWidth 64) y ∧ h = .xqrecv b ctrl (some (x.setWidth 32, y.setWidth 32)) place (comesBack s)))) :=
  ⟨.xqsend lk0 4 8, one, lk0, 4, 8, _, ready (by decide) (by decide), ⟨by decide, by decide⟩, by decide, by decide, by decide, .inl ⟨rfl, rfl⟩⟩

theorem witness_QueueWordsWait_2 :
    ∃ (i : Instr) (s : State) (lk : Link) (c b : Reg) (fits : Hold → Prop), WarpReady s i ∧ Listed s ∧ s.active ≠ [] ∧ feUid ∉ s.active ∧ (∀ u ∈ s.active, s.here.blockOk u c 1 = true ∧ s.here.blockOk u b 16 = true) ∧ (let ctrl := reads s (s.active.headD 0) c
    let place : WordAt := ⟨s.cur.pc, s.cur.gpc, s.cur.glen⟩
    ((i = .xqsend lk c b ∧ fits = fun h => h = .xqsend ctrl ((List.range 16).map (fun j => reads s (s.active.headD 0) (nth b j))) (comesBack s)) ∨ (i = .xqrecv lk b c ∧ (∀ k < 16, s.here.Owns s.cur.run (nth b k)) ∧ fits = fun h => h = .xqrecv b ctrl none place (comesBack s)) ∨ (i = .xqrecvDraft lk b c ∧ (∀ k < 16, s.here.Owns s.cur.run (nth b k)) ∧ fits = fun h => ∃ x y : DWord, meetsSys s noUid 0x02 (s.here.vocab.setWidth 64) x ∧ meetsSys s noUid 0x03 (s.here.vocabpad.setWidth 64) y ∧ h = .xqrecv b ctrl (some (x.setWidth 32, y.setWidth 32)) place (comesBack s)))) :=
  ⟨.xqrecvDraft lk0 8 4, one, lk0, 4, 8, _, ready (by decide) (by decide), ⟨by decide, by decide⟩, by decide, by decide, by decide, .inr (.inr ⟨rfl, fun k hk => owns_one (by revert k; decide), rfl⟩)⟩

theorem witness_GrammarWordsReadTheirTable_1 :
    ∃ (s : State) (lk : Link) (d a : Reg) (pd : BitVec 3) (pe : Bool) (g : Nat → GrammarSlot), WarpReady s (.gstep lk d a pd pe) ∧ Listed s ∧ Coherent s ∧ s.devcap.getLsbD (8 + dieOf s.cur.core) = true ∧ s.funcBit (myVf s) 3 = false ∧ (∀ u ∈ s.active, s.here.blockOk u a 1 = true) ∧ WritesBlock s d 5 4 ∧ predLast s (predNamed pd pe) ∧ (∀ u ∈ s.active, GoodBlock s d u (g u) ∧ actionGood s (g u) (gState s d u) (gTop s d u) (reads s u a).toNat) :=
  by
  refine ⟨bound, lk0, 4, 12, 0, false, fun _ => table0, ready (by decide) (by decide), ⟨by decide, by decide⟩, bare rfl, by decide, by decide, by decide, writesBlock_one (u := 0) (by decide), fun q h => (nomatch h), fun u hu => ?_⟩
  obtain rfl : u = 0 := List.mem_singleton.1 hu
  exact ⟨⟨by decide, blockRest (by decide), by decide, by decide⟩, bytesGood (pa := 0x200040) (by decide), bytesGood (pa := 0x200080) (by decide)⟩

theorem witness_GrammarWordsReadTheirTable_2 :
    ∃ (s : State) (lk : Link) (d a : Reg) (pd : BitVec 3) (pe : Bool) (g : GrammarSlot), WarpReady s (.gmask lk d a pd pe) ∧ Listed s ∧
    Coherent s ∧ s.active ≠ [] ∧ s.devcap.getLsbD (8 + dieOf s.cur.core) = true ∧ s.funcBit (myVf s) 3 = false ∧
    (∀ u ∈ s.active, s.here.blockOk u a 6 = true) ∧ WritesBlock s d 3 4 ∧ predLast s (predNamed pd pe) ∧
    let v := s.active.headD 0
    GoodBlock s a v g ∧ ∀ tok < g.ntok, actionGood s g (gState s a v) (gTop s a v) tok :=
  by
  refine ⟨bound, lk0, 12, 4, 0, false, table0, ready (by decide) (by decide), ⟨by decide, by decide⟩, bare rfl, by decide, by decide, by decide, by decide, writesBlock_one (u := 0) (by decide), fun q h => (nomatch h), ⟨by decide, blockRest (by decide), by decide, by decide⟩, fun tok h => ?_⟩
  obtain rfl : tok = 0 := by simpa [table0] using h
  exact ⟨bytesGood (pa := 0x200040) (by decide), bytesGood (pa := 0x200080) (by decide)⟩

theorem witness_GrammarWordsReadTheirTable_3 :
    ∃ (s : State) (lk : Link) (d a : Reg) (pd : BitVec 3) (pe : Bool), WarpReady s (.gstepBind lk d a pd pe) ∧ Listed s ∧ Coherent s ∧ s.active ≠ [] ∧
    s.devcap.getLsbD (8 + dieOf s.cur.core) = true ∧ s.funcBit (myVf s) 3 = false ∧ (∀ u ∈ s.active, s.here.blockOk u a 3 = true) ∧
    WritesBlock s d 1 4 ∧ leadReads s a < 16 ∧
    vaGood s (myVf s) (leadReads s (nth a 1) + 2 ^ 32 * (leadReads s (nth a 2) % 2 ^ 20)) 64 :=
  ⟨binding, lk0, 12, 4, 0, false, ready (by decide) (by decide), ⟨by decide, by decide⟩, bare rfl, by decide, by decide, by decide, by decide, writesBlock_one (u := 0) (by decide), by decide, bytesGood (pa := 0x300000) (by decide)⟩

theorem witness_SystemRegistersAreRead_1 :
    ∃ (s : State) (lk : Link) (d b : Reg), WarpReady s (.sysrd lk d b) ∧ s.writes d 4 ∧ isRegister b.toNat ∧ b.toNat < 0x20 ∧ (readsAtOne b.toNat → atLevelOne s) ∧ (∀ u ∈ s.active, ∀ e ∈ (s.thread u).early, e.code ≠ fstatCode) :=
  ⟨one, lk0, 4, 0x1F, ready (by decide) (by decide), writes_one (u := 0) (by decide), by unfold isRegister; decide, by decide, fun h => absurd h (by unfold readsAtOne; decide), by decide⟩

theorem witness_SystemRegistersAreRead_2 :
    ∃ (s : State) (lk : Link) (d b : Reg) (f : FrontEnd), FrontReady s (.sysrd lk d b) f ∧ feDstOk d = true ∧ f.noLater d (f.last + 4) ∧ isRegister b.toNat ∧ (readsAtOne b.toNat → f.pl = true) ∧ ¬ isThreads b.toNat :=
  ⟨levelled, lk0, 4, 0x20, levelled0, frontReady (by decide), by decide, fun e h => (nomatch h), by unfold isRegister; decide, fun _ => rfl, by unfold isThreads; decide⟩

theorem witness_SystemRegistersAreRead_3 :
    ∃ (s : State) (lk : Link) (d b : Reg), WarpReady s (.sysrd lk d b) ∧ (¬ isRegister b.toNat ∨ 0x20 ≤ b.toNat ∨ (readsAtOne b.toNat ∧ ¬ atLevelOne s)) :=
  ⟨one, lk0, 4, 0x08, ready (by decide) (by decide), .inr (.inr ⟨by unfold readsAtOne; decide, by unfold atLevelOne; decide⟩)⟩

theorem witness_SystemRegistersAreRead_4 :
    ∃ (s : State) (lk : Link) (d a : Reg), WarpReady s (.kvquotaRd lk d a) ∧ s.writes d 4 ∧ s.active ≠ [] ∧ (∀ u ∈ s.active, s.here.blockOk u d 1 = true ∧ s.here.blockOk u a 1 = true) :=
  ⟨one, lk0, 4, 5, ready (by decide) (by decide), writes_one (u := 0) (by decide), by decide, by decide⟩

theorem witness_SystemRegistersAreWritten_1 :
    ∃ (s : State) (lk : Link) (a b : Reg) (l : Nat), WarpReady s (.syswr lk a b) ∧ Listed s ∧ noHelpers s ∧ s.reads [a] ∧ isRegister b.toNat ∧ b.toNat < 0x20 ∧ (writesAtOne b.toNat → atLevelOne s) ∧ s.active ≠ [] ∧ s.here.launch = some l ∧ (∀ u ∈ s.active, ∀ e ∈ (s.thread u).early, e.code ≠ fstatCode) ∧ (0x18 ≤ b.toNat → leadReads s a % 256 ≤ 0x0F) :=
  ⟨above, lk0, 4, 0x0D, 0, ready (by decide) (by decide), ⟨by decide, by decide⟩, by unfold noHelpers; decide, readies (by decide), by unfold isRegister; decide, by decide, fun _ => by unfold atLevelOne; decide, by decide, rfl, by decide, fun h => absurd h (by decide)⟩

theorem witness_SystemRegistersAreWritten_2 :
    ∃ (s : State) (lk : Link) (a b : Reg) (l : Nat), WarpReady s (.syswr lk a b) ∧ Listed s ∧ noHelpers s ∧ s.reads [a] ∧ isRegister b.toNat ∧ b.toNat < 0x20 ∧ (writesAtOne b.toNat → atLevelOne s) ∧ s.active ≠ [] ∧ s.here.launch = some l ∧ (∀ u ∈ s.active, ∀ e ∈ (s.thread u).early, e.code ≠ fstatCode) ∧ (0x18 ≤ b.toNat → leadReads s a % 256 ≤ 0x0F) :=
  ⟨oneWith [(4, 0x0F#32)], lk0, 4, 0x18, 0, ready (by decide) (by decide), ⟨by decide, by decide⟩, by unfold noHelpers; decide, readies (by decide), by unfold isRegister; decide, by decide, fun h => absurd h (by unfold writesAtOne; decide), by decide, rfl, by decide, by decide⟩

theorem witness_SystemRegistersAreWritten_3 :
    ∃ (s : State) (lk : Link) (a b : Reg) (f : FrontEnd), FrontReady s (.syswr lk a b) f ∧ feSrcOk a = true ∧ isRegister b.toNat ∧ (writesAtOne b.toNat → f.pl = true) ∧ (0x18 ≤ b.toNat → b.toNat < 0x20 → (f.read s.cur.draw a).toNat % 256 ≤ 0x0F) :=
  ⟨levelled, lk0, 4, 0x22, levelled0, frontReady (by decide), by decide, by unfold isRegister; decide, fun _ => rfl, fun _ h => absurd h (by decide)⟩

theorem witness_SystemRegistersAreWritten_4 :
    ∃ (s : State) (lk : Link) (a b : Reg), WarpReady s (.syswr lk a b) :=
  ⟨one, lk0, 4, 0x0D, ready (by decide) (by decide)⟩

theorem witness_SystemRegistersAreWritten_5 :
    ∃ (s : State) (lk : Link) (d a : Reg), WarpReady s (.kvquotaWr lk d a) ∧ Listed s ∧ atLevelOne s ∧ s.active ≠ [] ∧ feUid ∉ s.active ∧ (∀ u ∈ s.active, s.here.blockOk u d 1 = true ∧ s.here.blockOk u a 1 = true) ∧ GoodSelector s (leadReads s a) true :=
  ⟨above, lk0, 4, 5, ready (by decide) (by decide), ⟨by decide, by decide⟩, by unfold atLevelOne; decide, by decide, by decide, by decide, ⟨by decide, .inl (by decide)⟩⟩

theorem witness_SystemRegistersAreWritten_6 :
    ∃ (s : State) (k u own v tier reg n done : Nat), u ≠ feUid ∧ AMap.has (s.core k).threads u = true ∧ (AMap.keys (s.core k).threads).Nodup ∧ feUid ∉ AMap.keys (s.core k).threads ∧ ((s.core k).th u).hold = .later done (.quota own v tier reg n) ∧ done ≤ s.now ∧ s.tearing k = false ∧ (∀ f, (s.core k).fe = some f → ∀ m job, f.hold ≠ .later m job) ∧ (∀ w ≠ u, ∀ m job, ((s.core k).th w).hold ≠ .later m job) :=
  ⟨deferred (.quota 0 0 1 16 2), 0, 0, 0, 0, 1, 16, 2, 0, by decide, by decide, by decide, by decide, rfl, by decide, by decide, fun f h => (nomatch h), fun w hw => deferred_other _ w hw⟩

theorem witness_SystemRegistersAreWritten_7 :
    ∃ (s : State) (lk : Link) (d a : Reg), WarpReady s (.kvquotaWr lk d a) ∧ ¬ atLevelOne s :=
  ⟨one, lk0, 4, 5, ready (by decide) (by decide), by unfold atLevelOne; decide⟩

theorem witness_TrapsEnterTheirHandler_1 :
    ∃ (s : State) (lk : Link) (a : Reg), WarpReady s (.trap lk a) ∧ Listed s ∧ noHelpers s ∧ s.reads [a] ∧ s.active ≠ [] ∧ (∀ u ∈ s.cur.run, (s.thread u).pl = false ∧ (s.thread u).intrap = false) ∧ (∀ b, meetsBase s b → vectors b) ∧ (∀ u ∈ s.cur.run, ∀ v ∈ s.cur.run, laneOf s u = laneOf s v → u = v) ∧ RowsCounted s.here ∧ rowsToSpare s.here s.cur.run ∧ s.cur.run.length ≤ ((List.range 4096).filter (fun e => (s.here.entry e).state == 0)).length :=
  ⟨vectored, lk0, 4, ready (by decide) (by decide), ⟨by decide, by decide⟩, by unfold noHelpers; decide, readies (by decide), by decide, by decide, meets_now rfl (by unfold vectors; decide), fun u hu v hv _ => (List.mem_singleton.1 hu).trans (List.mem_singleton.1 hv).symm, rowsCounted (by decide) (by decide) (by decide) (by decide) (by decide) (by decide), spareRows (by decide), List.length_pos_of_mem (List.mem_filter.2 ⟨List.mem_range.2 (by decide : 7 < 4096), by decide⟩)⟩

theorem witness_TrapsEnterTheirHandler_2 :
    ∃ (s : State) (lk : Link) (a : Reg) (l : Nat) (x : Launch), WarpReady s (.trap lk a) ∧ Listed s ∧ noHelpers s ∧ s.reads [a] ∧ s.active ≠ [] ∧ s.here.launch = some l ∧ s.launch l = some x ∧ x.tearing = false ∧ x.vf = myVf s ∧ (∀ u ∈ s.cur.run, ∀ v ∈ s.cur.run, laneOf s u = laneOf s v → u = v) ∧ (let first := s.thread (s.cur.run.headD 0)
    ((first.intrap = true ∨ first.pl = true ∨ ∀ b, meetsBase s b → ¬ vectors b))) :=
  ⟨one, lk0, 4, 0, launch0, ready (by decide) (by decide), ⟨by decide, by decide⟩, by unfold noHelpers; decide, readies (by decide), by decide, rfl, rfl, rfl, by decide, fun u hu v hv _ => (List.mem_singleton.1 hu).trans (List.mem_singleton.1 hv).symm, .inr (.inr (meets_now (P := fun b => ¬ vectors b) rfl (by unfold vectors; decide)))⟩

theorem witness_TrapsEnterTheirHandler_3 :
    ∃ (s : State) (lk : Link) (a : Reg) (l : Nat) (x : Launch), WarpReady s (.trap lk a) ∧ Listed s ∧ noHelpers s ∧ s.reads [a] ∧ s.active ≠ [] ∧ s.here.launch = some l ∧ s.launch l = some x ∧ x.tearing = false ∧ x.vf = myVf s ∧ (∀ u ∈ s.cur.run, ∀ v ∈ s.cur.run, laneOf s u = laneOf s v → u = v) ∧ (let first := s.thread (s.cur.run.headD 0)
    ((first.intrap = true ∨ first.pl = true ∨ ∀ b, meetsBase s b → ¬ vectors b))) :=
  ⟨above, lk0, 4, 0, launch0, ready (by decide) (by decide), ⟨by decide, by decide⟩, by unfold noHelpers; decide, readies (by decide), by decide, rfl, rfl, rfl, by decide, fun u hu v hv _ => (List.mem_singleton.1 hu).trans (List.mem_singleton.1 hv).symm, .inr (.inl (by decide))⟩

theorem witness_TrapsEnterTheirHandler_4 :
    ∃ (s : State) (lk : Link) (a : Reg) (f : FrontEnd) (l : Nat) (x : Launch), FrontReady s (.trap lk a) f ∧ feSrcOk a = true ∧ s.here.launch = some l ∧ s.launch l = some x ∧ x.tearing = false ∧ x.vf = myVf s :=
  ⟨front, lk0, 63, front0, 0, launch0, frontReady (by decide), by decide, rfl, rfl, rfl, by decide⟩

theorem witness_TrapsEnterTheirHandler_5 :
    ∃ (s : State) (lk : Link) (a : Reg), WarpReady s (.trap lk a) ∧ Listed s ∧ s.active = [] :=
  ⟨oneExt { plainExt with g := 1 }, lk0, 4, ready (by decide) (by decide), ⟨by decide, by decide⟩, by decide⟩

theorem witness_ReturnsLeaveTheHandler_1 :
    ∃ (i : Instr) (s : State) (lk : Link) (d a b : Reg) (next : Bool), i = (if next then .tretNext lk d a b else .tretRetry lk d a b) ∧ WarpReady s i ∧ Listed s ∧ noHelpers s ∧ atLevelOne s ∧ s.reads (if s.ext.c3 = 0#7 then [a] else [a, s.ext.c3]) ∧ (∀ u ∈ s.active, ∀ k < resultsAsked s, b.toNat + k < 128 ∧ s.here.srcOk u (nth b k) = true) ∧ dstNamed d = true ∧ (d = 108#7 → b = 0#7) ∧ (d ≠ 108#7 → ∀ u ∈ s.active, s.here.blockOk u d (resultsAsked s) = true) ∧ MayReturn s a ∧ (∀ u ∈ s.active, atRest s u) ∧ RowsCounted s.here ∧ rowsToSpare s.here s.active :=
  by
  refine ⟨.tretNext lk0 4 5 6, trappedBy 1, lk0, 4, 5, 6, true, rfl, ready (by decide) (by decide), ⟨by decide, by decide⟩, by unfold noHelpers; decide, by unfold atLevelOne; decide, readies (by decide), ?_, by decide, fun h => absurd h (by decide), fun _ => by decide, ⟨fun u hu => ?_, fun u hu v hv hne => absurd ((List.mem_singleton.1 hu).trans (List.mem_singleton.1 hv).symm) hne⟩, fun u _ => by unfold atRest; revert u; decide, rowsCounted (by decide) (by decide) (by decide) (by decide) (by decide) (by decide), spareRows (by decide)⟩
  · decide
  · obtain rfl : u = 0 := List.mem_singleton.1 hu
    exact ⟨by decide, by decide, by decide, by unfold handleGood; decide⟩

theorem witness_ReturnsLeaveTheHandler_2 :
    ∃ (i : Instr) (s : State) (lk : Link) (d a b : Reg) (next : Bool), i = (if next then .tretNext lk d a b else .tretRetry lk d a b) ∧ WarpReady s i ∧ Listed s ∧ noHelpers s ∧ atLevelOne s ∧ s.reads (if s.ext.c3 = 0#7 then [a] else [a, s.ext.c3]) ∧ (∀ u ∈ s.active, ∀ k < resultsAsked s, b.toNat + k < 128 ∧ s.here.srcOk u (nth b k) = true) ∧ dstNamed d = true ∧ (d = 108#7 → b = 0#7) ∧ (d ≠ 108#7 → ∀ u ∈ s.active, s.here.blockOk u d (resultsAsked s) = true) ∧ MayReturn s a ∧ (∀ u ∈ s.active, atRest s u) ∧ RowsCounted s.here ∧ rowsToSpare s.here s.active :=
  by
  refine ⟨.tretRetry lk0 108 5 0, trappedBy 0, lk0, 108, 5, 0, false, rfl, ready (by decide) (by decide), ⟨by decide, by decide⟩, by unfold noHelpers; decide, by unfold atLevelOne; decide, readies (by decide), ?_, by decide, fun _ => rfl, fun h => absurd rfl h, ⟨fun u hu => ?_, fun u hu v hv hne => absurd ((List.mem_singleton.1 hu).trans (List.mem_singleton.1 hv).symm) hne⟩, fun u _ => by unfold atRest; revert u; decide, rowsCounted (by decide) (by decide) (by decide) (by decide) (by decide) (by decide), spareRows (by decide)⟩
  · decide
  · obtain rfl : u = 0 := List.mem_singleton.1 hu
    exact ⟨by decide, by decide, by decide, by unfold handleGood; decide⟩

theorem witness_ReturnsLeaveTheHandler_3 :
    ∃ (i : Instr) (s : State) (lk : Link) (d a b : Reg) (next : Bool), i = (if next then .tretNext lk d a b else .tretRetry lk d a b) ∧ WarpReady s i ∧ Listed s ∧ noHelpers s ∧ atLevelOne s ∧ s.reads (if s.ext.c3 = 0#7 then [a] else [a, s.ext.c3]) ∧ (∀ u ∈ s.active, ∀ k < resultsAsked s, b.toNat + k < 128 ∧ s.here.srcOk u (nth b k) = true) ∧ dstNamed d = true ∧ (d = 108#7 → b = 0#7) ∧ (d ≠ 108#7 → ∀ u ∈ s.active, s.here.blockOk u d (resultsAsked s) = true) ∧ MayReturn s a ∧ (∀ u ∈ s.active, ¬ atRest s u) :=
  by
  refine ⟨.tretNext lk0 4 5 6, restless, lk0, 4, 5, 6, true, rfl, ready (by decide) (by decide), ⟨by decide, by decide⟩, by unfold noHelpers; decide, by unfold atLevelOne; decide, readies (by decide), ?_, by decide, fun h => absurd h (by decide), fun _ => by decide, ⟨fun u hu => ?_, fun u hu v hv hne => absurd ((List.mem_singleton.1 hu).trans (List.mem_singleton.1 hv).symm) hne⟩, fun u hu => ?_⟩
  · decide
  · obtain rfl : u = 0 := List.mem_singleton.1 hu
    exact ⟨by decide, by decide, by decide, by unfold handleGood; decide⟩
  · obtain rfl : u = 0 := List.mem_singleton.1 hu
    unfold atRest; decide

theorem witness_ReturnsLeaveTheHandler_4 :
    ∃ (s : State) (lk : Link) (d a b : Reg), WarpReady s (.tretEnd lk d a b) ∧ Listed s ∧ noHelpers s ∧ atLevelOne s ∧ s.reads (if s.ext.c3 = 0#7 then [a] else [a, s.ext.c3]) ∧ (∀ u ∈ s.active, ∀ k < resultsAsked s, b.toNat + k < 128 ∧ s.here.srcOk u (nth b k) = true) ∧ dstNamed d = true ∧ (d = 108#7 → b = 0#7) ∧ (d ≠ 108#7 → ∀ u ∈ s.active, s.here.blockOk u d (resultsAsked s) = true) ∧ MayReturn s a ∧ (∀ u ∈ s.active, atRest s u) ∧ RowsCounted s.here ∧ (AMap.keys s.here.groups).Nodup :=
  by
  refine ⟨trappedBy 2, lk0, 4, 5, 6, ready (by decide) (by decide), ⟨by decide, by decide⟩, by unfold noHelpers; decide, by unfold atLevelOne; decide, readies (by decide), ?_, by decide, fun h => absurd h (by decide), fun _ => by decide, ⟨fun u hu => ?_, fun u hu v hv hne => absurd ((List.mem_singleton.1 hu).trans (List.mem_singleton.1 hv).symm) hne⟩, fun u _ => by unfold atRest; revert u; decide, rowsCounted (by decide) (by decide) (by decide) (by decide) (by decide) (by decide), by decide⟩
  · decide
  · obtain rfl : u = 0 := List.mem_singleton.1 hu
    exact ⟨by decide, by decide, by decide, by unfold handleGood; decide⟩

theorem witness_ReturnsLeaveTheHandler_5 :
    ∃ (i : Instr) (s : State) (lk : Link) (d a b : Reg), (i = .tretRetry lk d a b ∨ i = .tretNext lk d a b ∨ i = .tretEnd lk d a b) ∧ WarpReady s i :=
  ⟨.tretEnd lk0 4 5 6, oneExt { plainExt with sel := 2 }, lk0, 4, 5, 6, .inr (.inr rfl), ready (by decide) (by decide)⟩

theorem witness_ReturnsLeaveTheHandler_6 :
    ∃ (i : Instr) (s : State) (lk : Link) (f : FrontEnd) (d a b : Reg), (i = .tretRetry lk d a b ∨ i = .tretNext lk d a b ∨ i = .tretEnd lk d a b) ∧ FrontReady s i f :=
  ⟨.tretNext lk0 4 5 6, front, lk0, front0, 4, 5, 6, .inr (.inl rfl), frontReady (by decide)⟩

theorem witness_DeadlinesAndCountersAreRead_1 :
    ∃ (s : State) (lk : Link) (d : Reg), WarpReady s (.wdog lk d) ∧ s.writes d 4 :=
  ⟨one, lk0, 4, ready (by decide) (by decide), writes_one (u := 0) (by decide)⟩

theorem witness_DeadlinesAndCountersAreRead_2 :
    ∃ (s : State) (lk : Link) (d : Reg) (f : FrontEnd), FrontReady s (.wdog lk d) f ∧ feDstOk d = true ∧ f.noLater d (f.last + 4) :=
  ⟨front, lk0, 4, front0, frontReady (by decide), by decide, front_noLater _ _⟩

theorem witness_DeadlinesAndCountersAreRead_3 :
    ∃ (s : State) (lk : Link) (d a : Reg), WarpReady s (.wdogSet lk d a) ∧ s.writes d 4 ∧ s.reads [a] :=
  ⟨one, lk0, 4, 5, ready (by decide) (by decide), writes_one (u := 0) (by decide), readies (by decide)⟩

theorem witness_DeadlinesAndCountersAreRead_4 :
    ∃ (s : State) (lk : Link) (d a : Reg), WarpReady s (.perf lk d a) ∧ WritesBlock s d 2 4 ∧ s.reads [a] ∧ s.active ≠ [] :=
  ⟨one, lk0, 4, 8, ready (by decide) (by decide), writesBlock_one (u := 0) (by decide), readies (by decide), by decide⟩

theorem witness_DeadlinesAndCountersAreRead_5 :
    ∃ (s : State) (lk : Link) (d a : Reg) (f : FrontEnd), FrontReady s (.perf lk d a) f ∧ feDstOk d = true ∧ feSrcOk a = true ∧ f.noLater d (f.last + 84) ∧ (f.read s.cur.draw a).toNat < 8 :=
  ⟨front, lk0, 4, 5, front0, frontReady (by decide), by decide, by decide, front_noLater _ _, by decide⟩

theorem witness_ContextsAndCheckpointsAreSteered_1 :
    ∃ (s : State) (lk : Link) (d a : Reg), WarpReady s (.haltctx lk d a) ∧ s.writes d 4 ∧ noHelpers s ∧ s.reads [a] ∧ s.active ≠ [] :=
  ⟨above, lk0, 4, 5, ready (by decide) (by decide), writes_one (u := 0) (by decide), by unfold noHelpers; decide, readies (by decide), by decide⟩

theorem witness_ContextsAndCheckpointsAreSteered_2 :
    ∃ (s : State) (lk : Link) (d : Reg) (p : Nat) (x : Part), WarpReady s (.ckptQuery lk d) ∧ Listed s ∧ s.writes d 4 ∧ noHelpers s ∧ ofSystem s ∧ s.active ≠ [] ∧ feUid ∉ s.active ∧ s.partOfVf (myVf s) = some p ∧ AMap.look s.parts p = some x :=
  ⟨above, lk0, 4, 0, part0, ready (by decide) (by decide), ⟨by decide, by decide⟩, writes_one (u := 0) (by decide), by unfold noHelpers; decide, by unfold ofSystem atLevelOne; decide, by decide, by decide, by decide, rfl⟩

theorem witness_ContextsAndCheckpointsAreSteered_3 :
    ∃ (s : State) (lk : Link) (d : Reg) (p : Nat) (x : Part), WarpReady s (.ckptAbort lk d) ∧ Listed s ∧ s.writes d 4 ∧ noHelpers s ∧ ofSystem s ∧ s.active ≠ [] ∧ feUid ∉ s.active ∧ s.partOfVf (myVf s) = some p ∧ AMap.look s.parts p = some x ∧ x.sysvf = myVf s :=
  ⟨above, lk0, 4, 0, part0, ready (by decide) (by decide), ⟨by decide, by decide⟩, writes_one (u := 0) (by decide), by unfold noHelpers; decide, by unfold ofSystem atLevelOne; decide, by decide, by decide, by decide, rfl, by decide⟩

theorem witness_ContextsAndCheckpointsAreSteered_4 :
    ∃ (s : State) (lk : Link) (d : Reg) (p : Nat) (x : Part), WarpReady s (.ckptCut lk d) ∧ Listed s ∧ s.writes d 4 ∧ noHelpers s ∧ ofSystem s ∧ s.active ≠ [] ∧ feUid ∉ s.active ∧ s.partOfVf (myVf s) = some p ∧ AMap.look s.parts p = some x ∧ x.sysvf = myVf s :=
  ⟨above, lk0, 4, 0, part0, ready (by decide) (by decide), ⟨by decide, by decide⟩, writes_one (u := 0) (by decide), by unfold noHelpers; decide, by unfold ofSystem atLevelOne; decide, by decide, by decide, by decide, rfl, by decide⟩

theorem witness_ContextsAndCheckpointsAreSteered_5 :
    ∃ (s : State) (lk : Link) (d : Reg) (p : Nat) (x : Part), WarpReady s (.ckptRestore lk d) ∧ Listed s ∧ s.writes d 4 ∧ noHelpers s ∧ ofSystem s ∧ s.active ≠ [] ∧ feUid ∉ s.active ∧ s.partOfVf (myVf s) = some p ∧ AMap.look s.parts p = some x ∧ x.sysvf = myVf s :=
  ⟨above, lk0, 4, 0, part0, ready (by decide) (by decide), ⟨by decide, by decide⟩, writes_one (u := 0) (by decide), by unfold noHelpers; decide, by unfold ofSystem atLevelOne; decide, by decide, by decide, by decide, rfl, by decide⟩

theorem witness_ContextsAndCheckpointsAreSteered_6 :
    ∃ (s : State) (k u done p : Nat) (d : Reg) (mid : Bool) (x : Part), u ≠ feUid ∧ AMap.has (s.core k).threads u = true ∧
    (AMap.keys (s.core k).threads).Nodup ∧ feUid ∉ AMap.keys (s.core k).threads ∧ ((s.core k).th u).hold = .later done (.ckpt d mid) ∧
    done ≤ s.now ∧ s.tearing k = false ∧ (∀ f, (s.core k).fe = some f → ∀ m job, f.hold ≠ .later m job) ∧
    (∀ w ≠ u, ∀ m job, ((s.core k).th w).hold ≠ .later m job) ∧ s.partOfVf (s.vfOf k) = some p ∧ AMap.look s.parts p = some x ∧
    let run (w : Nat) : Prop := AMap.has (s.core k).threads w = true ∧ (w = u ∨ ((s.core k).th w).hold = .follow u)
    ∀ w, run w → (s.core k).noLater [w] d 4 :=
  by
  refine ⟨deferred (.ckpt 4 false), 0, 0, 0, 0, 4, false, part0, by decide, by decide, by decide, by decide, rfl, by decide, by decide, fun f h => (nomatch h), fun w hw => deferred_other _ w hw, by decide, rfl, fun w hw => ?_⟩
  show (deferred (.ckpt 4 false)).here.noLater [w] 4 4
  intro v hv e he
  obtain rfl : v = w := List.mem_singleton.1 hv
  have : ((deferred (.ckpt 4 false)).core 0).th v = { thread0 with hold := .later 0 (.ckpt 4 false) } ∨ ((deferred (.ckpt 4 false)).core 0).th v = Thread.blank := by
    by_cases h : v = 0
    · exact .inl (by subst h; rfl)
    · exact .inr (deferred_blank _ v h)
  change e ∈ (((deferred (.ckpt 4 false)).core 0).th v).early at he
  rcases this with h | h <;> rw [h] at he <;> exact nomatch he

theorem witness_ContextsAndCheckpointsAreSteered_7 :
    ∃ (i : Instr) (s : State) (lk : Link) (d : Reg), (i = .ckptCut lk d ∨ i = .ckptQuery lk d ∨ i = .ckptAbort lk d ∨ i = .ckptRestore lk d) ∧ WarpReady s i ∧ ¬ ofSystem s :=
  ⟨.ckptCut lk0 4, one, lk0, 4, .inl rfl, ready (by decide) (by decide), by unfold ofSystem atLevelOne; decide⟩

theorem witness_HelpersEnd :
    ∃ (s : State) (lk : Link) (a : Reg) (n : BitVec 4), WarpReady s (.hend lk a n) ∧ Listed s ∧ InTeams s n.toNat ∧ s.reads [a] ∧ RowsCounted s.here ∧ parkedOwn s.here :=
  by
  refine ⟨helping, lk0, 4, 3, ready (by decide) (by decide), ⟨by decide, by decide⟩, ⟨fun u hu => ?_, fun u hu v hv _ _ _ _ _ _ => (List.mem_singleton.1 hu).trans (List.mem_singleton.1 hv).symm, fun u hu => ?_⟩, readies (by decide), helpersCounted, parkedOwn_none (by decide)⟩
  · obtain rfl : u = 64 := List.mem_singleton.1 hu
    exact ⟨_, _, rfl, by decide, rfl, .inr rfl, by decide, by decide, by decide⟩
  · obtain rfl : u = 64 := List.mem_singleton.1 hu
    exact ⟨by decide, by decide⟩

end

end Sys2Proof.Tests
end

