-- ==== Sys2Proof/Tests/WitnessEvents.lean ====
section
/-! SUPPORT. Witnesses of the hypotheses of the statements about requests, lines, waiting threads, pool lanes and steps. -/

namespace Sys2Proof.Tests

open Sys2Proof Sys2Proof.Machine Sys2Proof.Claims

section

set_option Elab.async false
set_option linter.unusedVariables false


/-- A load, store or atomic of 4 bytes at VA 0x1000, which stands at PA 0x201000; its result goes to v4 of thread 0. -/
def lane0 : LaneReq := ⟨0, 0, 0#32, 1024, 0x1000, [1#8, 2#8, 3#8, 4#8], [], 0, none, false⟩
def req (k : ReqKind) (st : Stage) : Req :=
  ⟨7, k, st, 7, 0, ⟨0, 0, 0, 1, 0⟩, 0x1000, [0x201000], 0, 4, 2, 0#128, 0#32, 1#64, 1, [lane0], [], 0, false⟩
def asking (r : Req) : State :=
  paged (oneCore (fun c => { c with reqs := [r], pend := [(0, ⟨0, 4, [[(0, 4)]], none, [.thread 0], 0⟩)] }))
def leaf0 : Leaf := ⟨0x14000, 0x200000, 0x200000, true, 0⟩
def tlb0 : TlbEntry := ⟨0, 0, 0x200000, 0x200000, true, 0⟩
def cached : State := oneCore (fun c => { c with reqs := [req (.load 4) .walk], tlb := [tlb0] })
/-- The same without pages: with these copy requests and entries of the cluster's table. -/
def unmapped_ (q : List CopyReq) (x : AMap XEntry) : State :=
  { oneCore (fun c => { c with reqs := [req (.load 4) .walk] }) with
    clusters := [(0, { Cluster.reset with handler := some (0, 0), xtab := x, copies := q })] }
def entered : State := unmapped_ [] [(5, ⟨1#8, 0, 0, false, false⟩)]
def full : AMap XEntry := (List.range 256).map (fun n => (n, ⟨1#8, 1, n, false, false⟩))
theorem fullNone : pageEntry (unmapped_ [] full) 0 (req (.load 4) .walk) = none := by
  show full.find? _ = none
  simp [full, List.find?_eq_none, req]
theorem look_range {α : Type} (f : Nat → Nat × α) (hf : ∀ n, (f n).1 = n) (l : List Nat) (n : Nat) (h : n ∈ l) :
    AMap.has (l.map f) n = true := by
  induction l with
  | nil => exact absurd h (by simp)
  | cons a t ih =>
    simp only [List.map_cons, AMap.has, AMap.look]
    rw [show f a = (a, (f a).2) from Prod.ext (hf a) rfl]
    simp only
    split
    · rfl
    · next hne => exact ih (by simpa [Ne.symm hne] using List.mem_cons.1 h)
theorem fullHas : ∀ e < 256, AMap.has ((unmapped_ [] full).cluster (clusterOf 0)).xtab e = true :=
  fun e he => look_range _ (fun _ => rfl) _ e (List.mem_range.2 he)
theorem noneFaulted {c : Core} {r : Req} (h : c.reqs.all (fun x => match x.stage with | .faulted _ => false | _ => true) = true) : logHasRoom c r := by
  refine .inr fun ws _ hw => ?_
  cases ws with
  | nil => decide
  | cons a t =>
    obtain ⟨x, hx, _, e, he⟩ := hw a List.mem_cons_self
    have := List.all_eq_true.1 h x hx
    rw [he] at this
    exact nomatch this
/-- A line of one request and no line in Brocade. -/
theorem plainOf (r : Req) (q : AMap (BitVec 16)) (h : (decide (r.space = 0) && decide (r.pas = [0x201000]) && decide (r.key.t = 0) && r.lanes.all (fun l =>
    decide (l.addr % 64 + r.width ≤ 64) && decide (l.data.length = r.width) && decide (l.data2 = []))) = true) : PlainLine { asking r with poison := q } r 0x201000 := by
  simp only [Bool.and_eq_true, decide_eq_true_eq, List.all_eq_true] at h
  exact ⟨h.1.1.1, ⟨h.1.1.2, by decide⟩, .inl h.1.2, fun l hl => (nomatch hl), bare rfl, fun l hl => (h.2 l hl).1.1,
    fun l hl _ => ⟨(h.2 l hl).1.2, .inr (.inr (h.2 l hl).2)⟩⟩
theorem alone {c : Core} {r : Req} (h : c.reqs.all (fun e => !decide (e.id < r.id)) = true) : inTurn c r := by
  intro e he hlt
  have := List.all_eq_true.1 h e he
  simp [hlt] at this
/-- The checks of `Returns` for one pending result with one place. -/
theorem returned {c : Core} {n : Nat} (h : (match AMap.look c.pend n with
    | some p => decide (p.uid ≠ feUid) && decide (Holder.frontEnd ∉ p.holders) && decide (p.dests.length ≤ 1) &&
        p.dests.all (fun ps => decide ps.Nodup && ps.all (fun q => decide (q.2 < (c.row q.1).words.length) && (c.row q.1).fly.isEmpty))
    | none => false) = true) : Returns c [n] := by
  cases hp : AMap.look c.pend n with
  | none => rw [hp] at h; exact nomatch h
  | some p =>
    rw [hp] at h
    simp only [Bool.and_eq_true, decide_eq_true_eq, List.all_eq_true, List.isEmpty_iff] at h
    obtain ⟨⟨⟨h1, h2⟩, h3⟩, h4⟩ := h
    refine ⟨by simp, ?_, ?_, ?_, ?_⟩ <;> simp only [List.mem_singleton]
    · rintro m rfl; exact ⟨p, hp, h1, h2⟩
    · rintro m rfl q hq ps hps
      obtain rfl := Option.some.inj (hp.symm.trans hq)
      exact ⟨(h4 ps hps).1, fun q hq => ((h4 ps hps).2 q hq).1⟩
    · rintro m rfl k rfl q r hq hr i j x hx hy
      obtain rfl := Option.some.inj (hp.symm.trans hq)
      obtain rfl := Option.some.inj (hp.symm.trans hr)
      have low (i : Nat) (hx : x ∈ p.dests.getD i []) : i = 0 := by
        cases i with
        | zero => rfl
        | succ i => rw [List.getD_eq_getElem?_getD, List.getElem?_eq_none (by omega)] at hx; exact absurd hx (by simp)
      exact ⟨rfl, (low i hx).trans (low j hy).symm⟩
    · rintro m rfl q hq ps hps x hx f hf
      obtain rfl := Option.some.inj (hp.symm.trans hq)
      rw [((h4 ps hps).2 x hx).2] at hf; exact absurd hf (by simp)
def poisoned : State := { asking (req (.load 4) .ready) with poison := [(0x20100, 0#16)] }

/-- A page on the move from 0x200000 to 0x210000, whose lines below `p` are copied. -/
def mig0 (p : Nat) : Migration := ⟨0, 0, 0x200000, 0x210000, 0, p, 0x14000⟩
def migrating (p : Nat) : State := { paged one with dies := [(0, { Die.reset with mig := [mig0 p] })] }
/-- A line of tensor 3's generation 1, when the entry is at generation 0. -/
def staleLine : BLine := ⟨⟨0, 3, 0, 0, 0⟩, 1, none, List.replicate 64 0#8, 0#4, 0#4, 0#64, []⟩
def stale : State := { one with brocade := [staleLine] }
theorem staleCoherent : Coherent stale := by
  have h : ∀ l ∈ stale.brocade, l = staleLine := fun l hl => List.mem_singleton.1 hl
  refine ⟨List.pairwise_singleton _ _, List.pairwise_singleton _ _, fun l hl => ?_, fun l hl v va pa _ hk => ?_, fun l hl pa hp => ?_⟩ <;>
    obtain rfl := h l hl
  · exact ⟨by decide, fun pa hp => nomatch hp⟩
  · exact absurd (congrArg Key.t hk) (show ¬ (3 = 0) by decide)
  · exact nomatch hp
/-- A thread that waits with a tensor word. -/
def holding_ (h : Hold) : State := oneCore (fun c => { c with threads := [(0, { thread0 with hold := h })] })
def slicing (h : Hold) : State :=
  { holding_ h with vfs := [(0, { VF.reset with tensors := [(9, { Tensor.reset with state := 1, rows := 1, stride := 64, tr := 1, tc := 64 })] })] }
/-- A chase from page 0 to page 1 of pool 9, whose header is poisoned or sound. -/
def chase0 (left : Nat) : Chase := ⟨0, 9, ⟨0#32, 1#32, 32#32, true, []⟩, 0, left⟩
def chased (bad : Bool) : Pool := { pool9 with
  headers := [(0, ⟨0, 0, false, 16, 1, 0#16, 0#16, [], 0#32, 0#32, 0xFFFFFFFF#32, 1#32, false⟩),
    (1, ⟨0, 0, bad, 16, 1, 0#16, 0#16, [], 16#32, 0#32, 0#32, 0xFFFFFFFF#32, false⟩)] }
def chasing (left : Nat) (bad : Bool) : State :=
  { one with
    dies := [(0, { Die.reset with chases := [chase0 left] })]
    vfs := [(0, { VF.reset with tensors := [(9, { Tensor.reset with state := 1, rows := 4, format := 2 })], pools := [(9, chased bad)] })] }
theorem noRequests {s : State} {k lead n : Nat} (h : s.cores.all (fun p => p.2.reqs.isEmpty) = true) : mayStart s k lead n .drop := by
  intro p hp r hr
  rw [List.isEmpty_iff.1 (List.all_eq_true.1 h p hp)] at hr
  exact nomatch hr
theorem noPages {s : State} {v va : Nat} {b : Bool} (h : tbit (s.vf v).ptroot.toNat 0 = false) : s.walk v va b = .fault false := by
  simp [State.walk, State.leafOf, h]
theorem owned {c : Core} {u : Nat} {r : Reg} (h : ownCheck c u r = true) : placeOwned c u r := by
  intro q hq
  simp only [ownCheck, hq, Bool.and_eq_true, decide_eq_true_eq] at h
  exact ⟨h.2.1.1, h.2.2⟩
theorem apart {c : Core} {u : Nat} {r : Reg} {n : Nat} (h : (List.range n).all (fun i => (List.range n).all (fun j =>
    decide (i = j) || decide (c.cell u (nth r i) = none) || decide (c.cell u (nth r i) ≠ c.cell u (nth r j)))) = true) : blockApart c u r n := by
  intro i hi j hj q h1 h2
  have := List.all_eq_true.1 (List.all_eq_true.1 h i (List.mem_range.2 hi)) j (List.mem_range.2 hj)
  simpa [h1, h2] using this
/-- A message of number 0 waits at the head of the die's queue. -/
def msg0 : XqMsg := ⟨0, 0#16, List.replicate 16 5#32⟩
theorem quiet_ {c : Core} {u n : Nat} {r : Reg} (h : (c.th u).early.isEmpty = true) : c.noLater [u] r n := by
  intro v hv e he
  obtain rfl := List.mem_singleton.1 hv
  rw [List.isEmpty_iff.1 h] at he
  exact nomatch he
def receiving (ctrl : Word) (up : Bool) : State :=
  { oneCore (fun c => { c with threads := [(0, { thread0 with hold := .xqrecv 4 ctrl none ⟨0#32, 0#32, 1⟩ none, pl := up })] }) with
    dies := [(0, { Die.reset with xq := [(0, [msg0])] })] }
theorem receiver {ctrl : Word} {up : Bool} (u : Nat) (h : waitWith ((receiving ctrl up).core 0) 0 u) : u = 0 := by
  obtain rfl | ⟨h, _⟩ := h
  · rfl
  · cases u with
    | zero => rfl
    | succ n => simp [receiving, oneCore, State.core, AMap.lookD, AMap.look, AMap.has] at h
/-- One lane at pool 9's agent, for thread 0 of the core. -/
def laneOf_ (op : PoolOp) : PoolLane := ⟨0, 0, 0, 0, op, 4, none, ⟨0#32, 0#32, 1⟩, none, false⟩
def lanePool (op : PoolOp) (hs : AMap PageHeader) (rs : AMap SeqRec) : Pool := { pool9 with headers := hs, seqs := rs, queue := [laneOf_ op] }
def laning (op : PoolOp) (hs : AMap PageHeader) (rs : AMap SeqRec) : State :=
  { oneCore (fun c => { c with poolWords := [(0, ([0], none))], threads := [(0, { thread0 with hold := .pool 0 })] }) with
    clusters := [(0, { Cluster.reset with handler := some (0, 0) })]
    vfs := [(0, { VF.reset with
      tensors := [(9, { Tensor.reset with state := 1, rows := 4, format := 2 })], pools := [(9, lanePool op hs rs)] })] }
/-- Page 2, held by two sequences. -/
def shared2 : PageHeader := ⟨0, 0, false, 1, 2, 0#16, 0#16, List.replicate 16 0, 0#32, 0#32, 0xFFFFFFFF#32, 0xFFFFFFFF#32, false⟩
theorem nextLane (op : PoolOp) (hs : AMap PageHeader) (rs : AMap SeqRec) (h : hs.all (fun p => !p.2.poison && !p.2.lost) = true)
    (k : (laneOf_ op ∉ ([] : List PoolLane)) ∧ ((laning op hs rs).vf ((laning op hs rs).vfOf 0)).rung ≠ 2 ∧
      AMap.look ((laning op hs rs).core 0).poolWords 0 = some ([0], none) ∧ AMap.has ((laning op hs rs).core 0).threads 0 = true ∧
      (∀ j < 3, ownCheck ((laning op hs rs).core 0) 0 (nth 4 j) = true) ∧ ((List.range 3).all (fun i => (List.range 3).all (fun j =>
        decide (i = j) || decide (((laning op hs rs).core 0).cell 0 (nth 4 i) = none) ||
          decide (((laning op hs rs).core 0).cell 0 (nth 4 i) ≠ ((laning op hs rs).core 0).cell 0 (nth 4 j)))) = true) ∧
      (((laning op hs rs).core 0).th 0).early = [] ∧ tbit ((laning op hs rs).vf 0).ptroot.toNat 0 = false) :
    NextLane (laning op hs rs) 0 9 (lanePool op hs rs) (laneOf_ op) [] [0] := by
  obtain ⟨k1, k2, k3, k4, k5, k6, k7, k8⟩ := k
  refine ⟨rfl, ⟨rfl, k1, rfl, rfl⟩, k2, ⟨k3, List.mem_singleton_self _, by simp⟩, k4, fun j hj => owned (k5 j hj), apart k6,
    fun e he => absurd (k7 ▸ he) (by simp), bare rfl, ⟨rfl, rfl, rfl, rfl, Nat.one_pos⟩, fun g => ⟨?_, fun pa hp => ?_⟩, ?_⟩
  · have h1 : (laning op hs rs).header1 0 9 g = (lanePool op hs rs).header 0 g := rfl
    rw [h1]
    simp only [Pool.header, lanePool, AMap.lookD]
    cases hl : AMap.look hs g with
    | some x =>
      have := List.all_eq_true.1 h _ (look_mem _ _ _ hl)
      simpa using this
    | none => exact ⟨rfl, rfl⟩
  · rw [noPages k8] at hp; exact nomatch hp
  · intro p hp; obtain rfl := List.mem_singleton.1 hp; rfl
/-- A page held once by sequence 0, alone in its chain: two tokens of tag 5 from position 7 on. -/
def page1 : PageHeader := ⟨0, 0, false, 2, 1, 0#16, 0#16, 5 :: 5 :: List.replicate 14 0, 7#32, 0#32, 0xFFFFFFFF#32, 0xFFFFFFFF#32, false⟩
def chain1 : SeqRec := ⟨0#32, 0#32, 9#32, true, []⟩
theorem chainOne (op : PoolOp) : (viewOf (laning op [(0, page1)] [(0, chain1)]) 0 9).chainIs 0 [0#32] := ⟨⟨rfl, by decide, rfl⟩, by decide⟩
theorem readOne (op : PoolOp) : chainRead (laning op [(0, page1)] [(0, chain1)]) 0 9 (lanePool op [(0, page1)] [(0, chain1)]) 0 [0#32] :=
  ⟨chainOne op, fun g hg => by obtain rfl := List.mem_singleton.1 hg; exact ⟨rfl, by show 0 < 4; decide, by show 2 ≤ 16; decide⟩⟩
theorem unlinkOne (op : PoolOp) : ∃ y, Unlinked 0 (lanePool op [(0, page1)] [(0, chain1)]) (viewOf (laning op [(0, page1)] [(0, chain1)]) 0 9) 0 0#32 y true :=
  ⟨_, [0#32], none, _, chainOne op, .inl ⟨rfl, [], rfl⟩, .head _, Nat.le_refl 1, rfl, rfl⟩

/-- A launch whose first packet holds these words. -/
def coded (ws : List Word) : State := { one with launches := [(0, { launch0 with code := ws })] }

theorem witness_RequestsAreServed_1 :
    ∃ (s : State) (k n : Nat) (r : Req) (e : TlbEntry), requestOf s k n = some r ∧ walking s r ∧ (s.core k).tlb.find? (fun e => e.vf == r.key.vf && decide (e.va ≤ r.va) && decide (r.va < e.va + e.size) && (e.w || !(asksWrite r))) = some e :=
  ⟨cached, 0, 7, req (.load 4) .walk, tlb0, rfl, ⟨.inl rfl, rfl, .inl rfl⟩, by decide⟩

theorem witness_RequestsAreServed_2 :
    ∃ (s : State) (k n : Nat) (r : Req) (l : Leaf), requestOf s k n = some r ∧ walking s r ∧ cacheMisses s k r ∧ s.leafOf r.key.vf r.va = some l ∧ (l.w = true ∨ asksWrite r = false) :=
  ⟨asking (req (.load 4) .walk), 0, 7, req (.load 4) .walk, leaf0, rfl, ⟨.inl rfl, rfl, .inl rfl⟩, fun e he => (nomatch he), by decide, .inl rfl⟩

theorem witness_RequestsAreServed_3 :
    ∃ (s : State) (k n : Nat) (r : Req) (p : Bool) (x : Nat × XEntry), requestOf s k n = some r ∧ walking s r ∧ cacheMisses s k r ∧ walkFaults s r p ∧ logHasRoom (s.core k) r ∧ pageEntry s k r = some x :=
  ⟨entered, 0, 7, req (.load 4) .walk, false, (5, ⟨1#8, 0, 0, false, false⟩), rfl, ⟨.inl rfl, rfl, .inl rfl⟩, fun e he => (nomatch he), .inl ⟨by decide, rfl⟩, noneFaulted (by decide), rfl⟩

theorem witness_RequestsAreServed_4 :
    ∃ (s : State) (k n : Nat) (r : Req) (p : Bool) (e : Nat), requestOf s k n = some r ∧ walking s r ∧ cacheMisses s k r ∧ walkFaults s r p ∧ logHasRoom (s.core k) r ∧ pageEntry s k r = none ∧ e < 256 ∧ AMap.has (s.cluster (clusterOf k)).xtab e = false ∧ (∀ m < e, AMap.has (s.cluster (clusterOf k)).xtab m = true) ∧ (s.cluster (clusterOf k)).handler.isSome = true ∧ s.funcBit r.key.vf 0 = false :=
  ⟨unmapped_ [] [], 0, 7, req (.load 4) .walk, false, 0, rfl, ⟨.inl rfl, rfl, .inl rfl⟩, fun e he => (nomatch he), .inl ⟨by decide, rfl⟩, noneFaulted (by decide), rfl, by decide, by decide, fun m h => absurd h (Nat.not_lt_zero m), by decide, by decide⟩

theorem witness_RequestsAreServed_5 :
    ∃ (s : State) (k n : Nat) (r : Req) (p : Bool), requestOf s k n = some r ∧ walking s r ∧ cacheMisses s k r ∧ walkFaults s r p ∧ (¬ logHasRoom (s.core k) r ∨ (pageEntry s k r = none ∧ ∀ e < 256, AMap.has (s.cluster (clusterOf k)).xtab e = true)) :=
  ⟨unmapped_ [] full, 0, 7, req (.load 4) .walk, false, rfl, ⟨.inl rfl, rfl, .inl rfl⟩, fun e he => (nomatch he), .inl ⟨by decide, rfl⟩, .inr ⟨fullNone, fullHas⟩⟩

theorem witness_RequestsAreServed_6 :
    ∃ (s : State) (k n : Nat) (r : Req) (sz : BitVec 3) (pa : Nat), requestOf s k n = some r ∧ r.kind = .load sz ∧ r.stage = .ready ∧ sz.toNat ≤ 6 ∧ r.width = widthOf sz ∧ PlainLine s r pa ∧ inTurn (s.core k) r ∧ Returns (s.core k) (laneIds r) ∧ groupsOpen (s.core k) ∧ (∀ l ∈ r.lanes, ∀ j < r.width, s.physPoison (pa + l.addr % 64 + j) = false) :=
  by
  refine ⟨asking (req (.load 4) .ready), 0, 7, req (.load 4) .ready, 4, 0x201000, rfl, rfl, rfl, by decide, rfl, plainOf (req (.load 4) .ready) _ (by decide), alone (by decide), returned (by decide), fun p hp => (nomatch hp), ?_⟩
  intro l hl j hj
  obtain rfl := List.mem_singleton.1 hl
  revert j
  decide

theorem witness_RequestsAreServed_7 :
    ∃ (s : State) (k n : Nat) (r : Req) (sz : BitVec 3) (pa : Nat), requestOf s k n = some r ∧ r.kind = .load sz ∧ r.stage = .ready ∧ PlainLine s r pa ∧ inTurn (s.core k) r ∧ Returns (s.core k) (laneIds r) ∧ groupsOpen (s.core k) ∧ r.key.t = 0 ∧ (AMap.look (s.vf r.key.vf).pools 0 = none) ∧ (s.core k).faultq.length + r.lanes.length ≤ 128 ∧ (∀ l ∈ r.lanes, s.physPoison (pa + l.addr % 64) = true ∧ ¬ sectorHeld s k r (l.addr % 64 / 16)) :=
  by
  refine ⟨poisoned, 0, 7, req (.load 4) .ready, 4, 0x201000, rfl, rfl, rfl, plainOf (req (.load 4) .ready) _ (by decide), alone (by decide), returned (by decide), fun p hp => (nomatch hp), rfl, by decide, by decide, ?_⟩
  intro l hl
  obtain rfl := List.mem_singleton.1 hl
  exact ⟨by decide, fun ⟨l, h, _⟩ => (nomatch h)⟩

theorem witness_RequestsAreServed_8 :
    ∃ (s : State) (k n : Nat) (r : Req) (sz : BitVec 3), requestOf s k n = some r ∧ r.kind = .load sz ∧ r.stage = .ready ∧ r.space ≠ 0 ∧ sz.toNat ≤ 6 ∧ r.width = widthOf sz ∧ inTurn (s.core k) r ∧ Returns (s.core k) (laneIds r) ∧ groupsOpen (s.core k) :=
  ⟨asking { req (.load 4) .ready with space := 1 }, 0, 7, { req (.load 4) .ready with space := 1 }, 4, rfl, rfl, rfl, by decide, by decide, rfl, alone (by decide), returned (by decide), fun p hp => (nomatch hp)⟩

theorem witness_RequestsAreServed_9 :
    ∃ (s : State) (k n : Nat) (r : Req) (pa : Nat), requestOf s k n = some r ∧ r.kind = .store ∧ r.stage = .ready ∧ PlainLine s r pa ∧ inTurn (s.core k) r ∧ s.frozen pa = false ∧ Returns (s.core k) (laneIds r) ∧ groupsOpen (s.core k) ∧ (∀ i < 64, s.physPoison (pa + i) = false) :=
  ⟨asking (req (.store) .ready), 0, 7, req (.store) .ready, 0x201000, rfl, rfl, rfl, plainOf (req (.store) .ready) _ (by decide), alone (by decide), by decide, returned (by decide), fun p hp => (nomatch hp), by decide⟩

theorem witness_RequestsAreServed_10 :
    ∃ (s : State) (k n : Nat) (r : Req), requestOf s k n = some r ∧ r.kind = .store ∧ r.stage = .ready ∧ r.space ≠ 0 ∧ inTurn (s.core k) r ∧ Returns (s.core k) (laneIds r) ∧ groupsOpen (s.core k) :=
  ⟨asking { req (.store) .ready with space := 1 }, 0, 7, { req (.store) .ready with space := 1 }, rfl, rfl, rfl, by decide, alone (by decide), returned (by decide), fun p hp => (nomatch hp)⟩

theorem witness_RequestsAreServed_11 :
    ∃ (s : State) (k n : Nat) (r : Req), requestOf s k n = some r ∧ r.kind = .store ∧ r.stage = .done :=
  ⟨asking (req (.store) .done), 0, 7, req (.store) .done, rfl, rfl, rfl⟩

theorem witness_RequestsAreServed_12 :
    ∃ (s : State) (k n : Nat) (r : Req) (pa : Nat) (op : AtomOp) (w ret acq : Bool), requestOf s k n = some r ∧ r.kind = .atomic op w ret acq ∧ r.stage = .ready ∧ PlainLine s r pa ∧ inTurn (s.core k) r ∧ s.frozen pa = false ∧ (∀ m ∈ r.after, ∀ x ∈ (s.core k).reqs, x.id = m → x.unregistered = false ∧ x.unread = false) ∧ groupsOpen (s.core k) ∧ (∀ i < 64, s.physPoison (pa + i) = false) ∧ (op = .cas → ∀ l ∈ r.lanes, l.data2.length = r.width) :=
  ⟨asking (req (.atomic .add false true false) .ready), 0, 7, req (.atomic .add false true false) .ready, 0x201000, .add, false, true, false, rfl, rfl, rfl, plainOf (req (.atomic .add false true false) .ready) _ (by decide), alone (by decide), by decide, fun m hm => (nomatch hm), fun p hp => (nomatch hp), by decide, fun h => (nomatch h)⟩

theorem witness_RequestsAreServed_13 :
    ∃ (s : State) (k n : Nat) (r : Req) (op : AtomOp) (w ret acq : Bool), requestOf s k n = some r ∧ r.kind = .atomic op w ret acq ∧ r.stage = .ready ∧ r.space ≠ 0 ∧ inTurn (s.core k) r ∧ (∀ m ∈ r.after, ∀ x ∈ (s.core k).reqs, x.id = m → x.unregistered = false ∧ x.unread = false) ∧ groupsOpen (s.core k) ∧ (∀ l ∈ r.lanes, l.data.length = r.width ∧ (op = .cas → l.data2.length = r.width)) :=
  ⟨asking { req (.atomic .add false true false) .ready with space := 1 }, 0, 7, { req (.atomic .add false true false) .ready with space := 1 }, .add, false, true, false, rfl, rfl, rfl, by decide, alone (by decide), fun m hm => (nomatch hm), fun p hp => (nomatch hp), by decide⟩

theorem witness_RequestsAreServed_14 :
    ∃ (s : State) (k n : Nat) (r : Req) (op : AtomOp) (w ret acq : Bool), requestOf s k n = some r ∧ r.kind = .atomic op w ret acq ∧ r.stage = .done ∧ (r.width = 4 ∨ r.width = 8) ∧ Returns (s.core k) (laneIds r) ∧ groupsOpen (s.core k) ∧ ((ret = true → ∀ l ∈ r.lanes, ∃ bs, l.result = some bs ∧ bs.length = r.width)) :=
  by
  refine ⟨asking { req (.atomic .add false true false) .done with lanes := [{ lane0 with result := some [1#8, 2#8, 3#8, 4#8] }] }, 0, 7, { req (.atomic .add false true false) .done with lanes := [{ lane0 with result := some [1#8, 2#8, 3#8, 4#8] }] }, .add, false, true, false, rfl, rfl, rfl, .inl rfl, returned (by decide), fun p hp => (nomatch hp), fun _ l hl => ?_⟩
  obtain rfl := List.mem_singleton.1 hl
  exact ⟨_, rfl, rfl⟩

theorem witness_RequestsAreServed_15 :
    ∃ (s : State) (k n : Nat) (i : Instr), requestOf s k n = none ∧ (i = .translationWalk k n ∨ i = .loadDataArrival k n ∨ i = .storeRegistration k n ∨ i = .storeGrant k n ∨ i = .atomicPerformance k n ∨ i = .atomicResultArrival k n) :=
  ⟨one, 0, 7, .storeGrant 0 7, rfl, .inr (.inr (.inr (.inl rfl)))⟩

theorem witness_LinesMove_1 :
    ∃ (s : State) (d n : Nat) (m : Migration), (s.die d).mig[n]? = some m ∧ MayMove s m ∧ m.p < 1023 :=
  ⟨migrating 1022, 0, 0, mig0 1022, rfl, ⟨by decide, by decide, by decide, fun l hl => (nomatch hl), bare rfl⟩, by decide⟩

theorem witness_LinesMove_2 :
    ∃ (s : State) (d n : Nat) (m : Migration), (s.die d).mig[n]? = some m ∧ MayMove s m ∧ m.p = 1023 ∧ (∀ l ∈ s.brocade, l.pa = some (m.leafAt / 64 * 64) → ∀ i < 8, l.poison.getLsbD (m.leafAt % 64 / 16) = false) :=
  ⟨migrating 1023, 0, 0, mig0 1023, rfl, ⟨by decide, by decide, by decide, fun l hl => (nomatch hl), bare rfl⟩, rfl, fun l hl => (nomatch hl)⟩

theorem witness_LinesMove_3 :
    ∃ (s : State) (n : Nat) (l : BLine), s.brocade[n]? = some l ∧ Coherent s ∧ l.key.t ≠ 0 ∧ (l.gen ≠ s.genAt l.key ∨ (s.tensor l.key.vf l.key.t).state ≠ 1) :=
  ⟨stale, 0, staleLine, rfl, staleCoherent, by decide, .inl (by decide)⟩

theorem witness_LinesMove_4 :
    ∃ (s : State) (n : Nat), ((∀ l, s.brocade[n]? = some l → l.key.t = 0 ∨ (l.gen = s.genAt l.key ∧ (s.tensor l.key.vf l.key.t).state = 1))) :=
  ⟨one, 0, fun l hl => (nomatch hl)⟩

theorem witness_LinesMove_5 :
    ∃ (s : State) (k lead n slice : Nat) (discard : Bool), (s.core k).holdOf lead = .slices (.inv discard) n false [] ∧ slice < s.slices ∧ mayStart s k lead n (.inv discard) ∧ Coherent s ∧ n ≠ 0 ∧ (let v := s.vfOf k
    let e := s.tensor v n
    e.state = 1 ∧ e.late = [] ∧ e.gen < 4096) :=
  ⟨slicing (.slices (.inv true) 9 false []), 0, 0, 9, 127, true, by decide, by decide, ⟨fun u hu r hr => (nomatch hr), fun l hl => (nomatch hl)⟩, bare rfl, by decide, by decide⟩

theorem witness_LinesMove_6 :
    ∃ (s : State) (k lead n slice : Nat) (job : SliceJob), (s.core k).holdOf lead = .slices job n false [] ∧ slice < s.slices ∧ mayStart s k lead n job ∧ (∀ x, job ≠ .inv x) ∧ Coherent s :=
  ⟨slicing (.slices .drop 9 false []), 0, 0, 9, 0, .drop, by decide, by decide, noRequests (by decide), fun x h => (nomatch h), bare rfl⟩

theorem witness_LinesMove_7 :
    ∃ (s : State) (k lead n slice : Nat) (discard : Bool), (s.core k).holdOf lead = .slices (.inv discard) n false [] ∧ slice < s.slices ∧ mayStart s k lead n (.inv discard) ∧ (s.tensor (s.vfOf k) n).state ≠ 1 :=
  ⟨slicing (.slices (.inv false) 8 false []), 0, 0, 8, 0, false, by decide, by decide, ⟨fun u hu r hr => (nomatch hr), fun l hl => (nomatch hl)⟩, by decide⟩

theorem witness_LinesMove_8 :
    ∃ (s : State) (k lead n slice : Nat) (job : SliceJob) (left : List Nat), (s.core k).holdOf lead = .slices job n true left ∧ slice < s.slices ∧ slice ∈ left ∧ left.Nodup ∧ left ≠ [slice] ∧ Coherent s :=
  ⟨slicing (.slices .drop 9 true [3, 5]), 0, 0, 9, 5, .drop, [3, 5], by decide, by decide, by decide, by decide, by decide, bare rfl⟩

theorem witness_LinesMove_9 :
    ∃ (s : State) (k lead n slice : Nat) (job : SliceJob), (s.core k).holdOf lead = .slices job n true [slice] ∧ slice < s.slices ∧ Coherent s ∧ n ≠ 0 ∧ ((job = .drop ∨ ∃ x, job = .inv x)) :=
  ⟨slicing (.slices .drop 9 true [5]), 0, 0, 9, 5, .drop, by decide, by decide, bare rfl, by decide, .inl rfl⟩

theorem witness_LinesMove_10 :
    ∃ (s : State) (d : Nat) (c : Chase) (cs : List Chase), (s.die d).chases = c :: cs ∧ (c.left = 0 ∨ nextIn s c = 0xFFFFFFFF#32 ∨ s.pool c.vf c.t = none) :=
  ⟨chasing 0 false, 0, chase0 0, [], rfl, .inl rfl⟩

theorem witness_LinesMove_11 :
    ∃ (s : State) (d : Nat) (c : Chase) (cs : List Chase) (p : Pool), (s.die d).chases = c :: cs ∧ c.left ≠ 0 ∧ nextIn s c ≠ 0xFFFFFFFF#32 ∧ s.pool c.vf c.t = some p ∧ (nextIn s c).toNat < p.npages ∧ Coherent s ∧ c.t ≠ 0 ∧ (s.tensor c.vf c.t).format = 2 ∧ (s.tensor c.vf c.t).vbase % 64 = 0 ∧ (let at_ (i : Nat) : Nat := (s.tensor c.vf c.t).vbase + (nextIn s c).toNat * (64 + 8192 * p.pay) + i
    (∀ i < 64 + 8192 * p.pay, ∀ pa, s.walk c.vf (at_ i / 64 * 64) false = .ok pa → s.physPoison (pa + at_ i % 64) = false) ∧ (∀ l ∈ s.brocade, l.key.vf = c.vf → l.key.t = c.t → l.key.trow = (nextIn s c).toNat → l.poison = 0#4) ∧ (s.header1 c.vf c.t (nextIn s c).toNat).poison = false ∧ (s.header1 c.vf c.t (nextIn s c).toNat).lost = false) :=
  by
  refine ⟨chasing 2 false, 0, chase0 2, [], chased false, rfl, by decide, by decide, rfl, by decide, bare rfl, by decide, by decide, by decide, ⟨fun i _ pa h => ?_, fun l hl => (nomatch hl), by decide, by decide⟩⟩
  rw [noPages (by decide)] at h
  exact nomatch h

theorem witness_LinesMove_12 :
    ∃ (s : State) (d : Nat) (c : Chase) (cs : List Chase), (s.die d).chases = c :: cs ∧ c.left ≠ 0 ∧ nextIn s c ≠ 0xFFFFFFFF#32 ∧ (s.header1 c.vf c.t (nextIn s c).toNat).poison = true :=
  ⟨chasing 2 true, 0, chase0 2, [], rfl, by decide, by decide, by decide⟩

theorem witness_WaitingThreadsGoOn_1 :
    ∃ (s : State) (k u : Nat), ((s.core k).th u).hold = .sleep 0 :=
  ⟨holding_ (.sleep 0), 0, 0, by decide⟩

theorem witness_WaitingThreadsGoOn_2 :
    ∃ (s : State) (k u : Nat) (d : Reg), ((s.core k).th u).hold = .parked 0 d ∧ placeOwned (s.core k) u d ∧ (s.core k).noLater [u] d 4 :=
  by
  refine ⟨holding_ (.parked 0 4), 0, 0, 4, by decide, owned (by decide), fun u hu e he => ?_⟩
  obtain rfl := List.mem_singleton.1 hu
  exact nomatch he

theorem witness_WaitingThreadsGoOn_3 :
    ∃ (s : State) (k u : Nat) (n : Nat) (d : Reg), (((s.core k).th u).hold = .sleep (n + 1) ∨ ((s.core k).th u).hold = .parked (n + 1) d) :=
  ⟨holding_ (.sleep 65535), 0, 0, 65534, 0, .inl (by decide)⟩

theorem witness_WaitingThreadsGoOn_4 :
    ∃ s : State, (∀ p ∈ s.cores, p.2.drops = [] ∧ (∀ f, p.2.fe = some f → ∀ n job, f.hold ≠ .later n job) ∧ ∀ q ∈ p.2.threads, (∀ e v, q.2.hold ≠ .rest e v) ∧ (∀ m d v r, q.2.hold ≠ .tret m d v r) ∧ ∀ n job, q.2.hold ≠ .later n job) :=
  by
  refine ⟨one, fun p hp => ?_⟩
  obtain rfl := List.mem_singleton.1 hp
  refine ⟨rfl, fun f h => (nomatch h), fun q hq => ?_⟩
  obtain rfl := List.mem_singleton.1 hq
  exact ⟨fun e v h => (nomatch h), fun m d v r h => (nomatch h), fun n j h => (nomatch h)⟩

theorem witness_WaitingThreadsGoOn_5 :
    ∃ (s : State) (k u l : Nat) (x : Launch), spends ((s.core k).th u) = true ∧ 1024 * ((s.core k).th u).dl < ((s.core k).th u).yc + 1 ∧ (s.core k).launch = some l ∧ s.launch l = some x ∧ x.tearing = false :=
  ⟨oneCore (fun c => { c with threads := [(0, { thread0 with hold := .sleep 1, yc := 261120 })] }), 0, 0, 0, launch0, by decide, by decide, rfl, rfl, rfl⟩

theorem witness_WaitingThreadsGoOn_6 :
    ∃ (s : State) (k u : Nat), (spends ((s.core k).th u) = false ∨ ((s.core k).th u).yc + 1 ≤ 1024 * ((s.core k).th u).dl) :=
  ⟨one, 0, 0, .inl (by decide)⟩

theorem witness_WaitingThreadsGoOn_7 :
    ∃ (s : State) (k u : Nat), (spends ((s.core k).th u) = false ∨ ((s.core k).th u).yc + 1 ≤ 1024 * ((s.core k).th u).dl) :=
  ⟨oneCore (fun c => { c with threads := [(0, { thread0 with hold := .sleep 1, yc := 261119 })] }), 0, 0, .inr (by decide)⟩

theorem witness_WaitingThreadsGoOn_8 :
    ∃ (s : State) (k b : Nat), b ∈ (s.core k).recheck ∧ (s.core k).recheck.Nodup :=
  ⟨oneCore (fun c => { c with recheck := [2] }), 0, 2, by decide, by decide⟩

theorem witness_WaitingThreadsGoOn_9 :
    ∃ (s : State) (k lead : Nat) (ctrl : Word) (ws : List Word) (back : Option Word), (s.core k).holdOf lead = .xqsend ctrl ws back ∧ Queueing s k lead ∧ (∀ u, waitWith (s.core k) lead u → ∀ r ∈ (s.core k).reqs, r.ofThread u = true → r.unregistered = false ∧ r.unread = false) ∧ (let dst := ctrl.toNat % 4
    let ch := ctrl.toNat / 4 % 2
    let q := queueOf s dst (k / 128) ch
    q.length < 64 ∧ (q.filter (fun m => m.vf == s.vfOf k)).length < 16) :=
  ⟨holding_ (.xqsend 0 [] none), 0, 0, 0, [], none, by decide, ⟨⟨by decide, by decide⟩, by decide, by decide⟩, fun u _ r hr => (nomatch hr), by decide⟩

theorem witness_WaitingThreadsGoOn_10 :
    ∃ (s : State) (k lead : Nat) (d : Reg) (ctrl : Word) (draft : Option (Word × Word)) (w : WordAt) (back : Option Word) (m : XqMsg) (pre post : List XqMsg), (s.core k).holdOf lead = .xqrecv d ctrl draft w back ∧ Queueing s k lead ∧ (let src := ctrl.toNat % 4
    let ch := ctrl.toNat / 4 % 2
    queueOf s (k / 128) src ch = pre ++ m :: post ∧ (∀ x ∈ pre, x.vf ≠ s.vfOf k) ∧ m.vf = s.vfOf k ∧ m.seqno = BitVec.ofNat 16 (ctrl.toNat / 2 ^ 16) ∧ m.words.length = 16 ∧ ((s.core k).threads.map (·.1)).Nodup ∧ (∀ u, waitWith (s.core k) lead u → (∀ j < 16, placeOwned (s.core k) u (nth d j)) ∧ blockApart (s.core k) u d 16 ∧ ∀ j < 16, (s.core k).noLater [u] (nth d j) 4) ∧ (∀ u v, waitWith (s.core k) lead u → waitWith (s.core k) lead v → u ≠ v → ∀ i j q, (s.core k).cell u (nth d i) = some q → (s.core k).cell v (nth d j) ≠ some q)) :=
  by
  refine ⟨receiving 0 false, 0, 0, 4, 0, none, ⟨0#32, 0#32, 1⟩, none, msg0, [], [], by decide, ⟨⟨by decide, by decide⟩, by decide, by decide⟩, by decide, fun x hx => (nomatch hx), by decide, by decide, by decide, by decide, fun u hu => ?_, fun u v hu hv hne => absurd ((receiver _ hu).trans (receiver _ hv).symm) hne⟩
  obtain rfl := receiver _ hu
  exact ⟨fun j hj => owned (by revert j; decide), apart (by decide), fun j _ => quiet_ (by decide)⟩

theorem witness_WaitingThreadsGoOn_11 :
    ∃ (s : State) (k lead : Nat) (d : Reg) (ctrl : Word) (draft : Option (Word × Word)) (w : WordAt) (back : Option Word) (m : XqMsg) (pre post : List XqMsg) (l : Nat) (x : Launch), (s.core k).holdOf lead = .xqrecv d ctrl draft w back ∧ Queueing s k lead ∧ queueOf s (k / 128) (ctrl.toNat % 4) (ctrl.toNat / 4 % 2) = pre ++ m :: post ∧ (∀ y ∈ pre, y.vf ≠ s.vfOf k) ∧ m.vf = s.vfOf k ∧ m.seqno ≠ BitVec.ofNat 16 (ctrl.toNat / 2 ^ 16) ∧ (s.core k).launch = some l ∧ s.launch l = some x ∧ x.tearing = false ∧ (∀ u, ¬ (AMap.has (s.core k).threads u = true ∧ ((s.core k).th u).hold = .follow lead)) ∧ ((s.core k).th lead).helper = none ∧ ((s.core k).th lead).pl = true ∧ ((s.core k).th lead).intrap = false :=
  by
  refine ⟨receiving 0x10000 true, 0, 0, 4, 0x10000, none, ⟨0#32, 0#32, 1⟩, none, msg0, [], [], 0, launch0, by decide, ⟨⟨by decide, by decide⟩, by decide, by decide⟩, by decide, fun x hx => (nomatch hx), by decide, by decide, rfl, rfl, rfl, fun u hu => ?_, by decide, by decide, by decide⟩
  obtain rfl := receiver _ (.inr hu)
  exact absurd hu.2 (by decide)

theorem witness_WaitingThreadsGoOn_12 :
    ∃ (s : State) (packet : Bool) (slot l : Nat) (x : Launch) (f : FrontEnd), s.cur.fe = true ∧ s.cur.run = [] ∧ s.here.fe = some f ∧ s.here.launch = some l ∧ s.launch l = some x ∧ x.tearing = false :=
  ⟨front, false, 0, 0, launch0, front0, rfl, rfl, rfl, rfl, rfl, rfl⟩

theorem witness_WaitingThreadsGoOn_13 :
    ∃ (s : State) (packet : Bool) (slot : Nat), s.cur.fe = false :=
  ⟨one, false, 0, rfl⟩

theorem witness_WaitingThreadsGoOn_14 :
    ∃ (s : State) (k u : Nat) (i : Instr), (s.core k).holdOf u = .run ∧ u < feUid ∧ (i = .sleepWake k u ∨ i = .offerTimeout k u ∨ i = .messageEnqueued k u) :=
  ⟨one, 0, 0, .sleepWake 0 0, by decide, by decide, .inl rfl⟩

theorem witness_PoolLanesAreApplied_1 :
    ∃ (s : State) (v n : Nat) (p : Pool) (l : PoolLane) (rest : List PoolLane) (left : List Nat) (y : PoolView)
    (sent : List Message) (vals : List Word), NextLane s v n p l rest left ∧ LaneResult s v n p l.op y sent vals :=
  ⟨_, 0, 9, _, _, [], [0], _, _, _, nextLane (.newSeq 7) [] [] (by decide) (by decide), .newSeq 7 0 (by decide) (by decide) (fun j h => absurd h (Nat.not_lt_zero j))⟩

theorem witness_PoolLanesAreApplied_2 :
    ∃ (s : State) (v n : Nat) (p : Pool) (l : PoolLane) (rest : List PoolLane) (left : List Nat) (y : PoolView)
    (sent : List Message) (vals : List Word), NextLane s v n p l rest left ∧ LaneResult s v n p l.op y sent vals :=
  ⟨_, 0, 9, _, _, [], [0], _, _, _, nextLane (.app 0 5) [] [(0, ⟨0xFFFFFFFF#32, 0xFFFFFFFF#32, 7#32, true, []⟩)] (by decide) (by decide),
    .appPage 0 5 0 0 _ _ ⟨by decide, by decide⟩ rfl (by decide) (.inl (by decide))
      ⟨by decide, .inl (by decide), ⟨by decide, by decide, by decide⟩, fun j h => absurd h (Nat.not_lt_zero j), fun h => absurd h (by decide)⟩
      (by decide) (by decide) (.head _)⟩

theorem witness_PoolLanesAreApplied_3 :
    ∃ (s : State) (v n : Nat) (p : Pool) (l : PoolLane) (rest : List PoolLane) (left : List Nat) (y : PoolView)
    (sent : List Message) (vals : List Word), NextLane s v n p l rest left ∧ LaneResult s v n p l.op y sent vals :=
  let ⟨_, hu⟩ := unlinkOne (.free 0)
  ⟨_, 0, 9, _, _, [], [0], _, _, _, nextLane (.free 0) [(0, page1)] [(0, chain1)] (by decide) (by decide),
    .free 0 1 [0#32] _ ⟨by decide, by decide⟩ (readOne _) (.cons _ _ _ _ _ true 0 hu (.nil _))⟩

theorem witness_PoolLanesAreApplied_4 :
    ∃ (s : State) (v n : Nat) (p : Pool) (l : PoolLane) (rest : List PoolLane) (left : List Nat) (y : PoolView)
    (sent : List Message) (vals : List Word), NextLane s v n p l rest left ∧ LaneResult s v n p l.op y sent vals :=
  ⟨_, 0, 9, _, _, [], [0], _, _, _, nextLane (.trunc 0 8) [(0, page1)] [(0, chain1)] (by decide) (by decide),
    .trunc 0 8 0 [0#32] _ _ _ _ ⟨by decide, by decide⟩ (by decide) (readOne _) rfl (.nil _) rfl rfl (fun _ => Nat.le_refl 1)⟩

theorem witness_PoolLanesAreApplied_5 :
    ∃ (s : State) (v n : Nat) (p : Pool) (l : PoolLane) (rest : List PoolLane) (left : List Nat) (y : PoolView)
    (sent : List Message) (vals : List Word), NextLane s v n p l rest left ∧ LaneResult s v n p l.op y sent vals :=
  let ⟨_, hu⟩ := unlinkOne (.rspan 0 5)
  ⟨_, 0, 9, _, _, [], [0], _, _, _, nextLane (.rspan 0 5) [(0, page1)] [(0, chain1)] (by decide) (by decide),
    .rspan 0 5 1 1 0 [0#32] _ ⟨by decide, by decide⟩ (readOne _)
      (fun g hg hp => by obtain rfl := List.mem_singleton.1 hg; exact Nat.le_refl 1)
      (.whole _ _ _ _ _ true 0 0 0 (by show ∀ k < 2, carries page1 5 k = true; decide) hu (.nil _))⟩

theorem witness_PoolLanesAreApplied_6 :
    ∃ (s : State) (v n : Nat) (p : Pool) (l : PoolLane) (rest : List PoolLane) (left : List Nat) (reason : Word), NextLane s v n p l rest left ∧ LaneFails s v n p l.op reason :=
  ⟨_, 0, 9, _, _, [], [0], _, nextLane (.newSeq 7) [] [(0, chain1)] (by decide) (by decide),
    .noRecord _ (by decide) (.inl ⟨_, rfl⟩)⟩

theorem witness_PoolLanesAreApplied_7 :
    ∃ (s : State) (v n : Nat) (p : Pool) (l : PoolLane) (rest : List PoolLane) (left : List Nat) (reason : Word), NextLane s v n p l rest left ∧ LaneFails s v n p l.op reason :=
  ⟨_, 0, 9, _, _, [], [0], 2, nextLane (.free 0) [] [] (by decide) (by decide), .badSeq _ 0 (fun _ h => (nomatch h)) rfl (fun h => absurd h.2 (by decide))⟩

theorem witness_PoolLanesAreApplied_8 :
    ∃ (s : State) (v n : Nat) (p : Pool) (l : PoolLane) (rest : List PoolLane) (left : List Nat) (q g : Nat), NextLane s v n p l rest left ∧ LaneCopies s v n p l.op q g ∧ s.funcBit v 1 = false ∧ (s.cluster (l.core / 4)).handler.isSome = true :=
  ⟨_, 0, 9, _, _, [], [0], 0, 2, nextLane (.app 0 5) [(2, shared2)] [(0, ⟨2#32, 2#32, 1#32, true, []⟩)] (by decide) (by decide), .app 0 5 _ ⟨by decide, by decide⟩ rfl (by decide) (by decide) (by decide) (by decide), by decide, by decide⟩

theorem witness_PoolLanesAreApplied_9 :
    ∃ (s : State) (v n : Nat), (s.pool v n = none ∨ (∃ p, s.pool v n = some p ∧ p.queue = [])) :=
  ⟨one, 0, 9, .inl rfl⟩

theorem witness_AStepRunsTheDecodedWord_1 :
    ∃ (s : State) (core warp : Nat) (run : List Nat) (head : Bool) (p : List Word), Fetches s core run p ∧ (let pc := ((s.core core).th (run.headD 0)).pc
    let w := getAt p (slotOf pc) 0#32
    let b := began s core warp run head pc 1 (wordD w) pc
    wordC w = false ∧ isExt w = false) :=
  ⟨one, 0, 0, [0], true, _, ⟨⟨0, _, rfl, rfl, rfl⟩, by decide, by decide⟩, by decide, by decide⟩

theorem witness_AStepRunsTheDecodedWord_2 :
    ∃ (s : State) (core warp : Nat) (run : List Nat) (head : Bool) (p : List Word), Fetches s core run p ∧ (let pc := ((s.core core).th (run.headD 0)).pc
    let w := getAt p (slotOf pc) 0#32
    let v := getAt p (slotOf pc + 1) 0#32
    isExt w = true ∧ wordC v = false ∧ (∃ c3 rm sr sat g sel, decodeWord w = some (.ext c3 rm sr sat g sel))) :=
  ⟨coded [0x0E000080, 0x02800000, 0x02800000], 0, 0, [0], true, _, ⟨⟨0, _, rfl, rfl, rfl⟩, by decide, by decide⟩, by decide, by decide, _, _, _, _, _, _, rfl⟩

theorem witness_AStepRunsTheDecodedWord_3 :
    ∃ (s : State) (core warp : Nat) (run : List Nat) (head : Bool) (p : List Word) (i : Instr), Fetches s core run p ∧ (let pc := ((s.core core).th (run.headD 0)).pc
    let w := getAt p (slotOf pc) 0#32
    let v := getAt p (slotOf pc + 1) 0#32
    let b := began s core warp run head pc 2 (wordD v) (pc + 4#32)
    isExt w = true ∧ decodeWord w = none ∧ wordC v = false ∧ decodeWord v = some i) :=
  ⟨coded [0x0E000001, 0x02800000, 0x02800000], 0, 0, [0], true, _, _, ⟨⟨0, _, rfl, rfl, rfl⟩, by decide, by decide⟩, by decide, by decide, by decide, rfl⟩

theorem witness_AStepRunsTheDecodedWord_4 :
    ∃ (s : State) (core warp : Nat) (run : List Nat) (head : Bool) (p : List Word) (i j : Instr), Fetches s core run p ∧ (let pc := ((s.core core).th (run.headD 0)).pc
    let w := getAt p (slotOf pc) 0#32
    let v := getAt p (slotOf pc + 1) 0#32
    let b (here : Word) : State := began s core warp run head pc 2 (wordD w) here
    slotOf pc < 2 ∧ wordC w = true ∧ isExt w = false ∧ wordC v = false ∧ isExt v = false ∧ majPipe (wordMaj w).toNat ≠ some .s ∧ decodeWord w = some i ∧ decodeWord v = some j) :=
  ⟨coded [0x87020206, 0x02800000, 0x02800000], 0, 0, [0], true, _, _, _, ⟨⟨0, _, rfl, rfl, rfl⟩, by decide, by decide⟩, by decide, by decide, by decide, by decide, by decide, by decide, rfl, rfl⟩

theorem witness_AStepRunsTheDecodedWord_5 :
    ∃ (s : State) (core l : Nat) (x : Launch) (f : FrontEnd) (p : List Word), (s.core core).fe = some f ∧ (s.core core).launch = some l ∧ s.launch l = some x ∧ packetAt (x.segment true false 0#64) f.pc = some p ∧ packetFault true p = none ∧ f.pc.toNat % 4 = 0 ∧ (let w := getAt p (slotOf f.pc) 0#32
    isExt w = false) :=
  ⟨front, 0, 0, launch0, front0, _, rfl, rfl, rfl, rfl, by decide, by decide, by decide⟩

theorem witness_AStepRunsTheDecodedWord_6 :
    ∃ (s : State) (core warp : Nat) (run : List Nat) (head : Bool), (s.issuing core).isSome = true ∧ run ≠ [] ∧ (∀ u ∈ run, AMap.has (s.core core).threads u = true ∧ ((s.core core).th u).ready (s.core core).clock = true ∧ ((s.core core).th u).sameRun ((s.core core).th (run.headD 0)) = true ∧ ((s.core core).th (run.headD 0)).sameRun ((s.core core).th u) = true) :=
  ⟨one, 0, 0, [0], true, by decide, by decide, by decide⟩

theorem witness_AStepRunsTheDecodedWord_7 :
    ∃ (s : State) (core : Nat), (s.issuing core).isSome = true :=
  ⟨front, 0, by decide⟩

theorem witness_AStepRunsTheDecodedWord_8 :
    ∃ (s : State) (core : Nat) (x : Launch), s.issuing core = some x ∧ s.hdrSlot core x = none ∧ (s.planCore core x).slots ≠ [] :=
  ⟨{ oneCore (fun c => { c with clock := 4 }) with now := 4 }, 0, launch0, by decide, by decide, by decide⟩

theorem witness_AStepRunsTheDecodedWord_9 :
    ∃ (s : State) (core : Nat) (x : Launch), s.issuing core = some x ∧ (s.hdrSlot core x).isSome = true :=
  ⟨coded [0x00800000, 0x02800000, 0x02800000], 0, _, rfl, by decide⟩

theorem witness_WeightsAndTimersAreStored_1 :
    ∃ (s : State) (v : Nat) (w : DWord), s.boot = .running :=
  ⟨one, 0, 7, rfl⟩

theorem witness_WeightsAndTimersAreStored_2 :
    ∃ (s : State) (v : Nat) (w : Word), s.boot = .running :=
  ⟨one, 0, 7, rfl⟩

theorem witness_WeightsAndTimersAreStored_3 :
    ∃ (s : State) (v : Nat), v < 64 ∧ (s.vf v).ctx = 1 :=
  ⟨{ one with vfs := [(0, { VF.reset with ctx := 1 })] }, 0, by decide, by decide⟩

theorem witness_EveryStepKeepsTheMemoriesForm_1 :
    ∃ (s t : State), s.memoriesWf ∧ step s = .next t :=
  ⟨{ State.reset with boot := .safe 2 0 0 }, _, ⟨by decide, by decide, by decide, fun p hp => (nomatch hp), fun p hp => (nomatch hp)⟩, rfl⟩

theorem witness_TheSafeStateIsLeftByResetAlone_1 :
    ∃ (i : Instr) (s t : State), exec i s = .next t ∧ i ≠ .deviceReset :=
  ⟨.report, State.reset, _, rfl, by decide⟩

theorem witness_TheSafeStateIsLeftByResetAlone_2 :
    ∃ (s t : State) (stage code unit : Word), step s = .next t ∧ s.boot = .safe stage code unit ∧ s.inputs.head? ≠ some .deviceReset :=
  ⟨{ State.reset with boot := .safe 2 0 0 }, _, 2, 0, 0, rfl, rfl, by decide⟩

end

end Sys2Proof.Tests
end

