-- ==== Sys2Proof/Tests/WitnessEngines.lean ====
section
/-! SUPPORT. Witnesses of the hypotheses of the statements about the engines and the matrix unit. -/

namespace Sys2Proof.Tests

open Sys2Proof Sys2Proof.Machine Sys2Proof.Claims

section

set_option Elab.async false
set_option linter.unusedVariables false


/-- Records of 1000 elements of 4 bytes: in the scratchpad from 0, in memory from VA 0x1000; and one of none. -/
def inScratch : BufRec := BitVec.ofNat 128 (1000 * 2 ^ 64 + 2 ^ 62 + 2 * 2 ^ 52)
def inScratch1 : BufRec := BitVec.ofNat 128 (1000 * 2 ^ 64 + 2 ^ 62 + 2 ^ 52)
def inMemory : BufRec := BitVec.ofNat 128 (1000 * 2 ^ 64 + 2 * 2 ^ 52 + 0x1000)
def short : BufRec := BitVec.ofNat 128 (2 ^ 62 + 2 * 2 ^ 52)
/-- A linear copy of 9 elements in the scratchpad, and a gather and a scatter of one row of 9. -/
def jcopy : JSlot :=
  { JSlot.reset with state := 3, kind := 1, cmd := ⟨BitVec.ofNat 128 (9 * 2 ^ 96 + 2 ^ 31), inScratch, inScratch, 0#128⟩ }
def jgath : JSlot :=
  { JSlot.reset with state := 3, kind := 2, cmd := ⟨BitVec.ofNat 128 (2 ^ 80 + 9 * 2 ^ 64 + 2 ^ 31), inScratch, inScratch, inScratch⟩ }
def jscat : JSlot :=
  { jgath with kind := 3, cmd := { jgath.cmd with desc := BitVec.ofNat 128 (7 * 2 ^ 96 + 2 ^ 80 + 9 * 2 ^ 64) }, idxVal := some (0xFFFFFFFF, 0) }
def slotted (j : JSlot) : State := { one with clusters := [(0, { Cluster.reset with jslots := [(0, j)] })], launches := roomy }
def stalling : State :=
  { one with
    clusters := [(0, { Cluster.reset with
      jslots := [(0, { jcopy with cmd := { jcopy.cmd with src := inMemory } })], xtab := [(5, ⟨1#8, 0, 0, false, false⟩)] })] }
theorem slotted_listed (j : JSlot) : slotsListed ((slotted j).cluster 0) :=
  ⟨by simp [slotted, State.cluster, AMap.lookD, AMap.look], fun p hp => by obtain rfl := List.mem_singleton.1 hp; exact (by decide : 0 < 256)⟩
theorem noneWait (j : JSlot) (h : j.waitCh = false) (m : Nat) : ¬ waitsForChannel (slotted j) 0 m := by
  by_cases hm : m = 0
  · subst hm; rintro ⟨h1, _⟩; exact absurd (h.symm.trans h1) (by simp)
  · have h2 : (((slotted j).cluster 0).slot m) = JSlot.reset := by
      simp [slotted, State.cluster, Cluster.slot, AMap.lookD, AMap.look, Ne.symm hm]
    unfold waitsForChannel
    rw [h2]
    simp [JSlot.reset]
theorem notQueued (j : JSlot) {m : Nat} (hm : m ≠ 0) : canLaunch (slotted j) 0 m = none := by
  have h : (((slotted j).cluster 0).slot m) = JSlot.reset := by
    simp [slotted, State.cluster, Cluster.slot, AMap.lookD, AMap.look, Ne.symm hm]
  unfold canLaunch
  rw [h]
  split <;> rfl
/-- One NDEF of the core is on its way. -/
def word0 : EngineWord := ⟨0, 5, .ndef false, [0], [], false, false⟩
def wording : State :=
  { oneCore (fun c => { c with pend := [(0, ⟨0, 0, [], some 3, [.thread 0], 0⟩)] }) with
    clusters := [(0, { Cluster.reset with jwords := [word0] })] }

/-- A matrix word of the core at the head of its queue. -/
def mma0 : MatrixWord := ⟨4, 0, .mma 7 0 true 10, [0], [], 0, [0], [], 0, false, 0⟩
def mma1 : MatrixWord := { mma0 with age := 1 }
def mposted (w : MatrixWord) : State :=
  { oneCore (fun c => { c with mwords := [w], pend := [(0, ⟨0, 0, [], some 3, [.thread 0], 0⟩)] }) with launches := roomy }
theorem onlyCore0 {j : Nat} (w : MatrixWord) {x : MatrixWord} (h : ∃ rest, ((mposted w).core j).mwords = x :: rest) : j = 0 := by
  by_cases hj : j = 0
  · exact hj
  · simp [mposted, oneCore, one, State.core, AMap.lookD, AMap.look, Ne.symm hj, Core.reset] at h
theorem notMma {c : Core} (h : c.mwords.all (fun x => !x.isMma || !(x.age == 0)) = true) : allPosted c := by
  intro x hx hm
  have := List.all_eq_true.1 h x hx
  simpa [hm] using this
def passing : State := { mposted mma1 with clusters := [(0, { Cluster.reset with pass := some ⟨0, 7, [], false, mma1⟩ })] }
def leaving : State := { mposted mma1 with clusters := [(0, { Cluster.reset with ending := some ⟨0, 7, [], false, mma1⟩ })] }
/-- A matrix store of the core in progress. -/
def storing (es : List (Nat × List Byte)) (b : BufRec) : State :=
  { oneCore (fun c => { c with msts := [⟨0, b, es, 0, 0, [0], none⟩], pend := [(0, ⟨0, 0, [], some 3, [.thread 0], 0⟩)] }) with
    launches := roomy, clusters := [(0, { Cluster.reset with xtab := [(5, ⟨1#8, 0, 0, false, false⟩)] })] }

theorem witness_EngineLaunchesAdvance_1 :
    ∃ (s : State) (cl : Nat), ((∃ pre w post, NextWord s cl pre w post)) ∧ (∀ pre w post, NextWord s cl pre w post → Returns (s.core w.core) w.pends) ∧ (∀ x ∈ (s.cluster cl).jwords, x.atRest = true → 2 ≤ ((s.cluster cl).slot x.slot).state) :=
  by
  refine ⟨wording, 0, ⟨[], _, [], rfl, ⟨rfl, fun x hx => (nomatch hx)⟩, fun r hr => (nomatch hr), by decide⟩, fun pre w post h => ?_, fun x hx _ => ?_⟩
  · have hq : [word0] = pre ++ w :: post := h.queue
    obtain rfl : w = word0 := List.mem_singleton.1 (hq.symm ▸ (by simp))
    exact returned (by decide)
  · obtain rfl := List.mem_singleton.1 hx
    contradiction

theorem witness_EngineLaunchesAdvance_2 :
    ∃ (s : State) (cl : Nat), ((¬ ∃ pre w post, NextWord s cl pre w post)) :=
  ⟨one, 0, fun ⟨pre, w, post, h⟩ => (List.append_ne_nil_of_right_ne_nil pre (List.cons_ne_nil w post)) h.queue.symm⟩

theorem witness_EngineLaunchesAdvance_3 :
    ∃ (s : State) (cl n q : Nat), slotsListed (s.cluster cl) ∧ canLaunch s cl n = some q ∧ (∀ m p, m ≠ n → canLaunch s cl m = some p → q < p) ∧ (∀ m, waitsForChannel s cl m → s.vfOf (4 * cl + m / 64) ≠ s.vfOf (4 * cl + n / 64) ∧ 4 ≤ channels (s.cluster cl)) ∧ ((s.cluster cl).slot n).waitCh = false :=
  ⟨slotted { jcopy with state := 2, queued := some 3 }, 0, 0, 3, slotted_listed _, by decide, fun m p hm h => absurd ((notQueued _ hm).symm.trans h) (fun h => nomatch h), fun m h => absurd h (noneWait _ (by decide) m), by decide⟩

theorem witness_EngineLaunchesAdvance_4 :
    ∃ (s : State) (cl n : Nat), slotsListed (s.cluster cl) ∧ waitsForChannel s cl n ∧ (∀ m < n, ¬ waitsForChannel s cl m) ∧ channels (s.cluster cl) < 4 :=
  ⟨slotted { jcopy with waitCh := true }, 0, 0, slotted_listed _, by unfold waitsForChannel; decide, fun m h => absurd h (Nat.not_lt_zero m), by decide⟩

theorem witness_EngineLaunchesAdvance_5 :
    ∃ (s : State) (cl : Nat), slotsListed (s.cluster cl) ∧ (∀ m, canLaunch s cl m = none) ∧ (∀ m, ¬ waitsForChannel s cl m) :=
  ⟨slotted jcopy, 0, slotted_listed _, fun m => (by by_cases hm : m = 0; subst hm; decide; exact notQueued _ hm), noneWait _ (by decide)⟩

theorem witness_EngineLaunchesAdvance_6 :
    ∃ (s : State) (cl n : Nat) (j : JSlot) (x d : Nat) (src : Option Nat) (bs : List Byte), Moving s cl n j ∧ j.progress < elements j ∧ entryRead j x ∧ nextPair j x = (src, some d) ∧ bEsize j.cmd.src = bEsize j.cmd.dst ∧ (∀ i, src = some i → holdsElement s (4 * cl + n / 64) j.cmd.src i bs) ∧ (src = none → bs = List.replicate (2 ^ bEsize j.cmd.dst) 0#8) ∧ takesElement s (4 * cl + n / 64) j.cmd.dst d :=
  by
  refine ⟨slotted jcopy, 0, 0, jcopy, 0, 0, some 0, [0#8, 0#8, 0#8, 0#8], ⟨by decide, ⟨by decide, by decide, by decide, by decide⟩, by decide, by decide⟩, by decide, .inl rfl, by decide, by decide, fun i hi => ?_, fun h => (nomatch h), .inr ⟨_, _, ⟨.inl rfl, ⟨by decide, by decide⟩, rfl⟩⟩⟩
  obtain rfl := Option.some.inj hi
  exact ⟨by decide, .inr ⟨_, _, ⟨.inl rfl, ⟨by decide, by decide⟩, rfl⟩, by decide⟩⟩

theorem witness_EngineLaunchesAdvance_7 :
    ∃ (s : State) (cl n : Nat) (j : JSlot) (x : Nat) (src : Option Nat), Moving s cl n j ∧ j.progress < elements j ∧ j.kind = 3 ∧ entryRead j x ∧ nextPair j x = (src, none) :=
  ⟨slotted jscat, 0, 0, jscat, 0xFFFFFFFF, some 7, ⟨by decide, ⟨by decide, by decide, by decide, by decide⟩, by decide, by decide⟩, by decide, by decide, .inr (by decide), by decide⟩

theorem witness_EngineLaunchesAdvance_8 :
    ∃ (s : State) (cl n : Nat) (j : JSlot) (bs : List Byte), Moving s cl n j ∧ j.progress < elements j ∧ j.kind ≠ 1 ∧ j.idxVal = none ∧ bEsize j.cmd.idx = 2 ∧ holdsElement s (4 * cl + n / 64) j.cmd.idx (descSrc j + j.progress / descLen j) bs :=
  ⟨slotted jgath, 0, 0, jgath, [0#8, 0#8, 0#8, 0#8], ⟨by decide, ⟨by decide, by decide, by decide, by decide⟩, by decide, by decide⟩, by decide, by decide, by decide, by decide, ⟨by decide, .inr ⟨_, _, ⟨.inl rfl, ⟨by decide, by decide⟩, rfl⟩, by decide⟩⟩⟩

theorem witness_EngineLaunchesAdvance_9 :
    ∃ (s : State) (cl n : Nat) (j : JSlot) (x i d c : Nat), Moving s cl n j ∧ j.progress < elements j ∧ entryRead j x ∧ nextPair j x = (some i, some d) ∧ (s.form (4 * cl + n / 64) (s.vfOf (4 * cl + n / 64)) j.cmd.src i (2 ^ bEsize j.cmd.src) false).fault = some c :=
  ⟨slotted { jcopy with cmd := { jcopy.cmd with src := 0 } }, 0, 0, { jcopy with cmd := { jcopy.cmd with src := 0 } }, 0, 0, 0, _, ⟨by decide, ⟨by decide, by decide, by decide, by decide⟩, by decide, by decide⟩, by decide, .inl rfl, by decide, rfl⟩

theorem witness_EngineLaunchesAdvance_10 :
    ∃ (s : State) (cl n : Nat) (j : JSlot) (x i d c : Nat) (bs : List Byte), Moving s cl n j ∧ j.progress < elements j ∧ entryRead j x ∧ nextPair j x = (some i, some d) ∧ bEsize j.cmd.src = bEsize j.cmd.dst ∧ holdsElement s (4 * cl + n / 64) j.cmd.src i bs ∧ (s.form (4 * cl + n / 64) (s.vfOf (4 * cl + n / 64)) j.cmd.dst d (2 ^ bEsize j.cmd.dst) true).fault = some c :=
  ⟨slotted { jcopy with cmd := { jcopy.cmd with dst := short } }, 0, 0, { jcopy with cmd := { jcopy.cmd with dst := short } }, 0, 0, 0, _, [0#8, 0#8, 0#8, 0#8], ⟨by decide, ⟨by decide, by decide, by decide, by decide⟩, by decide, by decide⟩, by decide, .inl rfl, by decide, by decide, ⟨by decide, .inr ⟨_, _, ⟨.inl rfl, ⟨by decide, by decide⟩, rfl⟩, by decide⟩⟩, rfl⟩

theorem witness_EngineLaunchesAdvance_11 :
    ∃ (s : State) (cl n : Nat) (j : JSlot) (x i d pa : Nat), Moving s cl n j ∧ j.progress < elements j ∧ entryRead j x ∧ nextPair j x = (some i, some d) ∧ InMemory s (4 * cl + n / 64) j.cmd.src i false pa ∧ s.physPoison pa = true ∧ bTensor j.cmd.src = 0 ∧ AMap.look (s.vf (s.vfOf (4 * cl + n / 64))).pools 0 = none :=
  ⟨{ paged (slotted { jcopy with cmd := { jcopy.cmd with src := inMemory } }) with poison := [(0x20100, 0#16)] }, 0, 0, { jcopy with cmd := { jcopy.cmd with src := inMemory } }, 0, 0, 0, 0x201000, ⟨by decide, ⟨by decide, by decide, by decide, by decide⟩, by decide, by decide⟩, by decide, .inl rfl, by decide, ⟨rfl, by decide, .inl rfl, by decide, ⟨leaf0, by decide, fun h => (nomatch h), by decide, by decide⟩, fun l hl => (nomatch hl), fun h => (nomatch h), bare rfl⟩, by decide, by decide, by decide⟩

theorem witness_EngineLaunchesAdvance_12 :
    ∃ (s : State) (cl n : Nat) (j : JSlot) (c : Nat), Moving s cl n j ∧ j.progress < elements j ∧ j.kind ≠ 1 ∧ j.idxVal = none ∧ (s.form (4 * cl + n / 64) (s.vfOf (4 * cl + n / 64)) j.cmd.idx (descSrc j + j.progress / descLen j) (2 ^ bEsize j.cmd.idx) false).fault = some c :=
  ⟨slotted { jgath with cmd := { jgath.cmd with idx := 0 } }, 0, 0, { jgath with cmd := { jgath.cmd with idx := 0 } }, _, ⟨by decide, ⟨by decide, by decide, by decide, by decide⟩, by decide, by decide⟩, by decide, by decide, by decide, rfl⟩

theorem witness_EngineLaunchesAdvance_13 :
    ∃ (s : State) (cl n : Nat) (j : JSlot) (x c : Nat), Moving s cl n j ∧ j.progress < elements j ∧ j.kind ≠ 1 ∧ j.idxVal = some (x, c) ∧ c ≠ 0 :=
  ⟨slotted { jgath with idxVal := some (0, 5) }, 0, 0, { jgath with idxVal := some (0, 5) }, 0, 5, ⟨by decide, ⟨by decide, by decide, by decide, by decide⟩, by decide, by decide⟩, by decide, by decide, by decide, by decide⟩

theorem witness_EngineLaunchesAdvance_14 :
    ∃ (s : State) (cl n : Nat) (j : JSlot) (x i d : Nat) (p : Bool) (e : Nat × XEntry), Moving s cl n j ∧ j.progress < elements j ∧ entryRead j x ∧ nextPair j x = (some i, some d) ∧ elementUnmapped s (4 * cl + n / 64) j.cmd.src i false p ∧ (s.cluster cl).xtab.find? (fun q => q.2.vf == s.vfOf (4 * cl + n / 64) && q.2.page == (s.form (4 * cl + n / 64) (s.vfOf (4 * cl + n / 64)) j.cmd.src i (2 ^ bEsize j.cmd.src) false).addr / 64 * 64 / 65536) = some e :=
  ⟨stalling, 0, 0, { jcopy with cmd := { jcopy.cmd with src := inMemory } }, 0, 0, 0, false, (5, ⟨1#8, 0, 0, false, false⟩), ⟨by decide, ⟨by decide, by decide, by decide, by decide⟩, by decide, by decide⟩, by decide, .inl rfl, by decide, ⟨by decide, by decide, .inl rfl, .inl ⟨by decide, rfl⟩⟩, by decide⟩

theorem witness_EngineLaunchesAdvance_15 :
    ∃ (s : State) (cl n : Nat) (j : JSlot) (wait : Option EngineWord), Moving s cl n j ∧ elements j ≤ j.progress ∧ s.tearing (4 * cl + n / 64) = false ∧ MayComplete s cl n j wait :=
  ⟨slotted { jcopy with progress := 9 }, 0, 0, { jcopy with progress := 9 }, none, ⟨by decide, ⟨by decide, by decide, by decide, by decide⟩, by decide, by decide⟩, by decide, by decide, ⟨slotted_listed _, ⟨by decide, by decide⟩, by decide, by decide, fun w hw => (nomatch hw)⟩⟩

theorem witness_EngineLaunchesAdvance_16 :
    ∃ (s : State) (cl n : Nat), (((s.cluster cl).slot n).state ≠ 3 ∨ ((s.cluster cl).slot n).stalled ≠ none ∨ s.stopped (4 * cl + n / 64) = true) :=
  ⟨one, 0, 0, .inl (by decide)⟩

theorem witness_MatrixWordsApply_1 :
    ∃ (s : State) (k : Nat) (w h : MatrixWord) (rest : List MatrixWord) (token : Bool), HeadWord s k h rest ∧ h.isMma = true ∧ (s.core k).mwords.find? (fun x => x.isMma && x.age == 0) = some w ∧ ((token = true ↔ ∃ g x, (s.core k).token = some g ∧ AMap.look (s.core k).groups g = some x ∧ ∃ m ∈ x.members, ((s.core k).th m.1).warp = w.warp)) :=
  ⟨mposted mma0, 0, mma0, mma0, [], false, ⟨rfl, by decide, by decide, returned (by decide)⟩, rfl, rfl, iff_of_false (by decide) (by rintro ⟨g, x, h, _⟩; exact nomatch h)⟩

theorem witness_MatrixWordsApply_2 :
    ∃ (s : State) (k : Nat) (w : MatrixWord) (rest : List MatrixWord) (side : Bool) (mask : BitVec 4) (g sel : Nat) (rows : List (Nat × Word)), HeadWord s k w rest ∧ allPosted (s.core k) ∧ w.op = .mscale side mask g sel rows ∧ g < 8 ∧ (sel = 0 ∨ (4 ≤ sel ∧ sel ≤ 7)) ∧ (rows.map (fun r => r.1)).Nodup ∧ (∀ r ∈ rows, r.1 < 32) ∧ (∀ p ∈ (s.core k).scale, p.2.length = 32) :=
  ⟨mposted { mma0 with op := .mscale true 15 7 4 [(0, 5#32), (31, 6#32)] }, 0, { mma0 with op := .mscale true 15 7 4 [(0, 5#32), (31, 6#32)] }, [], true, 15, 7, 4, [(0, 5#32), (31, 6#32)], ⟨rfl, by decide, by decide, returned (by decide)⟩, notMma (by decide), rfl, by decide, by decide, by decide, by decide, fun p hp => (nomatch hp)⟩

theorem witness_MatrixWordsApply_3 :
    ∃ (s : State) (k : Nat) (w : MatrixWord) (rest : List MatrixWord) (mask : BitVec 4) (acc : Nat), HeadWord s k w rest ∧ allPosted (s.core k) ∧ w.op = .mzero mask acc ∧ acc < 8 ∧ ¬ passRuns s k acc :=
  ⟨mposted { mma0 with op := .mzero 15 7 }, 0, { mma0 with op := .mzero 15 7 }, [], 15, 7, ⟨rfl, by decide, by decide, returned (by decide)⟩, notMma (by decide), rfl, by decide, (by rintro ⟨p, h, _⟩; exact (nomatch h))⟩

theorem witness_MatrixWordsApply_4 :
    ∃ (s : State) (k : Nat) (w : MatrixWord) (rest : List MatrixWord) (acc mode : Nat) (clear : Bool) (ofmt : Nat) (b : BufRec) (idx pitch bar : Nat)
    (rm : BitVec 3) (sr sat : Bool) (gens : List DWord), HeadWord s k w rest ∧ allPosted (s.core k) ∧ w.op = .mst acc mode clear ofmt b idx pitch bar rm sr sat gens ∧ (sr = true → gens.length = w.uids.length) ∧ acc < 8 ∧ ofmt ≤ 6 ∧ ¬ passRuns s k acc ∧ w.uids ≠ [] ∧ w.uids.Nodup ∧ (∀ u ∈ w.uids, AMap.has (s.core k).threads u = true) :=
  ⟨mposted { mma0 with op := .mst 7 2 true 6 inScratch 0 1 0 0 true true [0x12345#64] }, 0, { mma0 with op := .mst 7 2 true 6 inScratch 0 1 0 0 true true [0x12345#64] }, [], 7, 2, true, 6, inScratch, 0, 1, 0, 0, true, true, [0x12345#64], ⟨rfl, by decide, by decide, returned (by decide)⟩, notMma (by decide), rfl, by decide, by decide, by decide, (by rintro ⟨p, h, _⟩; exact (nomatch h)), by decide, by decide, by decide⟩

theorem witness_MatrixWordsApply_5 :
    ∃ (s : State) (k : Nat) (w : MatrixWord) (rest : List MatrixWord), HeadWord s k w rest ∧ allPosted (s.core k) ∧
    (∀ r ∈ (s.core k).reqs, r.id ∈ w.after → r.unregistered = false ∧ r.unread = false) ∧ (∀ p ∈ (s.core k).latch, p.2.length = 512) ∧
    ∃ mask b idx pitch, w.op = .mldb mask b idx pitch ∧ w.progress < 32 ∧ reachable s k b (sourceRow b idx pitch w.progress) :=
  ⟨mposted { mma0 with op := .mldb 15 inScratch 0 128 }, 0, { mma0 with op := .mldb 15 inScratch 0 128 }, [], ⟨rfl, by decide, by decide, returned (by decide)⟩, notMma (by decide), fun r hr => (nomatch hr), fun p hp => (nomatch hp), 15, inScratch, 0, 128, rfl, by decide, by unfold reachable; decide⟩

theorem witness_MatrixWordsApply_6 :
    ∃ (s : State) (k : Nat) (w : MatrixWord) (rest : List MatrixWord), HeadWord s k w rest ∧ allPosted (s.core k) ∧
    (∀ r ∈ (s.core k).reqs, r.id ∈ w.after → r.unregistered = false ∧ r.unread = false) ∧ (∀ p ∈ (s.core k).latch, p.2.length = 512) ∧
    ∃ mask b idx pitch rows r j, w.op = .mgath mask b idx pitch rows ∧ rows[w.progress]? = some (r, j) ∧ r < 32 ∧
      (j = 2 ^ 32 - 1 ∨ reachable s k b (sourceRow b idx pitch j)) :=
  ⟨mposted { mma0 with op := .mgath 15 inScratch 0 128 [(31, 0xFFFFFFFF)] }, 0, { mma0 with op := .mgath 15 inScratch 0 128 [(31, 0xFFFFFFFF)] }, [], ⟨rfl, by decide, by decide, returned (by decide)⟩, notMma (by decide), fun r hr => (nomatch hr), fun p hp => (nomatch hp), 15, inScratch, 0, 128, [(31, 0xFFFFFFFF)], 31, 0xFFFFFFFF, rfl, by decide, by decide, .inl rfl⟩

theorem witness_MatrixWordsApply_7 :
    ∃ (s : State) (k : Nat) (w : MatrixWord) (rest : List MatrixWord), HeadWord s k w rest ∧ allPosted (s.core k) ∧
    (∀ r ∈ (s.core k).reqs, r.id ∈ w.after → r.unregistered = false ∧ r.unread = false) ∧ (∀ p ∈ (s.core k).latch, p.2.length = 512) ∧
    ∃ mask wide b idx pitch, w.op = .mtrn mask wide b idx pitch ∧ w.progress < 32 ∧ bEsize b = wide.toNat ∧
      ∀ g < (if wide = true then 8 else 16), reachable s k b (sourceRow b idx pitch ((if wide = true then 8 else 16) * w.progress + g)) :=
  ⟨mposted { mma0 with op := .mtrn 15 true inScratch1 0 128 }, 0, { mma0 with op := .mtrn 15 true inScratch1 0 128 }, [], ⟨rfl, by decide, by decide, returned (by decide)⟩, notMma (by decide), fun r hr => (nomatch hr), fun p hp => (nomatch hp), 15, true, inScratch1, 0, 128, rfl, by decide, by decide, by unfold reachable; decide⟩

theorem witness_MatrixWordsApply_8 :
    ∃ (s : State) (k : Nat) (w : MatrixWord) (rest : List MatrixWord), HeadWord s k w rest ∧ (∀ r ∈ (s.core k).reqs, r.id ∈ w.after → r.unregistered = false ∧ r.unread = false) ∧ ((∃ mask b idx pitch, w.op = .mldb mask b idx pitch ∧ 32 ≤ w.progress) ∨ (∃ mask b idx pitch rows, w.op = .mgath mask b idx pitch rows ∧ rows.length ≤ w.progress) ∨ (∃ mask wide b idx pitch, w.op = .mtrn mask wide b idx pitch ∧ 32 ≤ w.progress)) :=
  ⟨mposted { mma0 with op := .mldb 15 inScratch 0 128, progress := 32 }, 0, { mma0 with op := .mldb 15 inScratch 0 128, progress := 32 }, [], ⟨rfl, by decide, by decide, returned (by decide)⟩, fun r hr => (nomatch hr), .inl ⟨15, inScratch, 0, 128, rfl, by decide⟩⟩

theorem witness_MatrixWordsApply_9 :
    ∃ (s : State) (cl k : Nat) (w : MatrixWord) (rest : List MatrixWord) (acc mode : Nat) (zero : Bool) (fmt : Nat), (((s.cluster cl).pass = none ∨ (s.cluster cl).ending = none)) ∧ (∀ q, (s.cluster cl).pass = some q → q.acc < 8) ∧ eligible s cl k w ∧ ((∀ j x, eligible s cl j x → j = k ∨ goesBefore w x)) ∧ HeadWord s k w rest ∧ (∀ j x, eligible s cl j x → ((s.core j).mwords.map (fun y => y.id)).Nodup) ∧ w.op = .mma acc mode zero fmt ∧ fmt ≤ 10 :=
  by
  refine ⟨mposted mma1, 0, 0, mma1, [], 7, 0, true, 10, .inl (by decide), fun q h => (nomatch h), ⟨rfl, ⟨[], rfl⟩, rfl, by decide, by decide⟩, fun j x h => .inl (onlyCore0 _ h.2.1), ⟨rfl, by decide, by decide, returned (by decide)⟩, fun j x h => ?_, rfl, by decide⟩
  obtain rfl := onlyCore0 _ h.2.1
  decide

theorem witness_MatrixWordsApply_10 :
    ∃ (s : State) (cl : Nat) (p : Pass) (early : Bool), ((early = true ∧ (s.cluster cl).ending = some p) ∨ (early = false ∧ (s.cluster cl).ending = none ∧ (s.cluster cl).pass = some p)) ∧ p.core / 4 = cl ∧ p.acc < 8 ∧ Returns (s.core p.core) p.word.pends :=
  ⟨passing, 0, ⟨0, 7, [], false, mma1⟩, false, .inr (by decide), by decide, by decide, returned (by decide)⟩

theorem witness_MatrixWordsApply_11 :
    ∃ (s : State) (cl : Nat) (p : Pass) (early : Bool), ((early = true ∧ (s.cluster cl).ending = some p) ∨ (early = false ∧ (s.cluster cl).ending = none ∧ (s.cluster cl).pass = some p)) ∧ p.core / 4 = cl ∧ p.acc < 8 ∧ Returns (s.core p.core) p.word.pends :=
  ⟨leaving, 0, ⟨0, 7, [], false, mma1⟩, true, .inl (by decide), by decide, by decide, returned (by decide)⟩

theorem witness_MatrixWordsApply_12 :
    ∃ (s : State) (k id : Nat) (m : MstWrite) (e : Nat × List Byte) (es : List (Nat × List Byte)), Storing s k id m ∧ m.elems = e :: es ∧ e.2.length = 2 ^ bEsize m.buf ∧ takesElement s k m.buf e.1 :=
  ⟨storing [(0, [1#8, 2#8, 3#8, 4#8])] inScratch, 0, 0, _, (0, [1#8, 2#8, 3#8, 4#8]), [], ⟨rfl, rfl⟩, rfl, by decide, .inr ⟨_, _, ⟨.inl rfl, ⟨by decide, by decide⟩, rfl⟩⟩⟩

theorem witness_MatrixWordsApply_13 :
    ∃ (s : State) (k id : Nat) (m : MstWrite) (e : Nat × List Byte) (es : List (Nat × List Byte)) (c : Nat), Storing s k id m ∧ m.elems = e :: es ∧ (s.form k (s.vfOf k) m.buf e.1 e.2.length true).fault = some c :=
  ⟨storing [(0, [1#8, 2#8, 3#8, 4#8])] 0, 0, 0, _, (0, [1#8, 2#8, 3#8, 4#8]), [], _, ⟨rfl, rfl⟩, rfl, rfl⟩

theorem witness_MatrixWordsApply_14 :
    ∃ (s : State) (k id : Nat) (m : MstWrite) (e : Nat × List Byte) (es : List (Nat × List Byte)) (p : Bool) (x : Nat × XEntry), Storing s k id m ∧ m.elems = e :: es ∧ e.2.length = 2 ^ bEsize m.buf ∧ elementUnmapped s k m.buf e.1 true p ∧ (s.cluster (clusterOf k)).xtab.find? (fun q => q.2.vf == s.vfOf k && q.2.page == (s.form k (s.vfOf k) m.buf e.1 (2 ^ bEsize m.buf) true).addr / 64 * 64 / 65536) = some x :=
  ⟨storing [(0, [1#8, 2#8, 3#8, 4#8])] inMemory, 0, 0, _, (0, [1#8, 2#8, 3#8, 4#8]), [], false, (5, ⟨1#8, 0, 0, false, false⟩), ⟨rfl, rfl⟩, rfl, by decide, ⟨by decide, by decide, .inl rfl, .inl ⟨by decide, rfl⟩⟩, by decide⟩

theorem witness_MatrixWordsApply_15 :
    ∃ (s : State) (k id : Nat) (m : MstWrite), Storing s k id m ∧ m.elems = [] ∧ s.tearing k = false ∧ Returns (s.core k) m.late :=
  ⟨storing [] inScratch, 0, 0, _, ⟨rfl, rfl⟩, rfl, by decide, returned (by decide)⟩

theorem witness_MatrixWordsApply_16 :
    ∃ (s : State) (k : Nat), (s.core k).mwords = [] ∧ (∀ j w, ¬ eligible s k j w) ∧ (s.cluster k).pass = none ∧ ∀ x ∈ (s.core k).msts, x.id ≠ 5 :=
  by
  refine ⟨one, 0, by decide, fun j w h => ?_, by decide, fun x hx => (nomatch hx)⟩
  obtain ⟨_, ⟨rest, h⟩, _⟩ := h
  by_cases hj : j = 0
  · subst hj; exact nomatch h
  · simp [one, State.core, AMap.lookD, AMap.look, Ne.symm hj, Core.reset] at h

end

end Sys2Proof.Tests
end

