-- ==== Sys2Proof/Tests/WitnessDevice.lean ====
section
/-! SUPPORT. Witnesses of the hypotheses of the statements about graphs, contexts, partitions, the host and the device. -/

namespace Sys2Proof.Tests

open Sys2Proof Sys2Proof.Machine Sys2Proof.Claims

section

set_option Elab.async false
set_option linter.unusedVariables false


theorem notOccupied {x : GraphSlot} (h : (x.loading.isNone && !(x.state == 2) && x.triggers.isEmpty) = true) : ¬ occupied x := by
  simp only [Bool.and_eq_true, Bool.not_eq_true', beq_eq_false_iff_ne, Option.isNone_iff_eq_none, List.isEmpty_iff] at h
  rintro (h1 | h1 | h1)
  · simp [h.1.1] at h1
  · exact h.1.2 h1
  · exact h1 h.2
/-- VF 0 with a graph slot; a loaded slot of one node with triggers; and a slot whose run is at its one node. -/
def graphed (x : GraphSlot) : State := { one with vfs := [(0, { VF.reset with slots := [(0, x)] })] }
def header1 : Header := { probeHeader with feLen := 0 }
def node0 : Node := ⟨header1, 0, [], List.replicate 32 0#64⟩
def queuedSlot : GraphSlot := { GraphSlot.reset with state := 1, nodes := [node0], triggers := [0, 5] }
def patching : State :=
  { paged one with
    mem := (paged one).mem.write 0x200043 0x80#8
    vfs := [(0, { VF.reset with ptroot := 0x10001#64, slots := [(0, { queuedSlot with triggers := [0x40] })] })] }
def runningSlot (q : NodeRun) : GraphSlot := { GraphSlot.reset with state := 2, nodes := [node0], run := some [(0, q)] }
def ready0 : State :=
  { paged State.reset with
    boot := .running, now := 4, quanta := [(0, ⟨1, some 0, none, .online⟩)]
    vfs := [(0, { VF.reset with ptroot := 0x10001#64, slots := [(0, runningSlot ⟨some 0, 0, false, none⟩)] })] }
def cand0 : Cand := ⟨0, 0, 0, 0, header1, 0⟩
/-- The bytes of that header. -/
def headerBytes : List Byte :=
  [0, 0, 0, 0, 0, 0, 0, 0, 2, 0, 0, 0, 0, 0, 0, 0, 0, 0, 0, 0, 0, 0, 0, 0, 0, 0, 0, 0, 0, 0xFF, 0, 0, 1, 0, 0, 0, 0, 0, 0, 0, 0, 0, 0, 0, 13, 1]
theorem header0 : HeaderIs (fun o n => numAt (fun i => getAt headerBytes i 0#8) o n) header1 := by
  refine ⟨by decide, by decide, by decide, by decide, by decide, by decide, fun k hk => ?_, by decide⟩
  by_cases h : k = 0
  · subst h
    exact ⟨by decide, by decide, 1, 13, 0, by decide⟩
  · rw [if_neg (show ¬ k < header1.nroles from fun hk => h (Nat.lt_one_iff.1 hk))]
    revert k
    decide
theorem oneReady (c : Cand) (h : ReadyInst ready0 c) : c = cand0 := by
  obtain ⟨x, r, q, n, h1, h2, _, h4, h5, h6, h7, _, h9⟩ := h.node
  have hv : c.vf = 0 := by
    by_cases hv : c.vf = 0
    · exact hv
    · simp [ready0, State.vf, AMap.lookD, AMap.look, Ne.symm hv, VF.reset] at h1
  rw [hv] at h1
  have hs : c.slot = 0 ∧ x = runningSlot ⟨some 0, 0, false, none⟩ := by
    have h1 : AMap.look [(0, runningSlot ⟨some 0, 0, false, none⟩)] c.slot = some x := h1
    simp only [AMap.look] at h1
    split at h1
    · next e => exact ⟨e.symm, (Option.some.inj h1).symm⟩
    · exact nomatch h1
  obtain ⟨hs, rfl⟩ := hs
  obtain rfl := Option.some.inj h2
  have hn : c.node = 0 ∧ q = ⟨some 0, 0, false, none⟩ := by
    simp only [AMap.look] at h4
    split at h4
    · next e => exact ⟨e.symm, (Option.some.inj h4).symm⟩
    · exact nomatch h4
  obtain ⟨hn, rfl⟩ := hn
  rw [hn] at h7
  obtain rfl : node0 = n := Option.some.inj h7
  obtain ⟨v, s, d, i, hd, o⟩ := c
  simp only at hv hs hn h5 h6 h9
  obtain rfl : 0 = o := Option.some.inj h5
  subst hv hs hn h6 h9
  rfl
theorem ready0_inst : ReadyInst ready0 cand0 := ⟨by decide, by decide, _, _, _, node0, rfl, rfl, rfl, rfl, rfl, rfl, rfl, by decide, rfl⟩
theorem core0fits (j : Nat) (_ : 0 ≤ j) (h : j < 0 + 2 ^ cand0.hdr.shape) :
    (ready0.core j).launch = none ∧ (ready0.quantum (j / 16)).state = 1 ∧ (ready0.quantum (j / 16)).part = some 0 := by
  obtain rfl : j = 0 := Nat.lt_one_iff.1 h
  decide
theorem chosen0 : Chosen ready0 cand0 0 := by
  refine ⟨⟨ready0_inst, .inr (by decide)⟩, ⟨⟨0, by decide, by decide, by decide, core0fits⟩, fun j h => absurd h (Nat.not_lt_zero j)⟩, fun d hd h => ?_,
    fun a b ha hb _ _ => (oneReady a ha).trans (oneReady b hb).symm, fun d hd => by rw [oneReady d hd]; decide, by decide, fun v => ?_, fun l v h => nomatch h⟩
  · rw [oneReady d hd.1] at h
    obtain h | ⟨_, h | h⟩ := h
    · exact absurd h (Nat.lt_irrefl _)
    · exact absurd h (Nat.lt_irrefl _)
    · exact absurd h.2 (Nat.lt_irrefl _)
  · by_cases hv : v = 0
    · subst hv; decide
    · simp [ready0, State.vf, AMap.lookD, AMap.look, Ne.symm hv, VF.reset]
/-- Bytes in lines that are each mapped, with no poison and no line in Brocade. -/
theorem linesGood {s : State} {v va n : Nat} (h : (List.range (n / 64 + 2)).all (fun i =>
    match s.walk v ((va / 64 + i) * 64) false with | .ok _ => true | .fault _ => false) = true) (hb : s.brocade = []) (hp : s.poison = []) : vaGood s v va n := by
  intro i hi
  have h1 := List.all_eq_true.1 h ((va + i) / 64 - va / 64) (List.mem_range.2 (by omega))
  rw [show va / 64 + ((va + i) / 64 - va / 64) = (va + i) / 64 by omega] at h1
  cases hw : s.walk v ((va + i) / 64 * 64) false with
  | ok pa => exact ⟨pa, rfl, by simp [State.physPoison, hb, hp, AMap.has, AMap.look]⟩
  | fault b => rw [hw] at h1; exact nomatch h1
theorem lookD_all {α : Type} {m : AMap α} {k : Nat} {d : α} {p : α → Bool} (h : m.all (fun q => p q.2) = true) (hd : p d = true) : p (AMap.lookD m k d) = true := by
  simp only [AMap.lookD]
  cases hl : AMap.look m k with
  | some x => exact List.all_eq_true.1 h _ (look_mem _ _ _ hl)
  | none => exact hd
/-- No run in progress in any slot . -/
theorem noneReady (s : State) (h : s.vfs.all (fun p => p.2.slots.all (fun q => q.2.run.isNone)) = true) (c : Cand) : ¬ ReadyInst s c := by
  intro hc
  obtain ⟨x, r, q, n, h1, h2, _⟩ := hc.node
  have h3 : (s.vf c.vf).slots.all (fun q => q.2.run.isNone) = true :=
    lookD_all (p := fun v : VF => v.slots.all (fun q => q.2.run.isNone)) h (by decide)
  have := List.all_eq_true.1 h3 _ (look_mem _ _ _ h1)
  simp [h2] at this
def launch1 : Launch := { launch0 with hdr := header1 }
def waitingCore : State :=
  { one with
    launches := [(0, launch1)], cores := [(0, { Core.reset with launch := some 0 })]
    vfs := [(0, { VF.reset with slots := [(0, { GraphSlot.reset with state := 1, nodes := [{ node0 with params := [] }] })] })] }
theorem mayStart0 : mayStartCore waitingCore 0 0 launch1 [] := ⟨rfl, rfl, rfl, rfl, { node0 with params := [] }, rfl, rfl⟩
def launch1p : Launch := { launch0 with hdr := header1 }
def lastOne : State :=
  { graphed (runningSlot ⟨some 0, 1, false, some 0⟩) with launches := [(0, launch1p)], cores := [(0, { Core.reset with launch := some 0, started := true })] }
def torn : State := { one with launches := [(0, { launch0 with tearing := true })] }

/-- Lists with each key once. -/
def onceCheck (s : State) : Bool :=
  decide ((s.cores.map (fun p => p.1)).Nodup) && decide ((s.launches.map (fun p => p.1)).Nodup) && decide ((s.dies.map (fun p => p.1)).Nodup) &&
    s.dies.all (fun d => decide ((d.2.xq.map (fun p => p.1)).Nodup)) && s.vfs.all (fun v => decide ((v.2.pools.map (fun p => p.1)).Nodup)) &&
    s.cores.all (fun c => decide ((c.2.threads.map (fun p => p.1)).Nodup) && decide ((c.2.rows.map (fun p => p.1)).Nodup)) &&
    s.clusters.all (fun c => decide ((c.2.xtab.map (fun p => p.1)).Nodup) && decide ((c.2.jslots.map (fun p => p.1)).Nodup) &&
      decide ((c.2.claims.map (fun p => p.1)).Nodup))
theorem listsOnce {s : State} (h : onceCheck s = true) : ListsOnce s := by
  simp only [onceCheck, Bool.and_eq_true, decide_eq_true_eq] at h
  obtain ⟨⟨⟨⟨⟨⟨h1, h2⟩, h3⟩, h4⟩, h5⟩, h6⟩, h7⟩ := h
  refine ⟨h1, h2, ⟨h3, fun d hd => of_decide_eq_true (List.all_eq_true.1 h4 d hd)⟩, fun v => ?_, fun k => ?_, fun c => ?_⟩
  · exact of_decide_eq_true (lookD_all (p := fun x : VF => decide ((x.pools.map (fun p => p.1)).Nodup)) h5 (by decide))
  · have := lookD_all (k := k) (d := Core.reset) (p := fun c : Core => decide ((c.threads.map (fun p => p.1)).Nodup) && decide ((c.rows.map (fun p => p.1)).Nodup)) h6 (by decide)
    simpa [Bool.and_eq_true, State.core] using this
  · have := lookD_all (k := c) (d := Cluster.reset) (p := fun c : Cluster => decide ((c.xtab.map (fun p => p.1)).Nodup) && decide ((c.jslots.map (fun p => p.1)).Nodup) &&
      decide ((c.claims.map (fun p => p.1)).Nodup)) h7 (by decide)
    simpa [Bool.and_eq_true, and_assoc, State.cluster] using this
theorem slotsOnce_of {s : State} (h : s.vfs = []) : slotsOnce s := by
  intro v
  simp [State.vf, h, AMap.lookD, AMap.look, VF.reset]
/-- VF 0's launch runs on the draining quantum; VF 1 has an instance ready. -/
def crowded : State :=
  { one with
    quanta := [(0, ⟨2, some 0, none, .online⟩)], parts := [(0, { part0 with vfmask := 3#64 })]
    vfs := [(0, { VF.reset with ctx := 1 }), (1, { VF.reset with slots := [(0, runningSlot ⟨some 0, 0, false, none⟩)] })] }
def cand1 : Cand := ⟨1, 0, 0, 0, header1, 0⟩
theorem crowdReady : ReadyInst crowded cand1 := ⟨by decide, by decide, _, _, _, node0, rfl, rfl, rfl, rfl, rfl, rfl, rfl, by decide, rfl⟩
theorem crowdedQuanta (q : Nat) : (crowded.quantum q).state = if q = 0 then 2 else 0 := by
  simp only [crowded, State.quantum, AMap.lookD, AMap.look]
  by_cases h : q = 0
  · subst h; rfl
  · simp [h, Ne.symm h, Quantum.reset]
def laddering (ctx rung : Nat) : State := { one with vfs := [(0, { VF.reset with ctx := ctx, rung := rung })] }
theorem noneParkedPlaces {s : State} {v : Nat} (h : s.cores.all (fun c => c.2.threads.all (fun p => decide (p.2.hold = .run))) = true) : parkedPlaces s v := by
  intro k _ u n r hu
  have := noneParked (c := s.core k) (lookD_all (p := fun c : Core => c.threads.all (fun p => decide (p.2.hold = .run))) h (by decide)) u
  rw [this] at hu
  exact nomatch hu
theorem savable : Savable (laddering 2 2) 0 := by
  have hk (k : Nat) (h : holdsVf (laddering 2 2) 0 k) : k = 0 := by
    obtain ⟨l, x, h, _⟩ := h
    by_cases hk : k = 0
    · exact hk
    · simp [laddering, one, State.core, AMap.lookD, AMap.look, Ne.symm hk, Core.reset] at h
  refine ⟨by decide, ⟨0, 0, launch0, rfl, rfl, rfl⟩, fun k h => ?_, fun k h => ?_, fun k h => ?_, fun k h => ?_, by decide⟩ <;> obtain rfl := hk k h
  · refine ⟨by decide, fun p hp => ?_, fun f h => nomatch h⟩
    obtain rfl := List.mem_singleton.1 hp
    exact (rfl : (2 = 2))
  · exact fun e he => nomatch he
  · exact fun e he => nomatch he
  · exact ⟨by decide, fun p h => nomatch h⟩
def save0 : Saved := ⟨2 ^ 21, 4096, [4096], [⟨5, { core0 with index := 0 }, [], [], [], []⟩], [], [], []⟩
def launch0n : Launch := { launch0 with placed := [] }
def resuming : State :=
  { one with launches := [(0, launch0n)], cores := [], saves := [(0, save0)], vfs := [(0, { VF.reset with ctx := 3 })] }
def cutPart : Part := { part0 with ckState := 1, vfmask := 3#64 }
def cutting1 : State := { one with parts := [(0, cutPart)] }
/-- A frozen piece that a store waits to write, with a reserve of 2 MiB. -/
def piece0 : Piece := ⟨0x200000, 0, 0, false, none⟩
def frozenPart : Part := { part0 with pieces := [piece0], ckRsv := 0x0010000000400000#64 }
def freezing : State := { asking (req .store .ready) with parts := [(0, frozenPart)] }
def image0 : CkImage := ⟨0, 0#32, [], [], [], [piece0], [], []⟩
def drainPart (n h : Nat) : Part := { part0 with ckState := 2, ckImage := some 0, pieces := [piece0], ckDrained := n, haHead := h }
def drains (n h : Nat) : State := { one with parts := [(0, drainPart n h)], images := [(0, image0)] }
def fullPart : Part := { drainPart 1 1 with funcmode := 4#32 }
def fullQueue : State := { drains 1 1 with parts := [(0, fullPart)] }
def drainPartR : Part := { drainPart 1 0 with funcmode := 4#32, pieces := [{ piece0 with reserve := some 3 }] }
def drainsR : State := { drains 1 0 with parts := [(0, drainPartR)] }
/-- A partition record of quantum 0 and VF 0, with pseudo-channel 0. -/
def record0 : List Byte := [1, 0, 0, 0, 0, 0, 0, 0, 1, 0, 0, 0, 0, 0, 0, 0, 1] ++ List.replicate 239 0
set_option maxRecDepth 4000 in
theorem recordLength : record0.length = 256 := by decide
theorem ownsRecord (a : Nat) (h : a < 2 ^ 30) : (recorded { State.reset with boot := .running } 0 record0).owns a = true := by
  have hp : getAt (recorded { State.reset with boot := .running } 0 record0).pch 0 0#64 = 1#64 := by decide
  unfold Part.owns
  rw [if_pos (by omega)]
  simp only [Nat.div_eq_of_lt h, Nat.zero_div, Nat.zero_mod, hp]
  decide
set_option maxRecDepth 4000 in
theorem goodRecord (hs : imagePasses (recorded { State.reset with boot := .running } 0 record0).image) (o : Nat) : ¬ refusedAt { State.reset with boot := .running } 0 record0 o := by
  have zero : ∀ i < 256, 0xA8 ≤ i → getAt record0 i 0#8 = 0#8 := by decide
  rintro (⟨rfl, h⟩ | ⟨rfl, h⟩ | ⟨rfl, h⟩ | ⟨rfl, h⟩ | ⟨rfl, h⟩ | ⟨i, hi, rfl, h0, h⟩ | ⟨d, hd, rfl, h0, h⟩ | ⟨rfl, h⟩ | ⟨rfl, h⟩ | ⟨rfl, h⟩ | ⟨rfl, h⟩ | ⟨rfl, i, h1, h2, h⟩)
  · obtain h | h | h | ⟨q, hq, hb, h⟩ := h
    · exact absurd h (by decide)
    · exact absurd h (by decide)
    · exact absurd h (by decide)
    · have : q = 0 := by revert q; decide
      subst this
      obtain h | ⟨p, h, _⟩ := h
      · exact absurd h (by decide)
      · exact nomatch h
  · obtain h | h | h := h
    · exact absurd h (by decide)
    · exact absurd h (by decide)
    · exact absurd h (by rintro ⟨q, h, _⟩; exact (nomatch h))
  · exact absurd h (by decide)
  · exact absurd h (by decide)
  · obtain h | h := h
    · exact absurd h (by decide)
    · exact absurd h (by rintro ⟨q, h, _⟩; exact (nomatch h))
  · obtain h | h := h
    · exact absurd h (by clear h h0; revert i; decide)
    · exact absurd h (by rintro ⟨q, h, _⟩; exact (nomatch h))
  · exact absurd h0 (by clear h h0; revert d; decide)
  · obtain h | h | h := h
    · exact absurd h (by decide)
    · exact absurd h (by decide)
    · exact absurd h (by rintro ⟨q, h, _⟩; exact (nomatch h))
  · obtain h | h | h := h
    · exact absurd h (by decide)
    · exact h fun a h1 h2 => absurd (Nat.lt_of_le_of_lt h1 h2) (by decide)
    · exact h fun a h1 h2 => absurd (Nat.lt_of_le_of_lt h1 h2) (by decide)
  · obtain h | h := h
    · exact absurd h (by decide)
    · exact h fun a _ h2 => ownsRecord a (Nat.lt_of_lt_of_le h2 (by decide))
  · exact h hs
  · exact h (zero i h2 h1)
/-- The partition of `paged` holds every pseudo-channel. -/
theorem ownsAll (a : Nat) (h : a < 768 * 2 ^ 30) : ({ part0 with pch := List.replicate 12 0xFFFFFFFFFFFFFFFF#64 } : Part).owns a = true := by
  unfold Part.owns
  rw [if_pos h]
  have h1 : a / 2 ^ 30 / 64 < 12 := by omega
  have h2 : a / 2 ^ 30 % 64 < 64 := Nat.mod_lt _ (by decide)
  simp only
  generalize a / 2 ^ 30 / 64 = i at h1
  generalize a / 2 ^ 30 % 64 = j at h2
  revert j
  revert i
  decide
def recorded_ (k : HaKind) : State := { one with parts := [(0, { part0 with haPending := [(5#16, k)] })] }
theorem readEntry_same {s u : State} (hp : u.parts = s.parts) {v level tbl idx : Nat} (h : ∀ i < 8, u.physByte (tbl + 8 * idx + i) = s.physByte (tbl + 8 * idx + i)) :
    u.readEntry v level tbl idx = s.readEntry v level tbl idx := by
  have hb : u.physBytes (tbl + 8 * idx) 8 = s.physBytes (tbl + 8 * idx) 8 := List.map_congr_left fun i hi => h i (List.mem_range.1 hi)
  have ho (v pa : Nat) : u.vfOwns v pa = s.vfOwns v pa := by unfold State.vfOwns State.partOfVf; rw [hp]
  simp only [State.readEntry, hb, ho]
/-- The walk of `paged` stays while the bytes of its tables do. -/
theorem walkStays (u : State) (hv : u.vfs = (paged one).vfs) (hp : u.parts = (paged one).parts) (hd : u.dies = (paged one).dies)
    (h : ∀ a, a < 0x200000 → u.physByte a = (paged one).physByte a) : u.walk 0 (0x103F / 64 * 64) true = (paged one).walk 0 (0x103F / 64 * 64) true := by
  have e0 : u.readEntry 0 0 0x10000 0 = (paged one).readEntry 0 0 0x10000 0 := readEntry_same hp fun i hi => h _ (by omega)
  have e1 : u.readEntry 0 1 0x12000 0 = (paged one).readEntry 0 1 0x12000 0 := readEntry_same hp fun i hi => h _ (by omega)
  have e2 : u.readEntry 0 2 0x14000 0 = (paged one).readEntry 0 2 0x14000 0 := readEntry_same hp fun i hi => h _ (by omega)
  have t0 : (paged one).readEntry 0 0 0x10000 0 = .table 0x12000 := rfl
  have t1 : (paged one).readEntry 0 1 0x12000 0 = .table 0x14000 := rfl
  have t2 : (paged one).readEntry 0 2 0x14000 0 = .leaf leaf0 := rfl
  have w (s : State) (hs : s.vfs = (paged one).vfs ∧ s.parts = (paged one).parts) (r0 : s.readEntry 0 0 0x10000 0 = .table 0x12000)
      (r1 : s.readEntry 0 1 0x12000 0 = .table 0x14000) (r2 : s.readEntry 0 2 0x14000 0 = .leaf leaf0) : s.leafOf 0 (0x103F / 64 * 64) = some leaf0 := by
    have hx : s.vf 0 = (paged one).vf 0 := by unfold State.vf; rw [hs.1]
    have ho : s.vfOwns 0 0x10000 = true := (by unfold State.vfOwns State.partOfVf; rw [hs.2] : s.vfOwns 0 0x10000 = (paged one).vfOwns 0 0x10000).trans (by decide)
    unfold State.leafOf
    rw [hx]
    show (if tbit 0x10001 0 && s.vfOwns 0 (bits 0x10001 51 13 * 8192) then s.walkFrom 0 _ 4 0 (bits 0x10001 51 13 * 8192) else none) = _
    rw [show bits 0x10001 51 13 * 8192 = 0x10000 from by decide, ho, show (tbit 0x10001 0 && true) = true from by decide, if_pos rfl]
    simp only [State.walkFrom]
    rw [show levelIdx 0 (0x103F / 64 * 64) = 0 from by decide, r0]
    simp only
    rw [show levelIdx (0 + 1) (0x103F / 64 * 64) = 0 from by decide, r1]
    simp only
    rw [show levelIdx (0 + 1 + 1) (0x103F / 64 * 64) = 0 from by decide, r2]
  have hr (pa : Nat) : u.redirect pa = (paged one).redirect pa := by unfold State.redirect; rw [hd]
  unfold State.walk
  rw [w u ⟨hv, hp⟩ (e0.trans t0) (e1.trans t1) (e2.trans t2), w (paged one) ⟨rfl, rfl⟩ t0 t1 t2]
  simp only [hr]

theorem witness_GraphsRun_1 :
    ∃ (s : State) (v n : Nat) (va : BitVec 64), s.boot = .running ∧ ¬ occupied (graphSlot s v n) :=
  ⟨one, 0, 0, 64, rfl, notOccupied (by decide)⟩

theorem witness_GraphsRun_2 :
    ∃ (s : State) (v n : Nat) (va : BitVec 64), s.boot = .running ∧ occupied (graphSlot s v n) :=
  ⟨graphed { GraphSlot.reset with state := 2 }, 0, 0, 64, rfl, .inr (.inl (by decide))⟩

theorem witness_GraphsRun_3 :
    ∃ (s : State) (v n : Nat), s.boot = .running ∧ ¬ occupied (graphSlot s v n) :=
  ⟨one, 0, 63, rfl, notOccupied (by decide)⟩

theorem witness_GraphsRun_4 :
    ∃ (s : State) (v n va : Nat) (r : List Node ⊕ Nat), (graphSlot s v n).loading = some va ∧ Coherent s ∧ Loads s v va r :=
  by
  refine ⟨graphed { GraphSlot.reset with loading := some 64 }, 0, 0, 64, .inr 0xFFFF, by decide, bare rfl, .unread fun h => ?_⟩
  obtain ⟨pa, h, _⟩ := h 0 (by decide)
  rw [noPages (by decide)] at h
  exact nomatch h

theorem witness_GraphsRun_5 :
    ∃ (s : State) (v n : Nat), (graphSlot s v n).loading = none :=
  ⟨one, 0, 0, by decide⟩

theorem witness_GraphsRun_6 :
    ∃ (s : State) (v n : Nat) (p : BitVec 64), s.boot = .running :=
  ⟨one, 0, 0, 0, rfl⟩

theorem witness_GraphsRun_7 :
    ∃ (s : State) (v n : Nat) (w : BitVec 64), s.boot = .running :=
  ⟨one, 0, 0, 0, rfl⟩

theorem witness_GraphsRun_8 :
    ∃ (s : State) (v n : Nat) (w : BitVec 64), s.boot ≠ .running :=
  ⟨State.reset, 0, 0, 0, by decide⟩

theorem witness_GraphsRun_9 :
    ∃ (s : State) (v n : Nat) (rest : List Nat), MayRun (graphSlot s v n) 0 rest :=
  ⟨graphed queuedSlot, 0, 0, [5], ⟨by decide, by decide⟩⟩

theorem witness_GraphsRun_10 :
    ∃ (s : State) (v n va k : Nat) (rest : List Nat), MayRun (graphSlot s v n) va rest ∧ va ≠ 0 ∧ Coherent s ∧ k < 4096 ∧ (∀ j ≤ k, patchReads s v va j ∧ patchGood s v va (graphSlot s v n).nodes.length j) ∧ (∀ j < k, ¬ patchLast s v va j) ∧ patchLast s v va k ∧ (∀ x ∈ (graphSlot s v n).nodes, x.params.length = 32) :=
  by
  refine ⟨patching, 0, 0, 0x40, 0, [], ⟨by decide, by decide⟩, by decide, bare rfl, by decide, fun j hj => ?_, fun j hj => absurd hj (Nat.not_lt_zero j), by unfold patchLast; decide, by decide⟩
  obtain rfl : j = 0 := by omega
  exact ⟨bytesGood (pa := 0x200040) (by decide), by unfold patchGood; decide⟩

theorem witness_GraphsRun_11 :
    ∃ (s : State) (v n va k e : Nat) (rest : List Nat), MayRun (graphSlot s v n) va rest ∧ va ≠ 0 ∧ Coherent s ∧ k ≤ 4096 ∧ (∀ j < k, patchReads s v va j ∧ patchGood s v va (graphSlot s v n).nodes.length j ∧ ¬ patchLast s v va j) ∧ ((k = 4096 ∧ e = 0x1000) ∨ (k < 4096 ∧ ¬ patchReads s v va k ∧ e = 0xFFFF) ∨ (k < 4096 ∧ patchReads s v va k ∧ ¬ patchGood s v va (graphSlot s v n).nodes.length k ∧ e = k)) :=
  by
  refine ⟨graphed { queuedSlot with triggers := [0x40] }, 0, 0, 0x40, 0, 0xFFFF, [], ⟨by decide, by decide⟩, by decide, bare rfl, by decide, fun j hj => absurd hj (Nat.not_lt_zero j), .inr (.inl ⟨by decide, fun h => ?_, rfl⟩)⟩
  obtain ⟨pa, h, _⟩ := h 0 (by decide)
  rw [noPages (by decide)] at h
  exact nomatch h

theorem witness_GraphsRun_12 :
    ∃ (s : State) (v n : Nat), (∀ p r, ¬ MayRun (graphSlot s v n) p r) :=
  ⟨one, 0, 0, fun p r h => absurd h.loaded.1 (by decide)⟩

theorem witness_GraphsRun_13 :
    ∃ (s : State) (c : Cand) (k : Nat), Chosen s c k ∧ Coherent s ∧ ((∃ f, HeaderIs f c.hdr)) ∧ (nodeRunOf (graphSlot s c.vf c.slot) c.node).launch = none ∧ segmentsRead s c ∧ ((∀ p ∈ s.cores, p.2.launch = none ∨ p.2.started = true)) :=
  ⟨ready0, cand0, 0, chosen0, bare rfl, ⟨_, header0⟩, by decide, ⟨linesGood (by decide) rfl rfl, fun i h => (nomatch h), fun h => absurd h.1 (by decide)⟩, by decide⟩

theorem witness_GraphsRun_14 :
    ∃ (s : State), ((∀ c k, takesPart s c → ¬ fitsAt s c k) ∨ s.sched.placedAt = s.now) ∧ ((∃ k l x params, mayStartCore s k l x params)) ∧ ((∀ p ∈ s.cores, p.2.launch ≠ none → p.2.started = false → ∃ l x params, mayStartCore s p.1 l x params)) ∧ ((∀ k l x params, mayStartCore s k l x params → ∃ f, HeaderIs f x.hdr)) :=
  by
  refine ⟨waitingCore, .inl (fun c k h => absurd h.1 (noneReady _ (by decide) c)), ⟨0, 0, launch1, [], mayStart0⟩, fun p hp _ _ => ⟨0, launch1, [], (List.mem_singleton.1 hp) ▸ mayStart0⟩, fun k l x params h => ?_⟩
  obtain ⟨_, _, _, h, _⟩ := h
  simp only [waitingCore, State.launch, AMap.look] at h
  split at h
  · obtain rfl := Option.some.inj h; exact ⟨_, header0⟩
  · exact nomatch h

theorem witness_GraphsRun_15 :
    ∃ (s : State), ((∀ c k, takesPart s c → ¬ fitsAt s c k) ∨ s.sched.placedAt = s.now) ∧ ((∀ p ∈ s.cores, p.2.launch = none ∨ p.2.started = true)) :=
  ⟨one, .inl (fun c k h => absurd h.1 (noneReady _ (by decide) c)), by decide⟩

theorem witness_GraphsRun_16 :
    ∃ (s : State), ((∀ c k, takesPart s c → ¬ fitsAt s c k) ∨ s.sched.placedAt = s.now) ∧ ((∀ p ∈ s.cores, p.2.launch = none ∨ p.2.started = true)) :=
  ⟨{ ready0 with sched := { ready0.sched with placedAt := 4 } }, .inr rfl, fun p hp => (nomatch hp)⟩

theorem witness_GraphsRun_17 :
    ∃ (s : State) (l : Nat) (x : Launch), s.launch l = some x ∧ x.tearing = false ∧ ((∃ p ∈ x.placed, ∃ k, coresOf x p k ∧ ¬ Quiet s k)) :=
  ⟨one, 0, launch0, rfl, rfl, (0, 0), by decide, 0, by unfold coresOf; decide, fun h => absurd h.threads.2.1 (by decide)⟩

theorem witness_GraphsRun_18 :
    ∃ (s : State) (l : Nat) (x : Launch) (r : AMap NodeRun), LaunchOver s l x r :=
  by
  refine ⟨lastOne, 0, launch1p, [(0, ⟨some 0, 1, false, some 0⟩)], ⟨rfl, rfl⟩, fun p hp k hk => ?_, ⟨rfl, rfl⟩, fun _ => by decide, fun p hp => (nomatch hp), fun p hp => (nomatch hp), by decide⟩
  obtain rfl := List.mem_singleton.1 hp
  obtain rfl : k = 0 := Nat.lt_one_iff.1 hk.2
  exact ⟨⟨by decide, by decide, fun f h => (nomatch h)⟩, fun e he => (nomatch he), fun r hr => (nomatch hr),
    ⟨by decide, by decide, fun p hp => (nomatch hp), fun p hp => (nomatch hp)⟩, ⟨fun p hp => (nomatch hp), fun w hw => (nomatch hw)⟩, by decide⟩

theorem witness_GraphsRun_19 :
    ∃ (s : State) (l : Nat) (x : Launch), s.launch l = some x ∧ x.tearing = true ∧ (∀ p ∈ x.placed, ∀ k, coresOf x p k → (∀ q ∈ (s.core k).threads, ∀ j m b d, q.2.hold ≠ .slices j m b d) ∧ (∀ f, (s.core k).fe = some f → ∀ j m b d, f.hold ≠ .slices j m b d) ∧ (∀ r ∈ (s.core k).reqs, r.stage = .ready → asksWrite r = false)) ∧ (∀ p ∈ s.clusters, ∀ h, p.2.handler = some h → h.2 ≠ l) :=
  by
  refine ⟨torn, 0, { launch0 with tearing := true }, rfl, rfl, fun p hp k hk => ?_, fun p hp => (nomatch hp)⟩
  obtain rfl := List.mem_singleton.1 hp
  obtain rfl : k = 0 := Nat.lt_one_iff.1 hk.2
  refine ⟨fun q hq j m b d h => ?_, fun f h => (nomatch h), fun r hr => nomatch hr⟩
  obtain rfl := List.mem_singleton.1 hq
  exact nomatch h

theorem witness_GraphsRun_20 :
    ∃ (s : State) (l : Nat), s.launch l = none :=
  ⟨State.reset, 0, rfl⟩

theorem witness_ContextsAndCheckpointsMove_1 :
    ∃ (s : State) (v : Nat), v < 64 ∧ (s.vf v).ctx = 1 ∧ sliceField s v ≠ 0 ∧ (s.partOfVf v).isSome = true ∧ crowds s v :=
  by
  refine ⟨crowded, 0, by decide, by decide, by decide, by decide, cand1, crowdReady, by decide, by decide, fun k h => ?_⟩
  obtain ⟨p, _, _, _, h⟩ := h
  have := (h k (Nat.le_refl k) (Nat.lt_add_of_pos_right (by decide))).2.1
  rw [crowdedQuanta] at this
  exact absurd this (by split <;> decide)

theorem witness_ContextsAndCheckpointsMove_2 :
    ∃ (s : State) (v : Nat), slotsOnce s ∧ ((s.vf v).ctx ≠ 1 ∨ sliceField s v = 0 ∨ ¬ crowds s v) :=
  ⟨one, 0, slotsOnce_of (by decide), .inl (by decide)⟩

theorem witness_ContextsAndCheckpointsMove_3 :
    ∃ (s : State) (v : Nat), (s.vf v).ctx = 2 ∧ (s.vf v).rung = 1 ∧ ListsOnce s ∧ parkedPlaces s v :=
  ⟨laddering 2 1, 0, by decide, by decide, listsOnce (by decide), noneParkedPlaces (by decide)⟩

theorem witness_ContextsAndCheckpointsMove_4 :
    ∃ (s : State) (v : Nat), ((s.vf v).ctx ≠ 2 ∨ (s.vf v).rung ≠ 1) :=
  ⟨one, 0, .inl (by decide)⟩

theorem witness_ContextsAndCheckpointsMove_5 :
    ∃ (s : State) (v : Nat), (s.vf v).ctx = 2 ∧ ListsOnce s ∧ ((s.vf v).rung = 2 ∨ ((s.vf v).rung = 1 ∧ Savable s v)) ∧ AMap.look s.saves v = none :=
  ⟨laddering 2 2, 0, by decide, listsOnce (by decide), .inl (by decide), rfl⟩

theorem witness_ContextsAndCheckpointsMove_6 :
    ∃ (s : State) (v : Nat), ListsOnce s ∧ ((s.vf v).ctx ≠ 2 ∨ (s.vf v).rung = 0 ∨ 3 ≤ (s.vf v).rung ∨ ((s.vf v).rung = 1 ∧ ¬ Savable s v)) :=
  ⟨one, 0, listsOnce (by decide), .inl (by decide)⟩

theorem witness_ContextsAndCheckpointsMove_7 :
    ∃ (s : State) (v n : Nat) (p : Part), ListsOnce s ∧ Coherent s ∧ (∀ q ∈ s.parts, q.2.pieces = []) ∧ partRecOf s v n p ∧ v < 64 ∧ Savable s v ∧ AMap.look s.saves v = none :=
  ⟨laddering 2 2, 0, 0, part0, listsOnce (by decide), bare rfl, by decide, ⟨by decide, rfl⟩, by decide, savable, rfl⟩

theorem witness_ContextsAndCheckpointsMove_8 :
    ∃ (s : State) (v : Nat), ListsOnce s ∧ ¬ Savable s v :=
  ⟨one, 0, listsOnce (by decide), fun h => absurd h.ladder.1 (by decide)⟩

theorem witness_ContextsAndCheckpointsMove_9 :
    ∃ (s : State) (v n : Nat) (p : Part) (sv : Saved) (l : Nat) (x : Launch) (k : Nat), MayResume s v n p sv l x k ∧ SaveWhole s sv k ∧ Coherent s ∧ (∀ q ∈ s.parts, q.2.pieces = []) ∧ (s.vf v).pools.Pairwise (fun a b => a.1 ≠ b.1) :=
  by
  refine ⟨resuming, 0, 0, part0, save0, 0, launch0n, 0, ⟨⟨by decide, rfl, ⟨by decide, rfl⟩, by decide⟩, by decide, ⟨rfl, by decide⟩, ⟨List.pairwise_singleton _ _, by decide⟩, ⟨by decide, by decide, ?_, fun j h => absurd h (Nat.not_lt_zero j)⟩⟩, ⟨?_, ?_, List.pairwise_singleton _ _⟩, bare rfl, by decide, by decide⟩
  all_goals
    intro c hc
    obtain rfl := List.mem_singleton.1 hc
  · exact ⟨by decide, by decide, by decide, fun i hi => nomatch hi⟩
  · exact ⟨by decide, fun p hp => (nomatch hp), fun p hp => nomatch hp⟩
  · exact ⟨by decide, by decide, fun m hm => (nomatch hm), by decide⟩

theorem witness_ContextsAndCheckpointsMove_10 :
    ∃ (s : State) (v : Nat), ((s.vf v).ctx ≠ 3 ∨ AMap.look s.saves v = none ∨ (∃ q ∈ s.parts, q.2.vfmask.getLsbD v = true ∧ q.2.ckState = 1 ∧ q.2.sysvf ≠ v)) :=
  ⟨one, 0, .inl (by decide)⟩

theorem witness_ContextsAndCheckpointsMove_11 :
    ∃ (s : State) (n : Nat) (p : Part), MaySweep s n p :=
  ⟨cutting1, 0, cutPart, ⟨⟨rfl, rfl⟩, fun v _ => .inl rfl, fun d hd => (nomatch hd)⟩⟩

theorem witness_ContextsAndCheckpointsMove_12 :
    ∃ (s : State) (n : Nat), (∀ p, ¬ MaySweep s n p) :=
  ⟨one, 0, fun p h => absurd h.cut.2 (by obtain rfl := Option.some.inj h.cut.1; decide)⟩

theorem witness_ContextsAndCheckpointsMove_13 :
    ∃ (s : State) (n i : Nat) (p : Part) (x : Piece), AMap.look s.parts n = some p ∧ p.pieces[i]? = some x ∧ x.drained = false ∧ x.reserve = none ∧
    (n, p) ∈ s.parts ∧ x.pa % 65536 = 0 ∧ writeWaits s x.pa ∧ reserveFree p 0 :=
  ⟨freezing, 0, 0, frozenPart, piece0, rfl, rfl, rfl, rfl, by decide, by decide, ⟨_, List.mem_singleton_self _, _, List.mem_singleton_self _, rfl, rfl, rfl, 0x201000, by decide, by decide⟩, by decide, by decide⟩

theorem witness_ContextsAndCheckpointsMove_14 :
    ∃ (s : State) (n i : Nat), (∀ p x, AMap.look s.parts n = some p → p.pieces[i]? = some x → ¬ writeWaits s x.pa) :=
  by
  refine ⟨one, 0, 0, fun p x _ _ h => ?_⟩
  obtain ⟨q, hq, r, hr, _⟩ := h
  rw [List.mem_singleton.1 hq] at hr
  exact nomatch hr

theorem witness_ContextsAndCheckpointsMove_15 :
    ∃ (s : State) (n : Nat) (p : Part) (m : CkImage), draining s n p m ∧ p.ckDrained = 0 :=
  ⟨drains 0 0, 0, drainPart 0 0, image0, ⟨rfl, rfl, 0, rfl, rfl⟩, rfl⟩

theorem witness_ContextsAndCheckpointsMove_16 :
    ∃ (s : State) (n i : Nat) (p : Part) (m : CkImage) (x : Piece), draining s n p m ∧ p.ckDrained = i + 1 ∧ p.pieces[i]? = some x ∧ p.funcmode.getLsbD 2 = false :=
  ⟨drains 1 0, 0, 0, drainPart 1 0, image0, piece0, ⟨rfl, rfl, 0, rfl, rfl⟩, rfl, rfl, by decide⟩

theorem witness_ContextsAndCheckpointsMove_17 :
    ∃ (s : State) (n i : Nat) (p : Part) (m : CkImage), draining s n p m ∧ p.ckDrained = i + 1 ∧ i < p.pieces.length ∧ p.funcmode.getLsbD 2 = true ∧ ((p.haTail + 1) % 256 = p.haHead ∨ p.haWaiting ≠ []) :=
  ⟨fullQueue, 0, 0, fullPart, image0, ⟨rfl, rfl, 0, rfl, rfl⟩, rfl, by decide, by decide, .inl (by decide)⟩

theorem witness_ContextsAndCheckpointsMove_18 :
    ∃ (s : State) (n i : Nat) (p : Part) (m : CkImage), draining s n p m ∧ p.ckDrained = i + 1 ∧ i < p.pieces.length ∧ p.funcmode.getLsbD 2 = true ∧ (p.haTail + 1) % 256 ≠ p.haHead ∧ p.haWaiting = [] ∧ Coherent s ∧ ((∀ q ∈ s.parts, ∀ x ∈ q.2.pieces, x.drained = true ∨ x.reserve.isSome = true)) :=
  ⟨drainsR, 0, 0, drainPartR, image0, ⟨rfl, rfl, 0, rfl, rfl⟩, rfl, by decide, by decide, by decide, rfl, bare rfl, by decide⟩

theorem witness_ContextsAndCheckpointsMove_19 :
    ∃ (s : State) (n : Nat), (∀ p m, ¬ draining s n p m) :=
  ⟨one, 0, fun p m h => absurd h.2.1 (by obtain rfl := Option.some.inj h.1; decide)⟩

theorem witness_PartitionsChange_good :
    (imagePasses (recorded { State.reset with boot := .running } 0 record0).image → ∃ (s : State) (n : Nat) (bs : List Byte), s.boot = .running ∧ bs.length = 256 ∧ ∀ o, ¬ refusedAt s n bs o) :=
  by
  refine fun hs => ⟨{ State.reset with boot := .running }, 0, record0, rfl, recordLength, fun o ho => ?_⟩
  exact goodRecord hs o ho

theorem witness_PartitionsChange_2 :
    ∃ (s : State) (n o : Nat) (bs : List Byte), s.boot = .running ∧ bs.length = 256 ∧ refusedAt s n bs o ∧ (∀ x < o, ¬ refusedAt s n bs x) :=
  ⟨{ State.reset with boot := .running }, 8, 0, record0, rfl, recordLength, .inl ⟨rfl, .inl (by decide)⟩, fun x h => absurd h (Nat.not_lt_zero x)⟩

theorem witness_PartitionsChange_3 :
    ∃ (s : State) (n : Nat) (bs : List Byte), s.boot ≠ .running :=
  ⟨State.reset, 0, [], by decide⟩

theorem witness_PartitionsChange_4 :
    ∃ (s : State) (n : Nat) (bs : List Byte), s.boot = .running ∧ bs.length ≠ 256 :=
  ⟨one, 0, [], rfl, by decide⟩

theorem witness_PartitionsChange_5 :
    ∃ (s : State) (q r : Nat) (p : Nat), s.boot = .running ∧ ListsOnce s ∧ q ≠ 0 ∧ q < 32 ∧ (s.quantum q).state = 1 ∧ (s.quantum q).part = some p ∧ ((∃ j < 32, j ≠ q ∧ (s.quantum j).part = some p ∧ (s.quantum j).state = 1)) :=
  ⟨{ one with quanta := [(0, ⟨1, some 0, none, .online⟩), (31, ⟨1, some 0, none, .online⟩)] }, 31, 0, 0, rfl, listsOnce (by decide), by decide, by decide, by decide, by decide, 0, by decide, by decide, by decide, by decide⟩

theorem witness_PartitionsChange_6 :
    ∃ (s : State) (q r : Nat), s.boot = .running ∧ ((q = 0 ∨ (s.quantum q).state ≠ 1 ∨ (s.quantum q).part = none ∨ (∀ j < 32, (s.quantum j).part = (s.quantum q).part → (s.quantum j).state = 1 → j = q))) :=
  ⟨one, 0, 0, rfl, .inl rfl⟩

theorem witness_PartitionsChange_7 :
    ∃ (s : State) (q r : Nat), s.boot ≠ .running :=
  ⟨State.reset, 0, 0, by decide⟩

theorem witness_PartitionsChange_8 :
    ∃ (s : State) (q : Nat), (s.quantum q).state = 2 ∧ (∀ k, k / 16 = q → (s.core k).launch = none) :=
  ⟨{ State.reset with quanta := [(0, ⟨2, some 0, none, .online⟩)] }, 0, by decide, fun k _ => rfl⟩

theorem witness_PartitionsChange_9 :
    ∃ (s : State) (q : Nat), (s.quantum q).state = 3 :=
  ⟨{ State.reset with quanta := [(0, ⟨3, some 0, none, .offline⟩)] }, 0, by decide⟩

theorem witness_PartitionsChange_10 :
    ∃ (s : State) (q : Nat), (s.quantum q).state ≠ 3 ∧ ((s.quantum q).state ≠ 2 ∨ (∃ k, k / 16 = q ∧ (s.core k).launch ≠ none)) :=
  ⟨one, 0, by decide, .inl (by decide)⟩

theorem witness_PartitionsChange_11 :
    ∃ (s : State) (n : Nat) (p : Part) (cxl : Bool) (unit count : Nat), AMap.look s.parts n = some p ∧ Coherent s ∧ (n, p) ∈ s.parts ∧ unitsHeld p cxl unit count :=
  ⟨paged one, 0, _, false, 767, 1, rfl, bare rfl, List.mem_singleton_self _, ⟨by decide, fun a h1 h2 => ownsAll a (by simp only [unitBase] at h2; simpa using h2)⟩⟩

theorem witness_PartitionsChange_12 :
    ∃ (s : State) (n : Nat) (p : Part) (cxl : Bool) (unit count : Nat), AMap.look s.parts n = some p ∧ ¬ unitsHeld p cxl unit count :=
  ⟨one, 0, part0, false, 0, 0, rfl, fun h => h.1 rfl⟩

theorem witness_PartitionsChange_13 :
    ∃ (s : State) (n : Nat) (cxl : Bool) (unit count : Nat), AMap.look s.parts n = none :=
  ⟨State.reset, 0, false, 0, 1, rfl⟩

theorem witness_RegistersAreWrittenFromOutside_1 :
    ∃ (s : State) (k u l : Nat) (fe : Bool) (w : Word), (s.core k).launch = some l ∧ ((if fe = true then ∃ f, (s.core k).fe = some f ∧ f.pl = true else ((s.core k).th u).pl = true)) :=
  ⟨above, 0, 0, 0, false, 7, by decide, by decide⟩

theorem witness_RegistersAreWrittenFromOutside_2 :
    ∃ (s : State) (k u : Nat) (fe : Bool) (w : Word), ((s.core k).launch = none ∨ (fe = false ∧ ((s.core k).th u).pl = false) ∨ (fe = true ∧ ∀ f, (s.core k).fe = some f → f.pl = false)) :=
  ⟨State.reset, 0, 0, false, 7, .inl rfl⟩

theorem witness_RegistersAreWrittenFromOutside_3 :
    ∃ (s : State) (v : Nat) (w : Word), s.boot = .running :=
  ⟨one, 0, 7, rfl⟩

theorem witness_RegistersAreWrittenFromOutside_4 :
    ∃ (s : State) (n : Nat) (w : DWord), s.boot = .running :=
  ⟨one, 0, 7, rfl⟩

theorem witness_RegistersAreWrittenFromOutside_5 :
    ∃ (s : State) (n : Nat) (w : DWord), s.boot = .running :=
  ⟨one, 0, 7, rfl⟩

theorem witness_RegistersAreWrittenFromOutside_6 :
    ∃ (s : State) (n : Nat) (p : Part) (w : DWord), s.boot = .running ∧ AMap.look s.parts n = some p :=
  ⟨one, 0, part0, 7, rfl, rfl⟩

theorem witness_RegistersAreWrittenFromOutside_7 :
    ∃ (s : State) (n : Nat) (w : DWord) (i : RegTarget), AMap.look s.parts n = none ∧ i ∈ [.ckptctl n, .ckptbuf n, .ckptrsv n, .hastat n, .drainsel n, .haqhead n, .haresp n] :=
  ⟨State.reset, 0, 7, .hastat 0, rfl, by decide⟩

theorem witness_RegistersAreWrittenFromOutside_8 :
    ∃ (s : State) (p v o : Nat) (w : DWord), o < 0x1000 :=
  ⟨one, 7, 63, 0xFFF, 7, by decide⟩

theorem witness_RegistersAreWrittenFromOutside_9 :
    ∃ (s : State) (o : Nat) (w : DWord), ¬ (0x80000 ≤ o ∧ o < 0x88000) ∧ ¬ (0x100000 ≤ o ∧ o < 0x140000) :=
  ⟨one, 0x88000, 7, by decide, by decide⟩

theorem witness_RegistersAreWrittenFromOutside_10 :
    ∃ (s : State), s.boot = .running ∧ (∀ q ∈ s.parts, q.2.haHead < 256 ∧ q.2.haTail < 256 ∧ q.2.haErr < 16) :=
  by
  refine ⟨one, rfl, fun q hq => ?_⟩
  obtain rfl := List.mem_singleton.1 hq
  decide

theorem witness_RegistersAreWrittenFromOutside_11 :
    ∃ (s : State) (v n o : Nat) (i : RegTarget) (w : DWord) (x : Word), s.boot ≠ .running :=
  ⟨State.reset, 0, 0, 0, .ptroot 0, 7, 7, by decide⟩

theorem witness_RegistersAreWrittenFromOutside_12 :
    ∃ (s : State) (n : Nat) (p : Part) (x : Piece), s.drainPart = some n ∧ AMap.look s.parts n = some p ∧ p.pieces[p.drainsel.toNat]? = some x :=
  ⟨{ freezing with drainPart := some 0 }, 0, frozenPart, piece0, rfl, rfl, rfl⟩

theorem witness_TheHostAnswers_1 :
    ∃ (i : Instr) (s : State) (n : Nat) (tag : BitVec 16) (p : Part), answerOf i = some (n, tag) ∧ s.boot = .running ∧ AMap.look s.parts n = some p ∧ (∀ e ∈ p.haPending, e.1 ≠ tag) :=
  ⟨.harespResolve 0 0 5, one, 0, 5, part0, rfl, rfl, rfl, fun e he => (nomatch he)⟩

theorem witness_TheHostAnswers_2 :
    ∃ (i : Instr) (s : State) (n : Nat) (tag : BitVec 16) (p : Part) (k : HaKind) (pre post : List (BitVec 16 × HaKind)), answerOf i = some (n, tag) ∧ s.boot = .running ∧ PendingRec s n p tag k pre post ∧ ¬ fitsRecord i k :=
  by
  refine ⟨.harespResolve 0 0 5, recorded_ (.copy ⟨0, 9, 0, 0⟩), 0, 5, _, _, [], [], rfl, rfl, ⟨rfl, rfl, fun e he => (nomatch he)⟩, fun h => ?_⟩
  obtain ⟨n, x, tag, h⟩ := h
  exact nomatch h

theorem witness_TheHostAnswers_3 :
    ∃ (i : Instr) (s : State) (n : Nat) (tag : BitVec 16), answerOf i = some (n, tag) ∧ (AMap.look s.parts n = none ∨ s.boot ≠ .running) :=
  ⟨.harespAbort 0 0 5, State.reset, 0, 5, rfl, .inl rfl⟩

theorem witness_TheHostAnswers_4 :
    ∃ (i : Instr) (s : State) (n : Nat) (x : Word) (tag : BitVec 16) (p : Part) (cl e : Nat) (g : BitVec 8) (pre post : List (BitVec 16 × HaKind)), (i = .harespResolve n x tag ∨ i = .harespAbort n x tag) ∧ s.boot = .running ∧ PendingRec s n p tag (.xlate cl e g) pre post ∧ e < 256 :=
  ⟨.harespAbort 0 0 5, recorded_ (.xlate 0 255 1), 0, 0, 5, _, 0, 255, 1, [], [], .inr rfl, rfl, ⟨rfl, rfl, fun e he => (nomatch he)⟩, by decide⟩

theorem witness_TheHostAnswers_5 :
    ∃ (s : State) (n : Nat) (x : Word) (tag : BitVec 16) (p : Part) (r : CopyReq) (pre post : List (BitVec 16 × HaKind)), s.boot = .running ∧ PendingRec s n p tag (.copy r) pre post ∧ (∀ q ∈ s.parts, q.2.pieces = []) ∧ (∀ q, s.pool r.vf r.t = some q → q.queue.Nodup) :=
  by
  refine ⟨recorded_ (.copy ⟨0, 9, 0, 0⟩), 0, 0, 5, _, ⟨0, 9, 0, 0⟩, [], [], rfl, ⟨rfl, rfl, fun e he => (nomatch he)⟩, fun q hq => ?_, fun q h => (nomatch h)⟩
  obtain rfl := List.mem_singleton.1 hq
  rfl

theorem witness_TheHostAnswers_6 :
    ∃ (s : State) (n : Nat) (x : Word) (tag : BitVec 16) (p : Part) (v slot patch : Nat) (pre post : List (BitVec 16 × HaKind)), s.boot = .running ∧ PendingRec s n p tag (.relaunch v slot patch) pre post :=
  ⟨recorded_ (.relaunch 0 0 0), 0, 0, 5, _, 0, 0, 0, [], [], rfl, ⟨rfl, rfl, fun e he => (nomatch he)⟩⟩

theorem witness_TheHostAnswers_7 :
    ∃ (s : State) (n : Nat) (x : Word) (tag : BitVec 16) (p : Part) (first count : Nat) (y : Piece) (pre post : List (BitVec 16 × HaKind)), s.boot = .running ∧ PendingRec s n p tag (.pieces first count) pre post ∧ first ≤ x.toNat ∧ x.toNat < first + count ∧ p.ckState = 2 ∧ p.pieces[x.toNat]? = some y :=
  ⟨{ one with parts := [(0, { drainPart 1 0 with haPending := [(5#16, .pieces 0 1)] })] }, 0, 0, 5, _, 0, 1, piece0, [], [], rfl, ⟨rfl, rfl, fun e he => (nomatch he)⟩, by decide, by decide, rfl, rfl⟩

theorem witness_TheHostAnswers_8 :
    ∃ (s : State) (n : Nat) (x : Word) (tag : BitVec 16) (p : Part) (first count : Nat) (pre post : List (BitVec 16 × HaKind)), s.boot = .running ∧ PendingRec s n p tag (.pieces first count) pre post ∧ first ≤ x.toNat ∧ x.toNat < first + count ∧ p.ckState ≠ 2 ∧ p.pieces = [] :=
  ⟨recorded_ (.pieces 0 1), 0, 0, 5, _, 0, 1, [], [], rfl, ⟨rfl, rfl, fun e he => (nomatch he)⟩, by decide, by decide, by decide, rfl⟩

theorem witness_TheHostAnswers_9 :
    ∃ (s : State) (n : Nat) (w : Word) (p : Part), s.boot = .running ∧ AMap.look s.parts n = some p :=
  ⟨one, 0, 7, part0, rfl, rfl⟩

theorem witness_TheHostAnswers_10 :
    ∃ (s : State) (n : Nat) (w : Word), AMap.look s.parts n = none :=
  ⟨State.reset, 0, 7, rfl⟩

theorem witness_TheDeviceStartsAndReports_1 :
    ∃ (s : State) (b : BootOutcome), s.boot = .off :=
  ⟨State.reset, ⟨true, true, true, true, 0, 0xFFF, 0xF⟩, rfl⟩

theorem witness_TheDeviceStartsAndReports_2 :
    ∃ (s : State) (b : BootOutcome), s.boot ≠ .off :=
  ⟨one, ⟨true, true, true, true, 0, 0xFFF, 0xF⟩, by decide⟩

theorem witness_TheDeviceStartsAndReports_3 :
    ∃ (s : State) (stage code unit : Word), s.boot = .safe stage code unit :=
  ⟨{ State.reset with boot := .safe 2 0 0 }, 2, 0, 0, rfl⟩

theorem witness_TheDeviceStartsAndReports_4 :
    ∃ (s : State), (∀ stage code unit, s.boot ≠ .safe stage code unit) :=
  ⟨one, fun _ _ _ h => (nomatch h)⟩

theorem witness_TheDeviceStartsAndReports_5 :
    ∃ (i : Instr) (s : State) (code : BitVec 8), spdmCode s i = some code :=
  ⟨.getMeasurements 24, one, 0x7F, by decide⟩

theorem witness_TheDeviceStartsAndReports_6 :
    ∃ (s : State), (s.parts.map (fun p => p.1)).Nodup :=
  ⟨one, by decide⟩

theorem witness_TheDeviceStartsAndReports_7 :
    ∃ (s : State) (pa : Nat), (pa < 768 * 2 ^ 30 ∨ (2 ^ 48 ≤ pa ∧ pa < 2 ^ 48 + 2 ^ 44)) :=
  ⟨one, 2 ^ 48, .inr ⟨Nat.le_refl _, by decide⟩⟩

theorem witness_TheDeviceStartsAndReports_8 :
    ∃ (s : State) (pa : Nat), (¬ (pa < 768 * 2 ^ 30 ∨ (2 ^ 48 ≤ pa ∧ pa < 2 ^ 48 + 2 ^ 44))) :=
  ⟨one, 768 * 2 ^ 30, by decide⟩

theorem witness_MemoryIsReachedFromOutside_1 :
    ∃ (s : State) (v a : Nat) (bs : List Byte), Coherent s ∧ (∀ q ∈ s.parts, q.2.pieces = []) ∧ ((∀ i < bs.length, ∃ q ∈ s.parts, q.2.owns (a + i) = true)) :=
  ⟨paged one, 0, 768 * 2 ^ 30 - 1, [7#8], bare rfl, by decide, fun i h => ⟨_, List.mem_singleton_self _, ownsAll _ (by simp at h; omega)⟩⟩

theorem witness_MemoryIsReachedFromOutside_2 :
    ∃ (s : State) (v a i : Nat) (bs : List Byte), i < bs.length ∧ (∀ q ∈ s.parts, q.2.owns (a + i) = false) :=
  ⟨State.reset, 0, 0, 0, [7#8], by decide, fun q hq => (nomatch hq)⟩

theorem witness_MemoryIsReachedFromOutside_3 :
    ∃ (s : State) (v va pa : Nat) (bs : List Byte), LineTakes s v va pa bs ∧ ∃ n p, AMap.look s.parts n = some p ∧ p.sysvf = v :=
  by
  refine ⟨paged one, 0, 0x103F, 0x201000, [7#8], ⟨⟨by decide, by decide, by decide⟩, fun u hv hp hd h => ?_, bare rfl, by decide⟩, 0, _, rfl, rfl⟩
  exact walkStays u hv hp hd fun a ha => h a (by simp; omega)

theorem witness_MemoryIsReachedFromOutside_4 :
    ∃ (s : State) (v va : Nat) (protect : Bool) (bs : List Byte), va % 64 + bs.length ≤ 64 ∧ s.walk v (va / 64 * 64) true = .fault protect ∧ bs ≠ [] ∧
    ∃ n p, AMap.look s.parts n = some p ∧ p.sysvf = v :=
  ⟨one, 0, 0x103F, false, [7#8], by decide, noPages (by decide), by decide, 0, part0, rfl, rfl⟩

theorem witness_MemoryIsReachedFromOutside_5 :
    ∃ (s : State) (v va n : Nat), Coherent s ∧ vaGood s v va n :=
  ⟨paged one, 0, 0x1000, 64, bare rfl, bytesGood (pa := 0x201000) (by decide)⟩

theorem witness_MemoryIsReachedFromOutside_6 :
    ∃ (s : State) (m v va n : Nat) (p : Part), AMap.look s.parts m = some p ∧ p.sysvf = v ∧ Coherent s ∧ vaGood s v va n :=
  ⟨paged one, 0, 0, 0x1000, 64, _, rfl, rfl, bare rfl, bytesGood (pa := 0x201000) (by decide)⟩

theorem witness_MemoryIsReachedFromOutside_7 :
    ∃ (s : State) (m v va n i : Nat) (p : Part), Coherent s ∧ i < n ∧ vaGood s v va i ∧ ¬ vaGood s v (va + i) 1 ∧ AMap.look s.parts m = some p ∧ p.sysvf = v :=
  by
  refine ⟨one, 0, 0, 0, 1, 0, part0, bare rfl, by decide, fun i h => (nomatch h), fun h => ?_, rfl, rfl⟩
  obtain ⟨pa, h, _⟩ := h 0 (by decide)
  rw [noPages (by decide)] at h
  exact nomatch h

theorem witness_MemoryIsReachedFromOutside_8 :
    ∃ (s : State) (n ns : Nat) (p : Part), AMap.look s.parts n = some p :=
  ⟨one, 0, 1, part0, rfl⟩

theorem witness_MemoryIsReachedFromOutside_9 :
    ∃ (s : State) (n ns va : Nat) (x : DmaXfer), AMap.look s.parts n = none :=
  ⟨State.reset, 0, 1, 0, .write [7#8], rfl⟩

end

end Sys2Proof.Tests
end

