-- ==== Sys2Proof/Tests/Slice0.lean ====
section
/-! SUPPORT. Tests: the words of the spec's own tables decode to the instructions it says they are, each well-formedness check
refuses a term, and single words give the results of the spec's tables. -/

namespace Sys2Proof.Tests

open Sys2Proof Sys2Proof.Machine Sys2Proof.Claims

section

set_option Elab.async false
set_option linter.unusedVariables false

/-! ## Decoding: the example word of every form in the spec's instruction tables -/

/-- The table of the control-flow words (R39, R76). -/
theorem test_decode_flow :
    decodeSel 0 0x0107FFFD#32 = some (.bra 0 524285) ∧
    decodeSel 0 0x01980002#32 = some (.brc 0 1 true 2) ∧
    decodeSel 0 0x02000005#32 = some (.call 0 5) ∧
    decodeSel 0 0x008007FC#32 = some (.hdr 0 15 15 true) ∧
    decodeSel 0 0x02800000#32 = some (.nop lk0) ∧
    decodeSel 0 0x02A00200#32 = some (.brx 0 4) ∧
    decodeSel 0 0x02C03380#32 = some (.ret 0 103) ∧
    decodeSel 0 0x02E00000#32 = some (.exit lk0) ∧
    decodeSel 0 0x03000000#32 = some (.tail lk0) ∧
    decodeSel 0 0x03200180#32 = some (.prio lk0 3) ∧
    decodeSel 0 0x03400100#32 = some (.sleep lk0 2) ∧
    decodeSel 0 0x03800008#32 = some (.yield lk0 8) ∧
    decodeSel 0 0x04000189#32 = some (.dqput 0 3 9) ∧
    decodeSel 0 0x04214000#32 = some (.dqtake lk0 5) := by
  refine ⟨rfl, rfl, rfl, rfl, rfl, rfl, rfl, rfl, rfl, rfl, rfl, rfl, rfl, rfl⟩

/-- The table of EXT (R50). -/
theorem test_decode_ext :
    decodeSel 0 0x0E001038#32 = some (.ext 0 0 true false 0 7) ∧
    decodeSel 0 0x0E004080#32 = some (.ext 0 2 false false 1 0) := by
  refine ⟨rfl, rfl⟩

/-- The table of the group words (R108). -/
theorem test_decode_groups :
    decodeSel 0 0x0480C100#32 = some (.join lk0 3 2) ∧
    decodeSel 0 0x04A00100#32 = some (.leave lk0 2) ∧
    decodeSel 0 0x04C00100#32 = some (.gbar lk0 2) ∧
    decodeSel 0 0x04E10100#32 = some (.gfire lk0 4 2) ∧
    decodeSel 0 0x05014104#32 = some (.gsig lk0 5 2 4) := by
  refine ⟨rfl, rfl, rfl, rfl, rfl⟩

/-- The table of the integer words (R118). -/
theorem test_decode_integer :
    decodeSel 0 0x05831234#32 = some (.movi lk0 3 4660) ∧
    decodeSel 0 0x0603ABCD#32 = some (.movh lk0 3 43981) ∧
    decodeSel 0 0x068309FF#32 = some (.iaddi lk0 3 4 511) ∧
    decodeSel 0 0x0700C205#32 = some (.iadd lk0 3 4 5) ∧
    decodeSel 0 0x0720C205#32 = some (.isub lk0 3 4 5) ∧
    decodeSel 0 0x0740C205#32 = some (.imul lk0 3 4 5) ∧
    decodeSel 0 0x0760C205#32 = some (.imulh lk0 3 4 5) ∧
    decodeSel 0 0x0780C205#32 = some (.and lk0 3 4 5) ∧
    decodeSel 0 0x07A0C205#32 = some (.or lk0 3 4 5) ∧
    decodeSel 0 0x07C0C205#32 = some (.xor lk0 3 4 5) ∧
    decodeSel 0 0x07E0C205#32 = some (.andn lk0 3 4 5) ∧
    decodeSel 0 0x0800C205#32 = some (.shl lk0 3 4 5) ∧
    decodeSel 0 0x0820C205#32 = some (.shr lk0 3 4 5) ∧
    decodeSel 0 0x0840C205#32 = some (.sar lk0 3 4 5) ∧
    decodeSel 0 0x0860C205#32 = some (.rot lk0 3 4 5) ∧
    decodeSel 0 0x0880C205#32 = some (.imin lk0 3 4 5) ∧
    decodeSel 0 0x08A0C205#32 = some (.imax lk0 3 4 5) ∧
    decodeSel 0 0x08C0C205#32 = some (.umin lk0 3 4 5) ∧
    decodeSel 0 0x08E0C205#32 = some (.umax lk0 3 4 5) ∧
    decodeSel 0 0x0900C200#32 = some (.popc lk0 3 4) ∧
    decodeSel 0 0x0920C200#32 = some (.clz lk0 3 4) ∧
    decodeSel 0 0x0940C200#32 = some (.brev lk0 3 4) ∧
    decodeSel 0 0x0960C200#32 = some (.iabs lk0 3 4) ∧
    decodeSel 0 0x0980C205#32 = some (.sel lk0 3 4 5) ∧
    decodeSel 0 0x09A0C205#32 = some (.lea lk0 3 4 5) ∧
    decodeSel 0 0x09C0C205#32 = some (.imad lk0 3 4 5) ∧
    decodeSel 0 0x09E0C205#32 = some (.idivs lk0 3 4 5) ∧
    decodeSel 0 0x0A00C205#32 = some (.bfx lk0 3 4 5) ∧
    decodeSel 0 0x0A20C205#32 = some (.bfxs lk0 3 4 5) ∧
    decodeSel 0 0x0A40C205#32 = some (.bfi lk0 3 4 5) ∧
    decodeSel 0 0x0A648205#32 = some (.icmp lk0 2 2 4 5) := by
  refine ⟨rfl, rfl, rfl, rfl, rfl, rfl, rfl, rfl, rfl, rfl, rfl, rfl, rfl, rfl, rfl, rfl, rfl, rfl, rfl, rfl, rfl, rfl, rfl, rfl, rfl, rfl, rfl, rfl, rfl, rfl, rfl⟩

/-- The table of the float words (R144). -/
theorem test_decode_float :
    decodeSel 0 0x0A80C205#32 = some (.fadd lk0 3 4 5) ∧
    decodeSel 0 0x0AA0C205#32 = some (.fsub lk0 3 4 5) ∧
    decodeSel 0 0x0AC0C205#32 = some (.fmul lk0 3 4 5) ∧
    decodeSel 0 0x0AE0C205#32 = some (.ffma lk0 3 4 5) ∧
    decodeSel 0 0x0B00C205#32 = some (.fmin lk0 3 4 5) ∧
    decodeSel 0 0x0B20C205#32 = some (.fmax lk0 3 4 5) ∧
    decodeSel 0 0x0B40C200#32 = some (.fabs lk0 3 4) ∧
    decodeSel 0 0x0B648205#32 = some (.fcmp lk0 2 2 4 5) ∧
    decodeSel 0 0x0B80C200#32 = some (.frcp lk0 3 4) ∧
    decodeSel 0 0x0BA0C200#32 = some (.frsq lk0 3 4) ∧
    decodeSel 0 0x0BC0C200#32 = some (.fsqrt lk0 3 4) ∧
    decodeSel 0 0x0BE0C200#32 = some (.fex2 lk0 3 4) ∧
    decodeSel 0 0x0C00C200#32 = some (.flg2 lk0 3 4) ∧
    decodeSel 0 0x0C20C200#32 = some (.ftanh lk0 3 4) ∧
    decodeSel 0 0x0C40C200#32 = some (.fsin lk0 3 4) ∧
    decodeSel 0 0x0C60C200#32 = some (.fcos lk0 3 4) ∧
    decodeSel 0 0x0C80C205#32 = some (.cvtf lk0 3 4 5) ∧
    decodeSel 0 0x0CA0C200#32 = some (.cvtfi lk0 3 4 0) ∧
    decodeSel 0 0x0CC0C200#32 = some (.cvtif lk0 3 4 0) ∧
    decodeSel 0 0x0CE0C205#32 = some (.cvtsr lk0 3 4 5) ∧
    decodeSel 0 0x0D00C205#32 = some (.hfma2 lk0 3 4 5) ∧
    decodeSel 0 0x0D20C205#32 = some (.hadd2 lk0 3 4 5) ∧
    decodeSel 0 0x0D40C205#32 = some (.hmul2 lk0 3 4 5) ∧
    decodeSel 0 0x0D60C205#32 = some (.hmax2 lk0 3 4 5) ∧
    decodeSel 0 0x0D800205#32 = some (.seed lk0 4 5) ∧
    decodeSel 0 0x0DA0C000#32 = some (.rand lk0 3) := by
  refine ⟨rfl, rfl, rfl, rfl, rfl, rfl, rfl, rfl, rfl, rfl, rfl, rfl, rfl, rfl, rfl, rfl, rfl, rfl, rfl, rfl, rfl, rfl, rfl, rfl, rfl, rfl⟩

/-- The table of the cross-lane words (R160). -/
theorem test_decode_crosslane :
    decodeSel 0 0x0E80C205#32 = some (.perm lk0 3 4 5) ∧
    decodeSel 0 0x0EA0C205#32 = some (.bcast lk0 3 4 5) ∧
    decodeSel 0 0x0EC0C208#32 = some (.scan lk0 3 4 8) ∧
    decodeSel 0 0x0EE0C200#32 = some (.redl lk0 3 4 0) ∧
    decodeSel 0 0x0F00C202#32 = some (.vote lk0 3 4 2) ∧
    decodeSel 0 0x0F20C200#32 = some (.matchLanes lk0 3 4) ∧
    decodeSel 0 0x0F40C000#32 = some (.elect lk0 3) ∧
    decodeSel 0 0x0F60C200#32 = some (.lanemask lk0 3 4) := by
  refine ⟨rfl, rfl, rfl, rfl, rfl, rfl, rfl, rfl⟩

/-- The table of the memory words (R194). -/
theorem test_decode_memory :
    decodeSel 0 0x0F831074#32 = some (.ld lk0 3 2 7 false 4) ∧
    decodeSel 0 0x10031074#32 = some (.st lk0 3 2 7 false 4) ∧
    decodeSel 0 0x10831074#32 = some (.lds lk0 3 2 7 false 4) ∧
    decodeSel 0 0x11031074#32 = some (.sts lk0 3 2 7 false 4) ∧
    decodeSel 0 0x11831074#32 = some (.ldw lk0 3 2 7 false 4) ∧
    decodeSel 0 0x12031074#32 = some (.stw lk0 3 2 7 false 4) ∧
    decodeSel 0 0x12801070#32 = some (.pref lk0 2 7 0) ∧
    decodeSel 0 0x13008205#32 = some (.bufset 0 2 4 5) ∧
    decodeSel 0 0x13220000#32 = some (.frec lk0 8) ∧
    decodeSel 0 0x1340C205#32 = some (.migctlStart lk0 3 4 5) ∧
    decodeSel 0 0x13600205#32 = some (.qpush 0 4 5) ∧
    decodeSel 0 0x13818000#32 = some (.qpop lk0 6) ∧
    decodeSel 1 0x13220000#32 = some (.frecXlate lk0 8) ∧
    decodeSel 1 0x1340C205#32 = some (.migctlQuery lk0 3 4 5) ∧
    decodeSel 2 0x1340C205#32 = some (.migctlResolve lk0 3 4 5) ∧
    decodeSel 3 0x1340C205#32 = some (.migctlAbort lk0 3 4 5) ∧
    decodeSel 4 0x1340C205#32 = some (.migctlInvpg lk0 3 4 5) := by
  refine ⟨rfl, rfl, rfl, rfl, rfl, rfl, rfl, rfl, rfl, rfl, rfl, rfl, rfl, rfl, rfl, rfl, rfl⟩

/-- The table of the atomics and barrier words (R218). -/
theorem test_decode_sync :
    decodeSel 0 0x14031074#32 = some (.atom lk0 3 2 7 false 4) ∧
    decodeSel 0 0x14831074#32 = some (.atomAcq lk0 3 2 7 false 4) ∧
    decodeSel 0 0x15031074#32 = some (.atomRel lk0 3 2 7 false 4) ∧
    decodeSel 0 0x15831074#32 = some (.cas lk0 3 2 7 false 4) ∧
    decodeSel 0 0x16031074#32 = some (.atomnr lk0 3 2 7 false 4) ∧
    decodeSel 0 0x16831074#32 = some (.satom lk0 3 2 7 false 4) ∧
    decodeSel 0 0x17000000#32 = some (.acq lk0) ∧
    decodeSel 0 0x17200000#32 = some (.rel lk0) ∧
    decodeSel 0 0x17400000#32 = some (.fence lk0) ∧
    decodeSel 0 0x17600205#32 = some (.bwait lk0 4 5) ∧
    decodeSel 0 0x17800205#32 = some (.binit lk0 4 5) ∧
    decodeSel 0 0x17A0C200#32 = some (.barrive lk0 3 4) ∧
    decodeSel 0 0x17C00205#32 = some (.bexpect lk0 4 5) ∧
    decodeSel 0 0x17E0C205#32 = some (.btest lk0 3 4 5) := by
  refine ⟨rfl, rfl, rfl, rfl, rfl, rfl, rfl, rfl, rfl, rfl, rfl, rfl, rfl, rfl⟩

/-- The table of the engine words (R241). -/
theorem test_decode_engine :
    decodeSel 0 0x18002840#32 = some (.ndef lk0 false 5 4) ∧
    decodeSel 0 0x18102840#32 = some (.nedge lk0 false 5 4) ∧
    decodeSel 0 0x18202800#32 = some (.nfire lk0 false 5) ∧
    decodeSel 0 0x18302840#32 = some (.cpy lk0 false 5 4) ∧
    decodeSel 0 0x18402840#32 = some (.gath lk0 false 5 4) ∧
    decodeSel 0 0x18502840#32 = some (.scat lk0 false 5 4) ∧
    decodeSel 0 0x18602840#32 = some (.nwait lk0 false 5 4) := by
  refine ⟨rfl, rfl, rfl, rfl, rfl, rfl, rfl⟩

/-- The table of the matrix words (R257). -/
theorem test_decode_matrix :
    decodeSel 0 0x188200C0#32 = some (.mresv lk0 2 3) ∧
    decodeSel 0 0x1888010F#32 = some (.mldb lk0 false 4 15) ∧
    decodeSel 0 0x18900101#32 = some (.mgath lk0 false 4 false 1) ∧
    decodeSel 0 0x189A4000#32 = some (.mma lk0 2 1 false false 0) ∧
    decodeSel 0 0x18A0011F#32 = some (.mtrn lk0 false 4 true 15) ∧
    decodeSel 0 0x18AA000F#32 = some (.mzero lk0 2 false 15) ∧
    decodeSel 0 0x18B24102#32 = some (.mst lk0 2 1 false 4 false 2) ∧
    decodeSel 0 0x18B8010F#32 = some (.mscale lk0 0 false 4 false false 15) ∧
    decodeSel 0 0x18C20000#32 = some (.mfree lk0 2) := by
  refine ⟨rfl, rfl, rfl, rfl, rfl, rfl, rfl, rfl, rfl⟩

/-- The table of the tensor words (R277). -/
theorem test_decode_tensor :
    decodeSel 0 0x1900C200#32 = some (.treg lk0 3 4) ∧
    decodeSel 0 0x19200200#32 = some (.tdrop lk0 4) ∧
    decodeSel 0 0x19400205#32 = some (.tfetch lk0 4 5) ∧
    decodeSel 0 0x1960C205#32 = some (.thalo lk0 3 4 5) ∧
    decodeSel 0 0x19800205#32 = some (.tinv lk0 4 5) ∧
    decodeSel 0 0x19A0C205#32 = some (.tlook lk0 3 4 5) := by
  refine ⟨rfl, rfl, rfl, rfl, rfl, rfl⟩

/-- The table of the snapshot and recruitment words (R294). -/
theorem test_decode_snapshot :
    decodeSel 0 0x1A001840#32 = some (.snap lk0 3 4) ∧
    decodeSel 0 0x1A082840#32 = some (.rest lk0 5 4) ∧
    decodeSel 0 0x1A103043#32 = some (.spawn lk0 6 4 3) ∧
    decodeSel 0 0x1A183043#32 = some (.spawnFar lk0 6 4 3) ∧
    decodeSel 0 0x1A200040#32 = some (.drop lk0 4) ∧
    decodeSel 0 0x1A283840#32 = some (.hinfo lk0 7 4 0) ∧
    decodeSel 0 0x1A304094#32 = some (.recruit lk0 8 9 4) ∧
    decodeSel 0 0x1A3850B0#32 = some (.offer lk0 10 11) ∧
    decodeSel 0 0x1A4000C0#32 = some (.hend lk0 12 0) ∧
    decodeSel 0 0x1A487000#32 = some (.hwait lk0 14) ∧
    decodeSel 0 0x1A507800#32 = some (.hkill lk0 15) := by
  refine ⟨rfl, rfl, rfl, rfl, rfl, rfl, rfl, rfl, rfl, rfl, rfl⟩

/-- The table of the pool, queue and grammar words (R330). -/
theorem test_decode_tokens :
    decodeSel 0 0x1A801840#32 = some (.kvnewSeq lk0 3 4 0 false) ∧
    decodeSel 0 0x1A881845#32 = some (.kvapp lk0 3 4 2 true) ∧
    decodeSel 0 0x1A901845#32 = some (.kvfork lk0 3 4 2 true) ∧
    decodeSel 0 0x1A981840#32 = some (.kvfree lk0 3 4 0 false) ∧
    decodeSel 0 0x1AA01840#32 = some (.kvwalk lk0 3 4 0 false) ∧
    decodeSel 0 0x1AA81845#32 = some (.kvinvSet lk0 3 4 2 true) ∧
    decodeSel 0 0x1AB01845#32 = some (.rspan lk0 3 4 2 true) ∧
    decodeSel 0 0x1AB81900#32 = some (.xqsend lk0 3 16) ∧
    decodeSel 0 0x1AC08030#32 = some (.xqrecv lk0 16 3) ∧
    decodeSel 0 0x1AC8A035#32 = some (.gstep lk0 20 3 2 true) ∧
    decodeSel 0 0x1AD04145#32 = some (.gmask lk0 8 20 2 true) ∧
    decodeSel 0 0x1AD81840#32 = some (.kvquotaRd lk0 3 4) ∧
    decodeSel 1 0x1A801840#32 = some (.kvnewPool lk0 3 4 0 false) ∧
    decodeSel 2 0x1A801840#32 = some (.kvnewDrop lk0 3 4 0 false) ∧
    decodeSel 1 0x1A901800#32 = some (.kvforkCow lk0 3 0 false) ∧
    decodeSel 1 0x1A981840#32 = some (.kvfreeTrunc lk0 3 4 0 false) ∧
    decodeSel 1 0x1AA81845#32 = some (.kvinvClr lk0 3 4 2 true) ∧
    decodeSel 1 0x1AC08030#32 = some (.xqrecvDraft lk0 16 3) ∧
    decodeSel 1 0x1AC8A030#32 = some (.gstepBind lk0 20 3 0 false) ∧
    decodeSel 1 0x1AD81840#32 = some (.kvquotaWr lk0 3 4) := by
  refine ⟨rfl, rfl, rfl, rfl, rfl, rfl, rfl, rfl, rfl, rfl, rfl, rfl, rfl, rfl, rfl, rfl, rfl, rfl, rfl, rfl⟩

/-- The table of the system words (R377). -/
theorem test_decode_system :
    decodeSel 0 0x1B000200#32 = some (.trap lk0 4) ∧
    decodeSel 0 0x1B20C205#32 = some (.tretRetry lk0 3 4 5) ∧
    decodeSel 0 0x1B40C00D#32 = some (.sysrd lk0 3 13) ∧
    decodeSel 0 0x1B60020D#32 = some (.syswr lk0 4 13) ∧
    decodeSel 0 0x1B80C200#32 = some (.perf lk0 3 4) ∧
    decodeSel 0 0x1BA0C200#32 = some (.haltctx lk0 3 4) ∧
    decodeSel 0 0x1BC0C000#32 = some (.ckptCut lk0 3) ∧
    decodeSel 0 0x1BE0C000#32 = some (.wdog lk0 3) ∧
    decodeSel 1 0x1B20C205#32 = some (.tretNext lk0 3 4 5) ∧
    decodeSel 2 0x1B20C205#32 = some (.tretEnd lk0 3 4 5) ∧
    decodeSel 1 0x1BC0C000#32 = some (.ckptQuery lk0 3) ∧
    decodeSel 2 0x1BC0C000#32 = some (.ckptAbort lk0 3) ∧
    decodeSel 3 0x1BC0C000#32 = some (.ckptRestore lk0 3) ∧
    decodeSel 1 0x1BE0C200#32 = some (.wdogSet lk0 3 4) := by
  refine ⟨rfl, rfl, rfl, rfl, rfl, rfl, rfl, rfl, rfl, rfl, rfl, rfl, rfl, rfl⟩

/-- A word of no form, of a reserved major, and with a reserved bit set, decodes to nothing (R54). -/
theorem test_decode_refuses : decodeWord 0x00000000#32 = none ∧ decodeWord 0x1C000000#32 = none ∧ decodeWord 0x00800001#32 = none ∧
    decodeSel 5 0x1340C205#32 = none := by decide

/-- The encoder gives the word of R76's and R118's tables back. -/
theorem test_encode : encode (.bra 0 524285) = some 0x0107FFFD#32 ∧ encode (.iaddi lk0 3 4 511) = some 0x068309FF#32 ∧
    encode (.mst lk0 2 1 false 4 false 2) = some 0x18B24102#32 := ⟨rfl, rfl, rfl⟩

/-- A table word of 32 bits is the decoder's word; the SEL 0 form where several forms share it. -/
theorem test_table_word : decodeTableWord 32 0x0700C205 = some (.iadd lk0 3 4 5) ∧ decodeTableWord 32 0x1340C205 = some (.migctlStart lk0 3 4 5) := ⟨rfl, rfl⟩

/-! ## Well-formedness: each check refuses a term -/

theorem test_wf_ext : (Instr.ext 0 5 false false 0 0).wf = false ∧ (Instr.ext 0 1 true false 0 0).wf = false ∧
    (Instr.ext 0 4 false false 0 0).wf = true := by decide
theorem test_wf_condition : (Instr.icmp lk0 12 0 4 5).wf = false ∧ (Instr.fcmp lk0 8 0 4 5).wf = false ∧ (Instr.icmp lk0 11 0 4 5).wf = true := by decide
theorem test_wf_size : (Instr.ld lk0 4 2 5 false 7).wf = false ∧ (Instr.st lk0 4 2 5 false 7).wf = false ∧ (Instr.atom lk0 4 2 5 false 3).wf = false ∧
    (Instr.ld lk0 4 2 5 false 6).wf = true := by decide
theorem test_wf_buffer : (Instr.bufset 0 32 4 5).wf = false ∧ (Instr.bufset 0 31 4 5).wf = true := by decide
theorem test_wf_mask : (Instr.mldb lk0 false 4 0).wf = false ∧ (Instr.mzero lk0 2 false 0).wf = false := by decide
theorem test_wf_matrix_type : (Instr.mma lk0 2 1 false false 11).wf = false ∧ (Instr.mst lk0 2 1 false 4 false 7).wf = false := by decide
theorem test_wf_info : (Instr.hinfo lk0 7 4 4).wf = false ∧ (Instr.hinfo lk0 7 4 3).wf = true := by decide
theorem test_wf_recruit : (Instr.recruit lk0 8 9 0).wf = false ∧ (Instr.recruit lk0 8 9 15).wf = true := by decide
theorem test_wf_predicate : (Instr.kvapp lk0 3 4 2 false).wf = false ∧ (Instr.kvapp lk0 3 4 2 true).wf = true := by decide
theorem test_wf_unit : (Instr.sleepWake 512 0).wf = false ∧ (Instr.sleepWake 511 0).wf = true := by decide

/-! ## Results of the spec's tables -/

/-- The machine with registers and an EXT. -/
def under (x : Ext) (vs : List (Reg × Word)) : State := { oneWith vs with cur := { cur0 with ext := some x } }
def sel (n : BitVec 4) : Ext := { plainExt with sel := n }
def sat (n : BitVec 4) : Ext := { plainExt with sel := n, sat := true }
/-- A register and FSTAT of the thread after a word. -/
def gives (i : State → Host.Outcome State Fault Refusal) (s : State) (r : Reg) : Option (Word × Word) :=
  match i s with
  | .next t => (t.here.cell 0 r).map (fun q => (t.here.rowWord q.1 q.2, t.here.th 0 |>.fstat))
  | _ => none

/-- IADD.sat and ISUB.usat (R120, the table of borderline values). -/
theorem test_add_saturates :
    gives (exec (.iadd lk0 3 4 5)) (under (sat 0) [(4, 0x7FFFFFF0#32), (5, 0x20#32)]) 3 = some (0x7FFFFFFF#32, 0#32) ∧
    gives (exec (.isub lk0 3 4 5)) (under (sat 1) [(4, 0x3#32), (5, 0x5#32)]) 3 = some (0x0#32, 0#32) := by decide

/-- IMULH.ss and IMULH.uu (R121). -/
theorem test_high_products :
    gives (exec (.imulh lk0 3 4 5)) (under (sel 1) [(4, 0xFFFFFFFF#32), (5, 0xFFFFFFFF#32)]) 3 = some (0x0#32, 0#32) ∧
    gives (exec (.imulh lk0 3 4 5)) (oneWith [(4, 0xFFFFFFFF#32), (5, 0xFFFFFFFF#32)]) 3 = some (0xFFFFFFFE#32, 0#32) := by decide

/-- IDIVS (R127): 7 by 0, the most negative number by −1, and the remainder of −7 by 2. -/
theorem test_quotients :
    gives (exec (.idivs lk0 3 4 5)) (oneWith [(4, 0x7#32), (5, 0x0#32)]) 3 = some (0xFFFFFFFF#32, 0#32) ∧
    gives (exec (.idivs lk0 3 4 5)) (under (sel 2) [(4, 0x80000000#32), (5, 0xFFFFFFFF#32)]) 3 = some (0x80000000#32, 0#32) ∧
    gives (exec (.idivs lk0 3 4 5)) (under (sel 3) [(4, 0xFFFFFFF9#32), (5, 0x2#32)]) 3 = some (0xFFFFFFFF#32, 0#32) := by decide

/-- SHL by 32, SAR by 40 and ROT by 33 (R122). -/
theorem test_shifts :
    gives (exec (.shl lk0 3 4 5)) (oneWith [(4, 0x1#32), (5, 0x20#32)]) 3 = some (0x0#32, 0#32) ∧
    gives (exec (.sar lk0 3 4 5)) (oneWith [(4, 0x80000000#32), (5, 0x28#32)]) 3 = some (0xFFFFFFFF#32, 0#32) ∧
    gives (exec (.rot lk0 3 4 5)) (oneWith [(4, 0x80000001#32), (5, 0x21#32)]) 3 = some (0x3#32, 0#32) := by decide

/-- CLZ and POPC of 0, IABS and IABS.sat of the most negative number (R124). -/
theorem test_counts :
    gives (exec (.clz lk0 3 4)) (oneWith [(4, 0x0#32), (5, 0x0#32)]) 3 = some (0x20#32, 0#32) ∧
    gives (exec (.popc lk0 3 4)) (oneWith [(4, 0x0#32), (5, 0x0#32)]) 3 = some (0x0#32, 0#32) ∧
    gives (exec (.iabs lk0 3 4)) (oneWith [(4, 0x80000000#32), (5, 0x0#32)]) 3 = some (0x80000000#32, 0#32) ∧
    gives (exec (.iabs lk0 3 4)) (under (sat 0) [(4, 0x80000000#32), (5, 0x0#32)]) 3 = some (0x7FFFFFFF#32, 0#32) := by decide

/-- BFX, BFXS and BFI with B = 0x0804 (R128). -/
theorem test_fields :
    gives (exec (.bfx lk0 3 4 5)) (oneWith [(4, 0xAB0#32), (5, 0x804#32)]) 3 = some (0xAB#32, 0#32) ∧
    gives (exec (.bfxs lk0 3 4 5)) (oneWith [(4, 0xAB0#32), (5, 0x804#32)]) 3 = some (0xFFFFFFAB#32, 0#32) ∧
    gives (exec (.bfi lk0 3 4 5)) (oneWith [(3, 0xFFFFFFFF#32), (4, 0x12#32), (5, 0x804#32)]) 3 = some (0xFFFFF12F#32, 0#32) := by decide

/-- MOVH keeps the low half (R119). -/
theorem test_movh :
    gives (exec (.movh lk0 3 0x1234)) (oneWith [(3, 0x5678#32)]) 3 = some (0x12345678#32, 0#32) ∧
    gives (exec (.movi lk0 3 0x5678)) (one) 3 = some (0x5678#32, 0#32) := by decide

/-- CVTF to E4M3, E5M2, E2M1 and FP16 (R150, R151, the table of conversions). -/
theorem test_narrowing :
    gives (exec (.cvtf lk0 3 4 112)) (under (sel 8) [(4, 0x43E60000#32)]) 3 = some (0x7E#32, 1#32) ∧
    gives (exec (.cvtf lk0 3 4 112)) (under (sel 8) [(4, 0x43FA0000#32)]) 3 = some (0x7F#32, 5#32) ∧
    gives (exec (.cvtf lk0 3 4 112)) (under (sel 8) [(4, 0xC3FA0000#32)]) 3 = some (0x7F#32, 5#32) ∧
    gives (exec (.cvtf lk0 3 4 112)) (under (sat 8) [(4, 0x43FA0000#32)]) 3 = some (0x7E#32, 0x41#32) ∧
    gives (exec (.cvtf lk0 3 4 112)) (under (sat 9) [(4, 0x7F800000#32)]) 3 = some (0x7B#32, 0x40#32) ∧
    gives (exec (.cvtf lk0 3 4 112)) (under (sel 10) [(4, 0x40A00000#32)]) 3 = some (0x6#32, 1#32) ∧
    gives (exec (.cvtf lk0 3 4 112)) (under (sel 6) [(4, 0x477FF000#32)]) 3 = some (0x7C00#32, 5#32) ∧
    gives (exec (.cvtf lk0 3 4 112)) (under ({ sel 6 with rm := 2 }) [(4, 0x477FF000#32)]) 3 = some (0x7BFF#32, 1#32) ∧
    gives (exec (.cvtf lk0 3 4 112)) (under (sel 5) [(4, 0xFF#32)]) 3 = some (0x7FC00000#32, 0#32) := by decide

/-- CVTFI (R152): 3 × 10⁹, 2.5 and −1.0 (.z32). -/
theorem test_to_integers :
    gives (exec (.cvtfi lk0 3 4 0)) (oneWith [(4, 0x4F32D05E#32)]) 3 = some (0x7FFFFFFF#32, 0x10#32) ∧
    gives (exec (.cvtfi lk0 3 4 0)) (oneWith [(4, 0x40200000#32)]) 3 = some (0x2#32, 1#32) ∧
    gives (exec (.cvtfi lk0 3 4 0)) (under (sel 1) [(4, 0xBF800000#32)]) 3 = some (0x0#32, 0x10#32) := by decide

/-- FMIN of the zeros, FADD.sat of 0.75 and 0.5, and the program of R57: FADD of 2.25 and 3.0 (R145, R146). -/
theorem test_float_sums :
    gives (exec (.fmin lk0 3 4 5)) (oneWith [(4, 0x0#32), (5, 0x80000000#32)]) 3 = some (0x80000000#32, 0#32) ∧
    gives (exec (.fadd lk0 3 4 5)) (under (sat 0) [(4, 0x3F400000#32), (5, 0x3F000000#32)]) 3 = some (0x3F800000#32, 0#32) ∧
    gives (exec (.fadd lk0 3 4 5)) (oneWith [(4, 0x40100000#32), (5, 0x40400000#32)]) 3 = some (0x40A80000#32, 0#32) ∧
    gives (exec (.fmul lk0 3 4 4)) (oneWith [(4, 0x3FC00000#32), (5, 0x0#32)]) 3 = some (0x40100000#32, 0#32) := by decide

/-- FRCP, FRSQ, FSQRT, FEX2 and FLG2 at their poles (R149). -/
theorem test_float_poles :
    gives (exec (.frcp lk0 3 4)) (oneWith [(4, 0x80000000#32)]) 3 = some (0xFF800000#32, 8#32) ∧
    gives (exec (.frsq lk0 3 4)) (oneWith [(4, 0xBF800000#32)]) 3 = some (0x7FC00000#32, 0x10#32) ∧
    gives (exec (.fsqrt lk0 3 4)) (oneWith [(4, 0x80000000#32)]) 3 = some (0x80000000#32, 0#32) ∧
    gives (exec (.fex2 lk0 3 4)) (oneWith [(4, 0x43000000#32)]) 3 = some (0x7F800000#32, 4#32) ∧
    gives (exec (.flg2 lk0 3 4)) (oneWith [(4, 0#32)]) 3 = some (0xFF800000#32, 8#32) := by decide

/-- The generator's first two numbers after a seed of zero (R138, R154): 0 and then 0xD134_2559. -/
theorem test_rand :
    gives (exec (.rand lk0 3)) one 3 = some (0#32, 0#32) ∧
    gives (exec (.rand lk0 3)) (oneCore (fun c => { c with threads := [(0, { thread0 with gen := 1 })] })) 3 = some (0xD1342559#32, 0#32) := by decide

/-- A BRA of OFF −2 in packet 2 goes to packet 0, and one that leaves the segment raises its trap (R79, R79's example word 0x0107_FFFE). -/
theorem test_bra :
    (match exec (.bra 0 524286) { one with cur := { cur0 with pc := 24#32, gpc := 24#32 } } with | .next t => decide (((t.core 0).th 0).pc = 0#32) | _ => false) = true ∧
    (match exec (.bra 0 524286) one with | .next t => decide (t.cur.status = .issued) | _ => true) = false := by decide

/-- A load of element 12 of a record of memory posts one request for its own 4 bytes (R173, R175). -/
theorem test_load :
    (match exec (.ld lk0 4 2 5 false 4) { buffered with cores := buffered.cores.map (fun p => (p.1, Tests.Core.sets p.2 [(5, 12#32)])) } with
     | .next t => (t.core 0).reqs.map (fun r => (r.va, r.width, r.lanes.map (fun l => l.addr))) | _ => []) = [(0, 4, [48])] := by decide

set_option maxRecDepth 8000 in
/-- The word placed where the next step fetches runs as the first instruction: MOVI writes v3 (R119). -/
theorem test_first_step :
    (match step (State.reset.withFetchWord 32 0x05831234) with
     | .next t => (t.core 0).threads.all (fun p => decide ((t.core 0).cell p.1 3 = none) == false &&
         (match (t.core 0).cell p.1 3 with | some q => (t.core 0).rowWord q.1 q.2 == 0x1234#32 | none => false))
     | _ => false) = true := by decide

/-- At reset no start-up has run (log 1, 2). -/
theorem test_reset : State.reset.boot = .off ∧ State.reset.memoriesWf :=
  ⟨rfl, by decide, by decide, by decide, fun p hp => (nomatch hp), fun p hp => (nomatch hp)⟩

/-- DecodingAndEncodingAgree speaks of words that there are: IADD has one. -/
theorem witness_DecodingAndEncodingAgree_1 : ∃ (i : Instr) (w : Word), encode i = some w := ⟨.iadd lk0 3 4 5, _, rfl⟩

end

end Sys2Proof.Tests
end

