-- ==== Sys2Proof/Tests/WitnessUnits.lean ====
section
/-! SUPPORT. Witnesses of the hypotheses of the statements about engine, matrix, tensor and snapshot words. -/

namespace Sys2Proof.Tests

open Sys2Proof Sys2Proof.Machine Sys2Proof.Claims

section

set_option Elab.async false
set_option linter.unusedVariables false


/-- A word of a thread whose SETA and SETB name no flag. -/
theorem noFlag {s : State} {f : Bool} (h : s.active.all (fun u => (flagUsed s u f).isNone) = true) : flagsRoom s f := by
  intro u hu n hn
  have := List.all_eq_true.1 h u hu
  simp [hn] at this

/-- A copy descriptor in v4 to v7: from b0 to b0, 64 elements, no barrier. -/
def engined : State := oneWith [(4, 0x80000000#32)]

/-- The warp of 16 threads, one row each; its warp holds accumulator 7 in `holding`. -/
def wholeCore : Core :=
  { core0 with
    warps := [⟨0, 0, 0, 0xFFFF#64, false⟩], threads := (List.range 16).map (fun i => (i, { Thread.blank with lane := i, map := [i], dl := 255 })),
    rows := (List.range 16).map (fun r => (r, { Row.reset with count := 1 })) }
def whole : State := { one with cores := [(0, wholeCore)], cur := { cur0 with run := List.range 16 } }
def holding : State := { whole with clusters := [(0, { Cluster.reset with claims := [(7, ⟨1, 0, 0⟩)] })] }

theorem wholeWarp {s : State} (h : (s.cur.run.all (fun u => u == inLane s (laneOf s u) && decide (laneOf s u < lanesOf s) && (s.thread u).helper.isNone &&
    AMap.has s.here.threads u) && s.cur.head && (List.range (lanesOf s)).all (fun i => s.cur.run.contains (inLane s i)) && decide s.cur.run.Nodup) = true) :
    WholeWarp s := by
  simp only [Bool.and_eq_true, decide_eq_true_eq, List.all_eq_true, beq_iff_eq] at h
  obtain ⟨⟨⟨h1, h2⟩, h3⟩, h4⟩ := h
  exact ⟨fun u hu => ⟨(h1 u hu).1.1.1, (h1 u hu).1.1.2, Option.isNone_iff_eq_none.1 (h1 u hu).1.2⟩, h2,
    fun i hi => by simpa using h3 i (List.mem_range.2 hi), ⟨h4, fun u hu => (h1 u hu).2⟩⟩

/-- The zero register is a destination of every run. -/
theorem writes_zero {s : State} {n : Nat} (h : (s.active.all (fun u => s.here.dstOk u 108#7) && s.cur.run.all (fun u => AMap.has s.here.threads u) &&
    decide s.cur.run.Nodup && s.active.all (fun u => (s.here.th u).early.isEmpty)) = true) : s.writes 108#7 n := by
  simp only [Bool.and_eq_true, decide_eq_true_eq, List.all_eq_true] at h
  obtain ⟨⟨⟨h1, h2⟩, h3⟩, h4⟩ := h
  refine ⟨rfl, h1, ⟨h3, h2, fun u _ q hq => (nomatch hq), fun u _ v _ _ q hq => (nomatch hq)⟩, fun u hu e he => ?_⟩
  rw [List.isEmpty_iff.1 (h4 u hu)] at he
  exact absurd he (by simp)

/-- Tensor 9 is registered, its number in v4; v5 asks TINV for B = 1, or in `tensored2` for a mode that there is not. -/
def tensored : State :=
  { oneWith [(4, 9#32), (5, 1#32)] with
    vfs := [(0, { VF.reset with tensors := [(9, { Tensor.reset with state := 1, rows := 1, stride := 64, tr := 1, tc := 64 })] })] }
def tensored2 : State := { tensored with cores := (oneWith [(4, 9#32), (5, 2#32)]).cores }

/-- Entry 2 holds a snapshot of the thread, and v5 its handle. -/
def entry2 : Entry :=
  { Entry.reset with state := 1, map := (List.range 13).map (· + 13), resume := 4#7, flags := List.replicate 12 0, dl := 255 }
def frozen : State :=
  oneCore (fun c => { (Tests.Core.sets { c with rows := (List.range 26).map (fun r => (r, { Row.reset with count := 1 })) } [(5, 0x01000002#32)]) with
    damask := [(2, entry2)] })

/-- The same while the thread has an access in flight. -/
def unrested : State :=
  { frozen with cores := [(0, { frozen.here with threads := [(0, { thread0 with flags := setAt Thread.blank.flags 0 1 })] })] }
theorem runs_hold {c : Core} (h : c.threads.all (fun p => decide (p.2.hold = .run)) = true) (p : Nat × Thread) (hp : p ∈ c.threads)
    (e : Nat) (v : Word) : p.2.hold ≠ .rest e v := by
  rw [of_decide_eq_true (List.all_eq_true.1 h p hp)]
  simp
theorem frozenHandle : handleGood frozen.here 0 (reads frozen 0 5) := by unfold handleGood; decide
theorem frozenResumes : resumes frozen.here (entryNamed (reads frozen 0 5)) := .inr (by decide)

/-- The thread's team of one helper has ended with 7 under operation 3. -/
def joined : State := oneCore (fun c => { c with threads := [(0, { thread0 with team := some ⟨0, 1, some 3, [(0, .value 7#32)]⟩ })] })

theorem witness_EngineWordsReachTheUnit_1 :
    ∃ (i : Instr) (s : State) (x : Engine) (op : EngineOp), warpEngine s i = some x ∧ WarpReady s i ∧ MayPost s x ∧ (s.active ≠ [] → x.op = some op) :=
  ⟨.ndef lk0 false 63 4, one, _, .ndef false, rfl, ready (by decide) (by decide), ⟨readies (by decide), by decide, fun a h => (nomatch h), by decide, noFlag (by decide), ⟨by decide, by decide⟩, by unfold noHelpers; decide⟩, fun _ => rfl⟩

theorem witness_EngineWordsReachTheUnit_2 :
    ∃ (i : Instr) (s : State) (x : Engine) (op : EngineOp), warpEngine s i = some x ∧ WarpReady s i ∧ MayPost s x ∧ (s.active ≠ [] → x.op = some op) :=
  ⟨.cpy lk0 false 0 4, engined, _, _, rfl, ready (by decide) (by decide), ⟨readies (by decide), by decide, fun a h => (nomatch h), by decide, noFlag (by decide), ⟨by decide, by decide⟩, by unfold noHelpers; decide⟩, fun _ => rfl⟩

theorem witness_EngineWordsReachTheUnit_3 :
    ∃ (i : Instr) (s : State) (x : Engine) (op : EngineOp), warpEngine s i = some x ∧ WarpReady s i ∧ MayPost s x ∧ (s.active ≠ [] → x.op = some op) :=
  by
  refine ⟨.nwait lk0 false 5 4, one, _, .nwait 4, rfl, ready (by decide) (by decide), ⟨readies (by decide), by decide, fun a h => ?_, by decide, noFlag (by decide), ⟨by decide, by decide⟩, by unfold noHelpers; decide⟩, fun _ => rfl⟩
  obtain rfl := Option.some.inj h
  exact ⟨by decide, by decide, owns_one (by decide)⟩

theorem witness_EngineWordsReachTheUnit_4 :
    ∃ (i : Instr) (s : State) (f : FrontEnd) (x : Engine) (op : EngineOp), frontEngine s f i = some x ∧ FrontReady s i f ∧ (∀ r ∈ x.src, feSrcOk r = true) ∧ (∀ r ∈ x.block, r.toNat ≤ 62) ∧ (∀ r, x.dst = some r → feDstOk r = true) ∧ slotInside s x.slot = true ∧ frontRoom f x.flag ∧ x.op = some op :=
  ⟨.nfire lk0 true 63, front, front0, _, .nfire, rfl, frontReady (by decide), by decide, by decide, fun r h => (nomatch h), by decide, (by unfold frontRoom; intro n h; exact nomatch h), rfl⟩

theorem witness_EngineWordsReachTheUnit_5 :
    ∃ (i : Instr) (s : State) (x : Engine), warpEngine s i = some x ∧ WarpReady s i ∧ s.reads x.src ∧ noHelpers s ∧ (∀ a ∈ x.block, ∀ u ∈ s.active, s.here.blockOk u a 4 = true) ∧ (∀ a, x.dst = some a → dstNamed a = true ∧ ∀ u ∈ s.active, s.here.dstOk u a = true) ∧ s.active ≠ [] ∧ (x.op = none ∨ slotInside s x.slot = false) :=
  ⟨.ndef lk0 false 0 4, oneWith [(4, 2#32)], _, rfl, ready (by decide) (by decide), readies (by decide), by unfold noHelpers; decide, by decide, fun a h => (nomatch h), by decide, .inl rfl⟩

theorem witness_EngineWordsReachTheUnit_6 :
    ∃ (i : Instr) (s : State) (x : Engine), warpEngine s i = some x ∧ WarpReady s i ∧ s.reads x.src ∧ noHelpers s ∧ (∀ a ∈ x.block, ∀ u ∈ s.active, s.here.blockOk u a 4 = true) ∧ (∀ a, x.dst = some a → dstNamed a = true ∧ ∀ u ∈ s.active, s.here.dstOk u a = true) ∧ s.active ≠ [] ∧ (x.op = none ∨ slotInside s x.slot = false) :=
  ⟨.nfire lk0 false 64, one, _, rfl, ready (by decide) (by decide), readies (by decide), by unfold noHelpers; decide, by decide, fun a h => (nomatch h), by decide, .inr (by decide)⟩

theorem witness_MatrixWordsArePosted_1 :
    ∃ (i : Instr) (s : State) (x : Matrix), matrixOf s i = some x ∧ WarpReady s i ∧ WholeWarp s ∧ x.needs ∧ flagsRoom s x.flag :=
  ⟨.mzero lk0 7 false 15, holding, _, rfl, ready (by decide) (by decide), wholeWarp (by decide), by show holds holding 7 = true; decide, noFlag (by decide)⟩

theorem witness_MatrixWordsArePosted_2 :
    ∃ (s : State) (lk : Link) (acc : BitVec 3) (a : Reg), WarpReady s (.mresv lk acc a) ∧ WholeWarp s ∧ s.writes a 4 :=
  ⟨whole, lk0, 7, 108, ready (by decide) (by decide), wholeWarp (by decide), writes_zero (by decide)⟩

theorem witness_MatrixWordsArePosted_3 :
    ∃ (s : State) (lk : Link) (acc : BitVec 3), WarpReady s (.mfree lk acc) ∧ WholeWarp s :=
  ⟨whole, lk0, 0, ready (by decide) (by decide), wholeWarp (by decide)⟩

theorem witness_TensorsAreRegisteredAndDropped_1 :
    ∃ (s : State) (lk : Link) (d a : Reg), WarpReady s (.treg lk d a) ∧ noHelpers s ∧ s.writes d 4 ∧ s.active ≠ [] ∧ feUid ∉ s.active ∧ s.here.blockOk (s.active.headD 0) a 8 = true ∧ noWrap s (fun j => leadReads s (nth a j)) :=
  ⟨one, lk0, 4, 8, ready (by decide) (by decide), by unfold noHelpers; decide, writes_one (u := 0) (by decide), by decide, by decide, by decide, fun r n e _ l hl => (nomatch hl)⟩

theorem witness_TensorsAreRegisteredAndDropped_2 :
    ∃ (s : State) (lk : Link) (f : FrontEnd) (d a : Reg), FrontReady s (.treg lk d a) f ∧ feDstOk d = true ∧ f.noLater d (s.here.clock + 4) ∧ a.toNat ≤ 60 ∧ noWrap s (frontWord s f a) :=
  ⟨front, lk0, front0, 4, 60, frontReady (by decide), by decide, front_noLater _ _, by decide, fun r n e _ l hl => (nomatch hl)⟩

theorem witness_TensorsAreRegisteredAndDropped_3 :
    ∃ (i : Instr) (s : State) (lk : Link) (a b : Reg) (job : SliceJob) (x : Option (Nat × Tensor)), let n := leadReads s a
    let e := s.tensor (myVf s) n
    WarpReady s i ∧ Listed s ∧ noHelpers s ∧ s.reads (if i = .tdrop lk a then [a] else [a, b]) ∧ s.active ≠ [] ∧ feUid ∉ s.active ∧ n < 2 ^ 16 ∧ e.format ≠ 2 ∧ ((i = .tdrop lk a ∧ job = .drop ∧ x = some (n, { e with state := 2 })) ∨ (i = .tinv lk a b ∧ n ≠ 0 ∧ leadReads s b < 2 ∧ job = .inv (decide (leadReads s b = 1)) ∧ x = none)) :=
  ⟨.tdrop lk0 4, tensored, lk0, 4, 5, .drop, _, ready (by decide) (by decide), ⟨by decide, by decide⟩, by unfold noHelpers; decide, readies (by decide), by decide, by decide, by decide, by decide, .inl ⟨rfl, rfl, rfl⟩⟩

theorem witness_TensorsAreRegisteredAndDropped_4 :
    ∃ (i : Instr) (s : State) (lk : Link) (a b : Reg) (job : SliceJob) (x : Option (Nat × Tensor)), let n := leadReads s a
    let e := s.tensor (myVf s) n
    WarpReady s i ∧ Listed s ∧ noHelpers s ∧ s.reads (if i = .tdrop lk a then [a] else [a, b]) ∧ s.active ≠ [] ∧ feUid ∉ s.active ∧ n < 2 ^ 16 ∧ e.format ≠ 2 ∧ ((i = .tdrop lk a ∧ job = .drop ∧ x = some (n, { e with state := 2 })) ∨ (i = .tinv lk a b ∧ n ≠ 0 ∧ leadReads s b < 2 ∧ job = .inv (decide (leadReads s b = 1)) ∧ x = none)) :=
  ⟨.tinv lk0 4 5, tensored, lk0, 4, 5, .inv true, none, ready (by decide) (by decide), ⟨by decide, by decide⟩, by unfold noHelpers; decide, readies (by decide), by decide, by decide, by decide, by decide, .inr ⟨rfl, by decide, by decide, by decide, rfl⟩⟩

theorem witness_TensorsAreRegisteredAndDropped_5 :
    ∃ (i : Instr) (s : State) (lk : Link) (f : FrontEnd) (a b : Reg) (job : SliceJob) (x : Option (Nat × Tensor)), let n := frontLow s f a
    let e := s.tensor (myVf s) n
    FrontReady s i f ∧ feSrcOk a = true ∧ n < 2 ^ 16 ∧ e.format ≠ 2 ∧ ((i = .tdrop lk a ∧ job = .drop ∧ x = some (n, { e with state := 2 })) ∨ (i = .tinv lk a b ∧ feSrcOk b = true ∧ n ≠ 0 ∧ (f.read s.cur.draw b).toNat < 2 ∧ job = .inv (decide ((f.read s.cur.draw b).toNat = 1)) ∧ x = none)) :=
  ⟨.tdrop lk0 4, front, lk0, front0, 4, 5, .drop, _, frontReady (by decide), by decide, by decide, by decide, .inl ⟨rfl, rfl, rfl⟩⟩

theorem witness_TensorsAreRegisteredAndDropped_6 :
    ∃ (i : Instr) (s : State) (lk : Link) (a b : Reg), WarpReady s i ∧ s.active ≠ [] ∧ s.reads [a, b] ∧ (i = .tdrop lk a ∨ i = .tinv lk a b) ∧ (2 ^ 16 ≤ leadReads s a ∨ (s.tensor (myVf s) (leadReads s a)).format = 2 ∨ (i = .tinv lk a b ∧ (leadReads s a = 0 ∨ 2 ≤ leadReads s b))) :=
  ⟨.tdrop lk0 4, oneWith [(4, 65536#32)], lk0, 4, 5, ready (by decide) (by decide), by decide, readies (by decide), .inl rfl, .inl (by decide)⟩

theorem witness_TensorsAreRegisteredAndDropped_7 :
    ∃ (i : Instr) (s : State) (lk : Link) (a b : Reg), WarpReady s i ∧ s.active ≠ [] ∧ s.reads [a, b] ∧ (i = .tdrop lk a ∨ i = .tinv lk a b) ∧ (2 ^ 16 ≤ leadReads s a ∨ (s.tensor (myVf s) (leadReads s a)).format = 2 ∨ (i = .tinv lk a b ∧ (leadReads s a = 0 ∨ 2 ≤ leadReads s b))) :=
  ⟨.tinv lk0 4 5, tensored2, lk0, 4, 5, ready (by decide) (by decide), by decide, readies (by decide), .inr rfl, .inr (.inr ⟨rfl, .inr (by decide)⟩)⟩

theorem witness_TilesAreFetchedPushedAndLookedUp_1 :
    ∃ (s : State) (lk : Link) (a b : Reg), WarpReady s (.tfetch lk a b) ∧ Listed s ∧ s.reads [a, b] ∧ (∀ u ∈ s.active, (reads s u a).toNat < 2 ^ 24) :=
  ⟨oneWith [(4, 0xFFFFFF#32)], lk0, 4, 5, ready (by decide) (by decide), ⟨by decide, by decide⟩, readies (by decide), by decide⟩

theorem witness_TilesAreFetchedPushedAndLookedUp_2 :
    ∃ (s : State) (lk : Link) (d a b : Reg), WarpReady s (.thalo lk d a b) ∧ noHelpers s ∧ s.reads [a, b] ∧ s.writes d 4 ∧ s.active ≠ [] ∧ GoodHalo s (leadReads s a) :=
  ⟨oneWith [(4, 0x1000000#32)], lk0, 6, 4, 5, ready (by decide) (by decide), by unfold noHelpers; decide, readies (by decide), writes_one (u := 0) (by decide), by decide, ⟨by decide, by decide, by decide, fun h => absurd h (by decide)⟩⟩

theorem witness_TilesAreFetchedPushedAndLookedUp_3 :
    ∃ (s : State) (lk : Link) (d a b : Reg), WarpReady s (.tlook lk d a b) ∧ s.reads [a, b] ∧ s.writes d 4 :=
  ⟨one, lk0, 6, 4, 5, ready (by decide) (by decide), readies (by decide), writes_one (u := 0) (by decide)⟩

theorem witness_TilesAreFetchedPushedAndLookedUp_4 :
    ∃ (s : State) (f : FrontEnd) (lk : Link) (d a b : Reg), feSrcOk a = true ∧ feSrcOk b = true ∧ FrontReady s (.tfetch lk a b) f ∧ frontLow s f a < 2 ^ 24 ∧ FrontReady s (.tlook lk d a b) f :=
  ⟨front, front0, lk0, 6, 4, 5, by decide, by decide, frontReady (by decide), by decide, frontReady (by decide)⟩

theorem witness_SnapshotsFreezeAndResumeThreads_1 :
    ∃ (s : State) (lk : Link) (d a : Reg), WarpReady s (.snap lk d a) ∧ Listed s ∧ noHelpers s ∧ RowsCounted s.here ∧ OneReg s d ∧ OneReg s a ∧ d ≠ a ∧ ((∀ r ∈ [d, a], s.here.Owns s.cur.run r ∨ rowsToSpare s.here s.active)) :=
  ⟨one, lk0, 4, 5, ready (by decide) (by decide), ⟨by decide, by decide⟩, by unfold noHelpers; decide, rowsCounted (by decide) (by decide) (by decide) (by decide) (by decide) (by decide), oneReg_one (u := 0) (by decide), oneReg_one (u := 0) (by decide), by decide, fun r _ => .inr (spareRows (by decide))⟩

theorem witness_SnapshotsFreezeAndResumeThreads_2 :
    ∃ (s : State) (lk : Link) (d a : Reg), WarpReady s (.rest lk d a) ∧ Listed s ∧ noHelpers s ∧ s.reads [d, a] ∧ (∀ u ∈ s.active, handleGood s.here u (reads s u a) ∧ resumes s.here (entryNamed (reads s u a)) ∧ atRest s u) ∧ RowsCounted s.here ∧ rowsToSpare s.here s.active :=
  by
  refine ⟨frozen, lk0, 4, 5, ready (by decide) (by decide), ⟨by decide, by decide⟩, by unfold noHelpers; decide, readies (by decide), fun u hu => ?_, rowsCounted (by decide) (by decide) (by decide) (by decide) (by decide) (by decide), spareRows (by decide)⟩
  obtain rfl : u = 0 := List.mem_singleton.1 hu
  exact ⟨frozenHandle, frozenResumes, by unfold atRest; decide⟩

theorem witness_SnapshotsFreezeAndResumeThreads_3 :
    ∃ (s : State) (lk : Link) (d a : Reg), WarpReady s (.rest lk d a) ∧ Listed s ∧ noHelpers s ∧ s.reads [d, a] ∧ (∀ u ∈ s.active, handleGood s.here u (reads s u a) ∧ ¬ atRest s u) :=
  by
  refine ⟨unrested, lk0, 4, 5, ready (by decide) (by decide), ⟨by decide, by decide⟩, by unfold noHelpers; decide, readies (by decide), fun u hu => ?_⟩
  obtain rfl : u = 0 := List.mem_singleton.1 hu
  exact ⟨by unfold handleGood; decide, by unfold atRest; decide⟩

theorem witness_SiblingsStart_1 :
    ∃ (i : Instr) (s : State) (lk : Link) (d a : Reg) (n : BitVec 4) (l : Launch) (k : Nat), WarpReady s i ∧ Listed s ∧ noHelpers s ∧ (i = .spawn lk d a n ∨ i = .spawnFar lk d a n) ∧ (n = 0#4 → s.cur.ext.isSome = true ∧ s.ext.c3 ≠ 0#7) ∧ s.reads (if n = 0#4 then [a, s.ext.c3] else [a]) ∧ OneReg s d ∧ s.here.Owns s.cur.run d ∧ (∀ u ∈ s.active, handleGood s.here u (reads s u a) ∧ resumes s.here (entryNamed (reads s u a))) ∧ RowsCounted s.here ∧ WarpsNumbered s.here ∧ s.here.launch = some k ∧ s.launch k = some l ∧ l.spawnNext < 2 ^ 31 ∧ (l.hdr.width = 16 ∨ l.hdr.width = 32 ∨ l.hdr.width = 64) :=
  by
  refine ⟨.spawn lk0 4 5 15, frozen, lk0, 4, 5, 15, launch0, 0, ready (by decide) (by decide), ⟨by decide, by decide⟩, by unfold noHelpers; decide, .inl rfl, fun h => (nomatch h), readies (by decide), oneReg_one (u := 0) (by decide), owns_one (by decide), fun u hu => ?_, rowsCounted (by decide) (by decide) (by decide) (by decide) (by decide) (by decide), ⟨by decide, by decide, fun g u h => (nomatch h)⟩, rfl, rfl, by decide, by decide⟩
  obtain rfl : u = 0 := List.mem_singleton.1 hu
  exact ⟨frozenHandle, frozenResumes⟩

theorem witness_SiblingsStart_2 :
    ∃ (i : Instr) (s : State) (lk : Link) (d a : Reg) (n : BitVec 4) (l : Launch), i = .spawn lk d a n ∧ WarpReady s i ∧ s.launch 0 = some l ∧
    let total := (s.active.map (asked s n)).sum
    0 < total ∧ l.spawnNext + total < 2 ^ 31 ∧ ∀ u ∈ s.active, roomIn s.here (entrySlice s a u) total :=
  ⟨_, frozen, lk0, 4, 5, 15, launch0, rfl, ready (by decide) (by decide), rfl, by decide, by decide, by unfold roomIn; decide⟩

theorem witness_HandlesAreCheckedDroppedAndRead_1 :
    ∃ (s : State) (lk : Link) (a : Reg), WarpReady s (.drop lk a) ∧ Listed s ∧ noHelpers s ∧ s.reads [a] ∧ (∀ u ∈ s.active, handleGood s.here u (reads s u a)) :=
  by
  refine ⟨frozen, lk0, 5, ready (by decide) (by decide), ⟨by decide, by decide⟩, by unfold noHelpers; decide, readies (by decide), fun u hu => ?_⟩
  obtain rfl : u = 0 := List.mem_singleton.1 hu
  exact frozenHandle

theorem witness_HandlesAreCheckedDroppedAndRead_2 :
    ∃ c : Core, RowsCounted c ∧ (c.drops.map (fun x => x.1)).Nodup ∧ (∀ x ∈ c.drops, (c.entry x.1).state = 1) ∧ (∀ p ∈ c.threads, ∀ e v, p.2.hold ≠ .rest e v) :=
  ⟨{ frozen.here with drops := [(2, 0)] }, rowsCounted (by decide) (by decide) (by decide) (by decide) (by decide) (by decide), by decide, by decide, fun p hp => runs_hold (c := frozen.here) (by decide) p hp⟩

theorem witness_HandlesAreCheckedDroppedAndRead_3 :
    ∃ (s : State) (lk : Link) (d a : Reg) (n : BitVec 4), WarpReady s (.hinfo lk d a n) ∧ s.reads [a] ∧ s.writes d 4 ∧ (∀ u ∈ s.active, s.here.blockOk u d 1 = true) :=
  ⟨frozen, lk0, 4, 5, 3, ready (by decide) (by decide), readies (by decide), writes_one (u := 0) (by decide), by decide⟩

theorem witness_HandlesAreCheckedDroppedAndRead_4 :
    ∃ (i : Instr) (s : State) (lk : Link) (d a : Reg) (n : BitVec 4) (u : Nat), WarpReady s i ∧ Listed s ∧ noHelpers s ∧ (i = .rest lk d a ∨ (i = .spawn lk d a n ∧ n ≠ 0#4) ∨ (i = .spawnFar lk d a n ∧ n ≠ 0#4) ∨ i = .drop lk a) ∧ s.reads [d, a] ∧ (∀ v ∈ s.active, s.here.blockOk v d 1 = true) ∧ u ∈ s.active ∧ ¬ handleGood s.here u (reads s u a) ∧ (∀ v ∈ s.active.takeWhile (fun v => !(v == u)), handleGood s.here v (reads s v a)) :=
  ⟨.drop lk0 4, frozen, lk0, 6, 4, 0, 0, ready (by decide) (by decide), ⟨by decide, by decide⟩, by unfold noHelpers; decide, .inr (.inr (.inr rfl)), readies (by decide), by decide, by decide, by unfold handleGood; decide, by intro v hv; exact nomatch hv⟩

theorem witness_HelpersAreRecruited_1 :
    ∃ (s : State) (lk : Link) (d a : Reg), WarpReady s (.offer lk d a) ∧ noHelpers s ∧ s.reads [a] ∧ s.writes d 4 ∧ (∀ u ∈ s.active, s.here.blockOk u d 1 = true) :=
  ⟨one, lk0, 4, 5, ready (by decide) (by decide), by unfold noHelpers; decide, readies (by decide), writes_one (u := 0) (by decide), by decide⟩

theorem witness_HelpersAreRecruited_2 :
    ∃ (s : State) (lk : Link) (d a : Reg) (n : BitVec 4), WarpReady s (.recruit lk d a n) ∧ Listed s ∧ noHelpers s ∧ s.reads [a] ∧ OneReg s d ∧ s.here.Owns s.cur.run d ∧ rowsToSpare s.here s.active ∧ RowsCounted s.here ∧ (s.here.warps.map (fun w => w.id)).Nodup ∧ lanesOf s ≤ 64 ∧ (∀ u ∈ s.active, inSegment s (reads s u a).toNat) :=
  ⟨one, lk0, 4, 5, 15, ready (by decide) (by decide), ⟨by decide, by decide⟩, by unfold noHelpers; decide, readies (by decide), oneReg_one (u := 0) (by decide), owns_one (by decide), spareRows (by decide), rowsCounted (by decide) (by decide) (by decide) (by decide) (by decide) (by decide), by decide, by decide, by unfold inSegment; decide⟩

theorem witness_HelpersEndAndAreJoined_1 :
    ∃ (s : State) (lk : Link) (d : Reg), WarpReady s (.hwait lk d) ∧ noHelpers s ∧ WritesBlock s d 2 4 ∧ (∀ u ∈ s.active, ∀ x, (s.thread u).team = some x → teamGood x) ∧ (∀ u ∈ s.active, ∀ x, (s.thread u).team = some x → ∀ k, x.op = some k → k < 4) :=
  by
  refine ⟨joined, lk0, 4, ready (by decide) (by decide), by unfold noHelpers; decide, writesBlock_one (u := 0) (by decide), fun u hu x hx => ?_, fun u hu x hx k hk => ?_⟩
  · obtain rfl : u = 0 := List.mem_singleton.1 hu
    obtain rfl := Option.some.inj hx
    refine ⟨by decide, fun j _ i p h => ?_⟩
    simp only [AMap.look] at h
    split at h <;> exact nomatch h
  · obtain rfl : u = 0 := List.mem_singleton.1 hu
    obtain rfl := Option.some.inj hx
    obtain rfl := Option.some.inj hk
    decide

theorem witness_HelpersEndAndAreJoined_2 :
    ∃ (s : State) (lk : Link) (d : Reg), WarpReady s (.hkill lk d) ∧ Listed s ∧ noHelpers s ∧ OneReg s d ∧ s.here.Owns s.cur.run d ∧ RowsCounted s.here ∧ parkedOwn s.here ∧ (∀ u ∈ s.active, ¬ isParked s.here u) :=
  by
  refine ⟨one, lk0, 4, ready (by decide) (by decide), ⟨by decide, by decide⟩, by unfold noHelpers; decide, oneReg_one (u := 0) (by decide), owns_one (by decide), rowsCounted (by decide) (by decide) (by decide) (by decide) (by decide) (by decide), parkedOwn_none (by decide), fun u hu => ?_⟩
  rintro ⟨n, d, h⟩
  rw [noneParked (by decide)] at h
  exact nomatch h

end

end Sys2Proof.Tests
end

section
/-! PROOFS (the safe state, O60). What the device is and how it runs (start-up, DEVCAP, the variant, the clock) is changed by start-up,
a reset, RETRAIN and CLOCK_STEP alone: a rule for every operation on the state, in the order of the model's files, then one for every
instruction. -/

namespace Sys2Proof.Machine

open Sys2Proof

/-- What of the device no work on it changes: how far start-up has come, DEVCAP, the variant and the clock's rate. -/
def State.standing (s : State) : Boot × Word × Nat × Nat := (s.boot, s.devcap, s.variant, s.clockMHz)

@[simp] theorem State.standing_mk (boot devcap variant clock mem poison brocade parts quanta vfs dies clusters cores launches nextLaunch
    sched saves images hostMem out agenda draws now arb drainPart sysOld plan cur) :
    (State.mk boot devcap variant clock mem poison brocade parts quanta vfs dies clusters cores launches nextLaunch sched
      saves images hostMem out agenda draws now arb drainPart sysOld plan cur).standing = (boot, devcap, variant, clock) := by rfl

@[simp] theorem State.standing_fold (s : State) : (s.boot, s.devcap, s.variant, s.clockMHz) = s.standing := by rfl

@[simp] theorem State.standing_ite (p : Prop) [Decidable p] (s t : State) :
    (if p then s else t).standing = if p then s.standing else t.standing := by split <;> rfl

@[simp] theorem foldl_standing {α : Type} (f : State → α → State) (h : ∀ s a, (f s a).standing = s.standing) (l : List α) (s : State) :
    (l.foldl f s).standing = s.standing := by
  induction l generalizing s with
  | nil => rfl
  | cons a l ih => rw [List.foldl_cons, ih, h]

/-- The same for a fold that carries a value beside the state. -/
@[simp] theorem foldl_fst_standing {α β : Type} (f : State × β → α → State × β) (h : ∀ x a, (f x a).1.standing = x.1.standing) (l : List α)
    (x : State × β) : (l.foldl f x).1.standing = x.1.standing := by
  induction l generalizing x with
  | nil => rfl
  | cons a l ih => rw [List.foldl_cons, ih, h]

/-! ### The operations of Machine/Ops.lean -/

@[simp] theorem State.setCore_standing (s : State) (i : Nat) (c : Core) : (s.setCore i c).standing = s.standing := by rfl

@[simp] theorem State.setCluster_standing (s : State) (i : Nat) (c : Cluster) : (s.setCluster i c).standing = s.standing := by rfl

@[simp] theorem State.setVf_standing (s : State) (i : Nat) (v : VF) : (s.setVf i v).standing = s.standing := by rfl

@[simp] theorem State.setDie_standing (s : State) (i : Nat) (d : Die) : (s.setDie i d).standing = s.standing := by rfl

@[simp] theorem State.setQuantum_standing (s : State) (i : Nat) (q : Quantum) : (s.setQuantum i q).standing = s.standing := by rfl

@[simp] theorem State.setPart_standing (s : State) (i : Nat) (p : Part) : (s.setPart i p).standing = s.standing := by rfl

@[simp] theorem State.setLaunch_standing (s : State) (i : Nat) (l : Launch) : (s.setLaunch i l).standing = s.standing := by rfl

@[simp] theorem State.onCore_standing (s : State) (i : Nat) (f : Core → Core) : (s.onCore i f).standing = s.standing := by rfl

@[simp] theorem State.count_standing (s : State) (v code n : Nat) : (s.count v code n).standing = s.standing := by
  simp [State.count]

@[simp] theorem State.send_standing (s : State) (m : Message) : (s.send m).standing = s.standing := by rfl

@[simp] theorem State.settleClaims_standing (s : State) (cl : Nat) : (s.settleClaims cl).standing = s.standing := by rfl

@[simp] theorem State.freeClaims_standing (s : State) (core : Nat) : (s.freeClaims core).standing = s.standing := by
  simp [State.freeClaims]

@[simp] theorem State.endLaunch_standing (s : State) (l : Nat) (r : TrapRec) : (s.endLaunch l r).standing = s.standing := by
  unfold State.endLaunch; split <;> simp

@[simp] theorem State.raise_standing (s : State) (t : TrapInfo) (pc : Word) : (s.raise t pc).standing = s.standing := by
  unfold State.raise
  dsimp only
  repeat' split
  all_goals simp

/-! ### The operations of Machine/Issue.lean -/

@[simp] theorem State.setFe_standing (s : State) (x : FrontEnd) : (s.setFe x).standing = s.standing := by rfl

/-! ### The operations of Machine/Paging.lean -/

@[simp] theorem State.failCkpt_standing (s : State) (part err : Nat) : (s.failCkpt part err).standing = s.standing := by
  unfold State.failCkpt; split <;> simp

@[simp] theorem State.reservePiece_standing (s : State) (part i : Nat) : (s.reservePiece part i).standing = s.standing := by
  unfold State.reservePiece
  repeat' split
  all_goals simp

@[simp] theorem State.unfreeze_standing (s : State) (pas : List Nat) : (s.unfreeze pas).standing = s.standing :=
  foldl_standing _ (fun s pa => by split <;> simp) pas s

@[simp] theorem State.translate_standing (s : State) (core v va : Nat) (write : Bool) :
    (s.translate core v va write).1.standing = s.standing := by
  unfold State.translate
  repeat' split
  all_goals simp

@[simp] theorem State.translateAll_standing (core v : Nat) (write : Bool) (vas : List Nat) : ∀ s : State,
    (s.translateAll core v write vas).1.standing = s.standing := by
  induction vas with
  | nil => intro s; rfl
  | cons va vas ih =>
    intro s
    unfold State.translateAll
    have h := s.translate_standing core v va write
    split
    next s1 p e => simpa [e] using h
    next s1 pa e =>
      have h1 : s1.standing = s.standing := by simpa [e] using h
      have h2 := ih s1
      split <;> simp_all

@[simp] theorem State.invalidatePage_standing (s : State) (v va : Nat) : (s.invalidatePage v va).standing = s.standing := by rfl

/-! ### The operations of Machine/Brocade.lean -/

@[simp] theorem State.revoke_standing (s : State) (l : BLine) (m : BitVec 16) (keep : Option Nat) :
    (s.revoke l m keep).standing = s.standing := by
  simp [State.revoke]

@[simp] theorem State.writeBack_standing (s : State) (l : BLine) : (s.writeBack l).standing = s.standing := by
  unfold State.writeBack; split <;> simp

@[simp] theorem State.evict_standing (s : State) (l : BLine) : (s.evict l).standing = s.standing := by
  simp [State.evict]

@[simp] theorem State.makeRoom_standing (s : State) (slice : Nat) : (s.makeRoom slice).standing = s.standing := by
  unfold State.makeRoom
  dsimp only
  repeat' split
  all_goals simp

@[simp] theorem State.bring_standing (s : State) (k : Key) (va : Nat) (pas : List Nat) : (s.bring k va pas).1.standing = s.standing := by
  unfold State.bring; dsimp only; split <;> simp

@[simp] theorem State.putLine_standing (s : State) (l : BLine) : (s.putLine l).standing = s.standing := by rfl

@[simp] theorem State.homeRead_standing (s : State) (k : Key) (va : Nat) (pas : List Nat) (off n : Nat) :
    (s.homeRead k va pas off n).1.standing = s.standing := by
  simp [State.homeRead]

@[simp] theorem State.homeWrite_standing (s : State) (k : Key) (va : Nat) (pas : List Nat) (off : Nat) (bs : List Byte)
    (owner : Option Nat) :
    (s.homeWrite k va pas off bs owner).standing = s.standing := by
  unfold State.homeWrite; split <;> simp

/-! ### The operations of Machine/PoolData.lean -/

@[simp] theorem State.physPutRaw_standing (s : State) (pa : Nat) (bs : List Byte) : (s.physPutRaw pa bs).standing = s.standing :=
  foldl_standing _ (fun s l => by split <;> simp) s.brocade s

@[simp] theorem State.physPut_standing (s : State) (pa : Nat) (bs : List Byte) : (s.physPut pa bs).standing = s.standing := by
  simp [State.physPut]

@[simp] theorem State.agentWrite_standing (s : State) (k : Key) (va off : Nat) (bs : List Byte) :
    (s.agentWrite k va off bs).standing = s.standing := by
  unfold State.agentWrite; split <;> simp

@[simp] theorem State.setPool_standing (s : State) (v t : Nat) (p : Pool) : (s.setPool v t p).standing = s.standing := by rfl

@[simp] theorem State.putHeader_standing (s : State) (v t g : Nat) (h : PageHeader) : (s.putHeader v t g h).standing = s.standing := by
  unfold State.putHeader; split <;> simp

@[simp] theorem State.putSeq_standing (s : State) (v t i : Nat) (r : SeqRec) : (s.putSeq v t i r).standing = s.standing := by
  unfold State.putSeq; split <;> simp

@[simp] theorem State.markPage_standing (s : State) (k : Key) : (s.markPage k).standing = s.standing := by
  unfold State.markPage; split <;> simp

/-! ### The operations of Machine/HostAssist.lean -/

@[simp] theorem State.writeHa_standing (s : State) (part : Nat) (p : Part) (k : HaKind) : (s.writeHa part p k).standing = s.standing := by
  simp [State.writeHa]

@[simp] theorem State.postHa_standing (s : State) (part : Nat) (k : HaKind) : (s.postHa part k).standing = s.standing := by
  unfold State.postHa; split <;> simp

@[simp] theorem State.drainHa_standing (part n : Nat) : ∀ s : State, (s.drainHa part n).standing = s.standing := by
  induction n with
  | zero => intro s; rfl
  | succ n ih =>
    intro s
    unfold State.drainHa
    repeat' split
    all_goals simp [ih]

@[simp] theorem State.postHaVf_standing (s : State) (v : Nat) (k : HaKind) : (s.postHaVf v k).standing = s.standing := by
  unfold State.postHaVf; split <;> simp

/-! ### The operations of Machine/Access.lean -/

@[simp] theorem State.countRecords_standing (s before : State) (core : Nat) :
    (s.countRecords before core).standing = s.standing := by
  simp [State.countRecords]

/-! ### The operations of Machine/Service.lean -/

@[simp] theorem State.reqsChanged_standing (s : State) (core : Nat) : (s.reqsChanged core).standing = s.standing := by rfl

theorem State.openX_standing {s s1 : State} {cl v va e : Nat} {write protect : Bool}
    (h : s.openX cl v va write protect = some (s1, e)) : s1.standing = s.standing := by
  unfold State.openX at h
  dsimp only at h
  repeat' split at h
  all_goals cases h
  all_goals simp

@[simp] theorem State.holdReq_standing (s : State) (core : Nat) (r : Req) : (s.holdReq core r).standing = s.standing := by rfl

@[simp] theorem State.attachReq_standing (s : State) (core : Nat) (r : Req) (va : Nat) (protect : Bool) :
    (s.attachReq core r va protect).standing = s.standing := by
  unfold State.attachReq
  split
  · simp
  · split
    next => simp
    next s1 e h => simp [State.openX_standing h]

@[simp] theorem State.walkReq_standing (s : State) (core : Nat) (r : Req) : (s.walkReq core r).standing = s.standing := by
  unfold State.walkReq
  dsimp only
  repeat' split
  all_goals simp

@[simp] theorem State.closeX_standing (s : State) (cl e : Nat) : (s.closeX cl e).standing = s.standing := by rfl

@[simp] theorem State.unstall_standing (s : State) (cl e : Nat) : (s.unstall cl e).standing = s.standing := by
  simp [State.unstall]

@[simp] theorem State.resolveX_standing (s : State) (cl e : Nat) : (s.resolveX cl e).standing = s.standing := by
  simp [State.resolveX]

@[simp] theorem State.loadLine_standing (s : State) (core : Nat) (k : Key) (va : Nat) (pas : List Nat) (need : BitVec 4) (keep : Bool) :
    (s.loadLine core k va pas need keep).1.standing = s.standing := by
  unfold State.loadLine
  dsimp only
  repeat' split
  all_goals simp

@[simp] theorem State.installAt_standing (s : State) (r : Req) (cores : List Nat) : (s.installAt r cores).standing = s.standing := by
  simp [State.installAt]

@[simp] theorem State.arriveLoad_standing (s : State) (core : Nat) (r : Req) : (s.arriveLoad core r).standing = s.standing := by
  unfold State.arriveLoad
  dsimp only
  repeat' split
  all_goals simp

@[simp] theorem State.storeLanes_standing (core : Nat) (r : Req) (ls : List LaneReq) : ∀ s : State,
    (s.storeLanes core r ls).standing = s.standing := by
  induction ls with
  | nil => intro s; rfl
  | cons l ls ih =>
    intro s
    unfold State.storeLanes
    split <;> simp [ih]

@[simp] theorem State.registerStore_standing (s : State) (core : Nat) (r : Req) : (s.registerStore core r).standing = s.standing := by
  simp [State.registerStore]

@[simp] theorem State.grantStore_standing (s : State) (core : Nat) (r : Req) : (s.grantStore core r).standing = s.standing := by rfl

@[simp] theorem State.atomLanes_standing (core : Nat) (r : Req) (op : AtomOp) (ls : List LaneReq) : ∀ s : State,
    (s.atomLanes core r op ls).1.standing = s.standing := by
  induction ls with
  | nil => intro s; rfl
  | cons l ls ih =>
    intro s
    unfold State.atomLanes
    dsimp only
    repeat' split
    all_goals simp [ih]

@[simp] theorem State.disown_standing (s : State) (k : Key) (m : BitVec 16) : (s.disown k m).standing = s.standing := by
  unfold State.disown; split <;> simp

@[simp] theorem State.performAtomic_standing (s : State) (core : Nat) (r : Req) (op : AtomOp) :
    (s.performAtomic core r op).standing = s.standing := by
  simp [State.performAtomic]

@[simp] theorem State.returnAtomic_standing (s : State) (core : Nat) (r : Req) (returns acq : Bool) :
    (s.returnAtomic core r returns acq).standing = s.standing := by rfl

/-! ### The operations of Machine/Engines.lean -/

@[simp] theorem State.completeOn_standing (s : State) (core : Nat) (ids : List Nat) (vals : List Word) :
    (s.completeOn core ids vals).standing = s.standing := by rfl

@[simp] theorem State.settleWaits_standing (s : State) (cl n : Nat) : (s.settleWaits cl n).standing = s.standing := by
  simp [State.settleWaits]

@[simp] theorem State.applyWord_standing (s : State) (cl : Nat) (w : EngineWord) : (s.applyWord cl w).standing = s.standing := by
  unfold State.applyWord; split <;> simp

@[simp] theorem State.finishSlot_standing (s : State) (cl n : Nat) : (s.finishSlot cl n).standing = s.standing := by
  simp [State.finishSlot]

@[simp] theorem State.stallOn_standing (s : State) (cl v : Nat) (write : Bool) (f : Nat × Bool) :
    (s.stallOn cl v write f).1.standing = s.standing := by
  unfold State.stallOn
  split
  next s1 e h => exact State.openX_standing h
  next => rfl

@[simp] theorem State.readElem_standing (s : State) (core v : Nat) (b : BufRec) (i : Nat) :
    (s.readElem core v b i).1.standing = s.standing := by
  unfold State.readElem
  dsimp only
  repeat' split
  all_goals simp

@[simp] theorem State.writeElem_standing (s : State) (core v : Nat) (b : BufRec) (i : Nat) (bs : List Byte) :
    (s.writeElem core v b i bs).1.standing = s.standing := by
  unfold State.writeElem
  dsimp only
  repeat' split
  all_goals simp

@[simp] theorem State.setSlot_standing (s : State) (cl n : Nat) (j : JSlot) : (s.setSlot cl n j).standing = s.standing := by rfl

@[simp] theorem State.moveElem_standing (s : State) (cl n : Nat) (j : JSlot) (src dst : Option Nat) :
    (s.moveElem cl n j src dst).standing = s.standing := by
  unfold State.moveElem
  dsimp only
  repeat' split
  all_goals simp

@[simp] theorem State.fetchIdx_standing (s : State) (cl n : Nat) (j : JSlot) : (s.fetchIdx cl n j).standing = s.standing := by
  unfold State.fetchIdx; dsimp only; split <;> simp

@[simp] theorem State.nextElem_standing (s : State) (cl n : Nat) (j : JSlot) : (s.nextElem cl n j).standing = s.standing := by
  unfold State.nextElem
  repeat' split
  all_goals simp

@[simp] theorem State.queueWord_standing (s : State) (w : EngineWord) : (s.queueWord w).standing = s.standing := by rfl

/-! ### The operations of Machine/Matrix.lean -/

@[simp] theorem State.retireWord_standing (s : State) (core : Nat) (w : MatrixWord) :
    (s.retireWord core w).standing = s.standing := by rfl

@[simp] theorem State.applyHead_standing (s : State) (core : Nat) (w : MatrixWord) : (s.applyHead core w).standing = s.standing := by
  unfold State.applyHead; split <;> simp

@[simp] theorem State.postMma_standing (s : State) (core : Nat) (w : MatrixWord) : (s.postMma core w).standing = s.standing := by rfl

theorem State.matrixMoves_standing {s t : State} {core : Nat} (h : t ∈ s.matrixMoves core) : t.standing = s.standing := by
  unfold State.matrixMoves at h
  dsimp only at h
  split at h
  · cases h
  · rcases List.mem_append.1 h with h | h
    · split at h
      · rw [List.mem_singleton.1 h]; simp
      · cases h
    · repeat' split at h
      · rw [List.mem_singleton.1 h]; simp
      · cases h
      · cases h

/-! ### The operations of Machine/Flow.lean -/

@[simp] theorem State.endThreads_standing (s : State) (k : Nat) (us : List Nat) : (s.endThreads k us).standing = s.standing := by
  simp [State.endThreads]

/-! ### The operations of Machine/Memory.lean -/

@[simp] theorem State.prefetch_standing (s : State) (core : Nat) (l1 : Bool) (k : Key) (va : Nat) :
    (s.prefetch core l1 k va).standing = s.standing := by
  unfold State.prefetch; split <;> simp

/-! ### The operations of Machine/PoolWords.lean -/

@[simp] theorem State.raiseAt_standing (s : State) (draw core : Nat) (us : List Nat) (w : WordAt) (t : TrapInfo) :
    (s.raiseAt draw core us w t).standing = s.standing := by
  simp [State.raiseAt]

@[simp] theorem State.settleWord_standing (s : State) (draw core word : Nat) (left : List Nat) (bad : Option (Nat × Nat)) (w : WordAt) :
    (s.settleWord draw core word left bad w).standing = s.standing := by
  unfold State.settleWord
  repeat' split
  all_goals simp

@[simp] theorem State.endLane_standing (s : State) (draw : Nat) (l : PoolLane) (vals : List Word) (failed : Bool) :
    (s.endLane draw l vals failed).standing = s.standing := by
  unfold State.endLane; dsimp only; split <;> simp

@[simp] theorem State.dropLanes_standing (s : State) (core word lane : Nat) : (s.dropLanes core word lane).standing = s.standing := by rfl

@[simp] theorem State.poisonLane_standing (s : State) (draw : Nat) (l : PoolLane) (page : Nat) :
    (s.poisonLane draw l page).standing = s.standing := by
  unfold State.poisonLane; dsimp only; split <;> simp

/-! ### The operations of Machine/Tensor.lean -/

@[simp] theorem State.setTensor_standing (s : State) (v t : Nat) (e : Tensor) : (s.setTensor v t e).standing = s.standing := by rfl

@[simp] theorem State.register_standing (s : State) (v t : Nat) (e : Tensor) : (s.register v t e).standing = s.standing := by rfl

@[simp] theorem tregRun_standing (s : State) (us : List Nat) (d : Reg) (w : List Word) : (tregRun s us d w).standing = s.standing := by
  unfold tregRun; dsimp only; split <;> simp

@[simp] theorem State.revokeLine_standing (s : State) (draw n : Nat) (discard : Bool) (l : BLine) :
    (s.revokeLine draw n discard l).standing = s.standing := by
  simp [State.revokeLine]

@[simp] theorem State.revokeLines_standing (draw : Nat) (discard : Bool) (ls : List BLine) : ∀ (n : Nat) (s : State),
    (s.revokeLines draw discard n ls).standing = s.standing := by
  induction ls with
  | nil => intro n s; rfl
  | cons l ls ih => intro n s; simp [State.revokeLines, ih]

@[simp] theorem State.applySlice_standing (s : State) (draw v t : Nat) (job : SliceJob) (slice : Nat) :
    (s.applySlice draw v t job slice).standing = s.standing := by
  unfold State.applySlice
  split <;> simp

@[simp] theorem State.beginInv_standing (s : State) (v t : Nat) : (s.beginInv v t).standing = s.standing := by rfl

@[simp] theorem State.forgetPool_standing (s : State) (draw v t : Nat) : (s.forgetPool draw v t).standing = s.standing := by
  unfold State.forgetPool; split <;> simp

@[simp] theorem State.makePool_standing (s : State) (v t : Nat) (p : Pool) (vbase : Nat) :
    (s.makePool v t p vbase).standing = s.standing := by
  simp [State.makePool]

@[simp] theorem State.fillPool_standing (s : State) (core v t : Nat) (us : List Nat) (dst : Reg) (pd : Option Nat) (w : List Word) :
    (s.fillPool core v t us dst pd w).standing = s.standing := by
  simp [State.fillPool]

@[simp] theorem State.endSlices_standing (s : State) (draw core lead v t : Nat) (job : SliceJob) :
    (s.endSlices draw core lead v t job).standing = s.standing := by
  unfold State.endSlices; split <;> simp

@[simp] theorem State.sliceStep_standing (s : State) (draw core lead slice : Nat) :
    (s.sliceStep draw core lead slice).standing = s.standing := by
  unfold State.sliceStep
  repeat' split
  all_goals simp

@[simp] theorem State.markGone_standing (s : State) (v t : Nat) : (s.markGone v t).standing = s.standing := by rfl

@[simp] theorem State.tfetch_standing (s : State) (ops : List (Nat × Nat)) : (s.tfetch ops).standing = s.standing := by
  simp [State.tfetch]

@[simp] theorem State.pushLine_standing (s : State) (cores : List Nat) (l : Key × Nat) : (s.pushLine cores l).standing = s.standing := by
  unfold State.pushLine; split <;> simp

/-! ### The operations of Machine/Pools.lean -/

@[simp] theorem State.reclaim_standing (s : State) (v tier : Nat) : (s.reclaim v tier).standing = s.standing := by
  unfold State.reclaim; split <;> simp

@[simp] theorem State.setUsed_standing (s : State) (v tier n : Nat) : (s.setUsed v tier n).standing = s.standing := by rfl

theorem State.allocTier_standing {s s1 : State} {v t tier g : Nat} (h : s.allocTier v t tier = some (s1, g)) :
    s1.standing = s.standing := by
  unfold State.allocTier at h
  dsimp only at h
  repeat' split at h
  all_goals cases h
  all_goals simp

theorem State.allocPage_standing {s s1 : State} {v t g : Nat} (h : s.allocPage v t = some (s1, g)) : s1.standing = s.standing := by
  unfold State.allocPage at h
  split at h
  next r e => cases h; exact State.allocTier_standing e
  next => exact State.allocTier_standing h

@[simp] theorem State.releasePage_standing (s : State) (v t g : Nat) : (s.releasePage v t g).standing = s.standing := by
  unfold State.releasePage
  dsimp only
  repeat' split
  all_goals simp

@[simp] theorem State.setSucc_standing (s : State) (v t : Nat) (p n : Word) : (s.setSucc v t p n).standing = s.standing := by
  simp [State.setSucc]

theorem State.relink1_standing {s s1 : State} {v t q : Nat} {p : Option Word} {n : Word} (h : s.relink1 v t q p n = some s1) :
    s1.standing = s.standing := by
  unfold State.relink1 at h
  dsimp only at h
  repeat' split at h
  all_goals cases h
  all_goals simp

@[simp] theorem State.copyPageLine_standing (s : State) (v t g n l : Nat) : (s.copyPageLine v t g n l).1.standing = s.standing := by
  unfold State.copyPageLine
  dsimp only
  repeat' split
  all_goals simp

@[simp] theorem State.copyPayload_standing (s : State) (v t g n : Nat) : (s.copyPayload v t g n).1.standing = s.standing := by
  simp [State.copyPayload]

theorem State.copyStart_standing {s s1 : State} {v t q : Nat} {g n : Word} {keep : Bool} {p : Option Word}
    (h : s.copyStart v t q g keep = some (s1, p, n)) : s1.standing = s.standing := by
  unfold State.copyStart at h
  split at h
  · cases h
  next s2 m e => cases h; simp [State.allocPage_standing e]

@[simp] theorem State.copyEnd_standing (s : State) (v t q : Nat) (g n : Word) : (s.copyEnd v t q g n).standing = s.standing := by
  simp [State.copyEnd]

theorem State.copyPage1_standing {s s1 : State} {v t q : Nat} {g n : Word} (h : s.copyPage1 v t q g = some (s1, n)) :
    s1.standing = s.standing := by
  unfold State.copyPage1 at h
  split at h
  · cases h
  next s2 p m e =>
    obtain ⟨s3, e1, e2⟩ := Option.map_eq_some_iff.1 h
    cases e2
    simp [State.relink1_standing e1, State.copyStart_standing e]

theorem State.copyShared_standing {v t q : Nat} (hs : List Word) : ∀ {s s1 : State}, State.copyShared v t q hs s = some s1 →
    s1.standing = s.standing := by
  induction hs with
  | nil => intro s s1 h; cases h; rfl
  | cons g gs ih =>
    intro s s1 h
    unfold State.copyShared at h
    repeat' split at h
    · cases h
    next s2 _ e => exact (ih h).trans (State.copyPage1_standing e)
    · exact ih h

theorem State.relink_standing {s s1 : State} {v t q : Nat} {p p1 : Option Word} {n : Word} (h : s.relink v t q p n = some (s1, p1)) :
    s1.standing = s.standing := by
  unfold State.relink at h
  split at h
  next s2 e => cases h; exact State.relink1_standing e
  next =>
    split at h
    · cases h; rfl
    · dsimp only at h
      split at h
      · cases h
      next s2 e => cases h; simp [State.copyShared_standing _ e]

theorem State.copyPage_standing {s s1 : State} {v t q : Nat} {g n : Word} {keep : Bool} (h : s.copyPage v t q g keep = some (s1, n)) :
    s1.standing = s.standing := by
  unfold State.copyPage at h
  split at h
  · cases h
  next s2 p m e =>
    obtain ⟨⟨s3, p1⟩, e1, e2⟩ := Option.map_eq_some_iff.1 h
    cases e2
    simp [State.relink_standing e1, State.copyStart_standing e]

theorem eq_or_eq_of_ite_eq {α : Type} {p : Prop} [Decidable p] {a b x : α} (h : (if p then a else b) = x) : a = x ∨ b = x := by
  by_cases hp : p
  · exact .inl ((if_pos hp).symm.trans h)
  · exact .inr ((if_neg hp).symm.trans h)

theorem State.unlink_standing {s s1 : State} {v t q : Nat} {g : Word} {f : Bool} (h : s.unlink v t q g = some (s1, f)) :
    s1.standing = s.standing := by
  unfold State.unlink at h
  dsimp only at h
  split at h
  · cases h
  next s2 p e =>
    rcases eq_or_eq_of_ite_eq h with h | h
    · cases h; simp [State.relink_standing e]
    · cases h; simp [State.relink_standing e]

theorem State.unlinkAll_standing {v t q : Nat} (gs : List Word) : ∀ {s : State} {r : State × Nat × Nat},
    State.unlinkAll v t q gs s = some r → r.1.standing = s.standing := by
  induction gs with
  | nil => intro s r h; cases h; rfl
  | cons g gs ih =>
    intro s r h
    unfold State.unlinkAll at h
    split at h
    · cases h
    next s1 f e =>
      obtain ⟨r1, e1, rfl⟩ := Option.map_eq_some_iff.1 h
      exact (ih e1).trans (State.unlink_standing e)

@[simp] theorem State.scanHeader_standing (s : State) (v t : Nat) (g : Word) : (s.scanHeader v t g).standing = s.standing := by
  unfold State.scanHeader
  dsimp only
  repeat' split
  all_goals simp

@[simp] theorem State.scanChain_standing (s : State) (v t q : Nat) : (s.scanChain v t q).standing = s.standing := by
  simp [State.scanChain]

@[simp] theorem State.scanFor_standing (s : State) (v t : Nat) (op : PoolOp) : (s.scanFor v t op).standing = s.standing := by
  cases op <;> simp [State.scanFor]

/-- The state that a lane operation leaves: the one it began in where it is not done. -/
def LaneOut.left (s : State) : LaneOut → State
  | .done t _ _ _ => t
  | _ => s

@[simp] theorem LaneOut.left_done (s t : State) (a b c : Word) : (LaneOut.done t a b c).left s = t := rfl
@[simp] theorem LaneOut.left_fail (s : State) (r : Nat) : (LaneOut.fail r).left s = s := rfl
@[simp] theorem LaneOut.left_copy (s : State) (g : Word) : (LaneOut.copy g).left s = s := rfl
@[simp] theorem LaneOut.left_poison (s : State) (g : Word) : (LaneOut.poison g).left s = s := rfl

theorem poolNewSeq_standing (s : State) (v t : Nat) (p : Pool) (pos : Word) :
    ((poolNewSeq s v t p pos).left s).standing = s.standing := by
  unfold poolNewSeq
  split <;> simp

theorem appendTo_standing (s s0 : State) (v t q : Nat) (g : Word) (tag : Nat) :
    ((appendTo s v t q g tag).left s0).standing = s.standing := by
  simp [appendTo]

theorem poolApp_standing (s : State) (v t q tag : Nat) : ((poolApp s v t q tag).left s).standing = s.standing := by
  unfold poolApp
  dsimp only
  split
  · rfl
  split
  · rfl
  split
  · split
    · rfl
    next s1 n e =>
      split
      · rfl
      next s3 p e1 => simp [appendTo_standing, State.relink_standing e1, State.allocPage_standing e]
  split
  · rfl
  · exact appendTo_standing ..

theorem forkPages_standing {v t q : Nat} (gs : List Word) : ∀ {c : Nat} {s : State} {r : State × Nat},
    forkPages v t q gs c s = some r → r.1.standing = s.standing := by
  induction gs with
  | nil => intro c s r h; cases h; rfl
  | cons g gs ih =>
    intro c s r h
    unfold forkPages at h
    dsimp only at h
    split at h
    · simpa using ih h
    · split at h
      · cases h
      next s1 _ e => exact (ih h).trans (State.copyPage_standing e)

theorem poolFork_standing (s : State) (v t : Nat) (p : Pool) (q : Nat) : ((poolFork s v t p q).left s).standing = s.standing := by
  unfold poolFork
  dsimp only
  split
  · rfl
  split
  · rfl
  split
  · rfl
  next s2 c e => simpa using forkPages_standing _ e

theorem poolFree_standing (s : State) (v t q : Nat) : ((poolFree s v t q).left s).standing = s.standing := by
  unfold poolFree
  split
  · rfl
  next s1 u f e => simpa using State.unlinkAll_standing _ e

theorem poolTrunc_standing (s : State) (v t q pos : Nat) : ((poolTrunc s v t q pos).left s).standing = s.standing := by
  unfold poolTrunc
  dsimp only
  split
  · rfl
  split
  · rfl
  next s1 u f e =>
    have h := State.unlinkAll_standing _ e
    repeat' split
    all_goals simp [h]

theorem poolWalk_standing (s : State) (v t : Nat) (p : Pool) (q : Nat) (g : Word) :
    ((poolWalk s v t p q g).left s).standing = s.standing := by
  unfold poolWalk
  dsimp only
  repeat' split
  all_goals rfl

theorem poolInv_standing (s : State) (v t q : Nat) (set : Bool) (g : Word) (m : BitVec 16) :
    ((poolInv s v t q set g m).left s).standing = s.standing := by
  unfold poolInv
  dsimp only
  repeat' split
  all_goals simp

theorem retirePages_standing {v t q tag : Nat} (gs : List Word) : ∀ {s : State} {r : State × Nat × Nat × Nat},
    retirePages v t q tag gs s = some r → r.1.standing = s.standing := by
  induction gs with
  | nil => intro s r h; cases h; rfl
  | cons g gs ih =>
    intro s r h
    unfold retirePages at h
    dsimp only at h
    split at h
    · split at h
      · cases h
      next s1 f e =>
        obtain ⟨r1, e1, rfl⟩ := Option.map_eq_some_iff.1 h
        exact (ih e1).trans (State.unlink_standing e)
    · obtain ⟨r1, e1, rfl⟩ := Option.map_eq_some_iff.1 h
      simpa using ih e1

theorem poolRspan_standing (s : State) (v t q tag : Nat) : ((poolRspan s v t q tag).left s).standing = s.standing := by
  unfold poolRspan
  dsimp only
  split
  · rfl
  split
  · rfl
  split
  · rfl
  next s1 u f r e => exact retirePages_standing _ e

theorem State.poolOp_standing (s : State) (v t : Nat) (op : PoolOp) : ((s.poolOp v t op).left s).standing = s.standing := by
  unfold State.poolOp
  split
  · rfl
  split
  · rfl
  cases op with
  | newSeq pos => exact poolNewSeq_standing ..
  | app q tag => exact poolApp_standing ..
  | fork q => exact poolFork_standing ..
  | free q => exact poolFree_standing ..
  | trunc q pos => exact poolTrunc_standing ..
  | walk q g => exact poolWalk_standing ..
  | inv set q g m => exact poolInv_standing ..
  | rspan q tag => exact poolRspan_standing ..

@[simp] theorem State.poolRead_standing (s : State) (v t : Nat) (op : PoolOp) : (s.poolRead v t op).standing = s.standing := by
  unfold State.poolRead
  repeat' split
  all_goals simp

@[simp] theorem State.unqueue_standing (s : State) (v t : Nat) (l : PoolLane) : (s.unqueue v t l).standing = s.standing := by
  unfold State.unqueue; split <;> simp

@[simp] theorem State.startChase_standing (s : State) (core v t q : Nat) (g : Word) :
    (s.startChase core v t q g).standing = s.standing := by
  simp [State.startChase]

@[simp] theorem State.postCopy_standing (s : State) (v t q : Nat) (l : PoolLane) (g : Word) :
    (s.postCopy v t q l g).standing = s.standing := by
  unfold State.postCopy; split <;> simp

@[simp] theorem State.poolLane_standing (s : State) (draw v t : Nat) (l : PoolLane) : (s.poolLane draw v t l).standing = s.standing := by
  unfold State.poolLane
  dsimp only
  have h := State.poolOp_standing (s.poolRead v t l.op) v t l.op
  split
  · simp
  split
  next s1 a b c e =>
    have h1 : s1.standing = s.standing := by simpa [e] using h
    repeat' split
    all_goals simp [h1]
  · simp
  · split <;> simp
  · simp

@[simp] theorem State.serveCopy_standing (s : State) (r : CopyReq) : (s.serveCopy r).1.standing = s.standing := by
  unfold State.serveCopy
  extract_lets q needed out dry mine
  have h : out.1.standing = s.standing := by
    unfold out
    repeat' split
    next s1 n e => exact State.copyPage_standing e
    all_goals rfl
  repeat' split
  all_goals simp [h]

@[simp] theorem State.fillPage_standing (s : State) (v t g : Nat) : (s.fillPage v t g).standing = s.standing := by
  unfold State.fillPage
  split
  · rfl
  · refine foldl_standing _ (fun s l => ?_) _ _
    dsimp only
    repeat' split
    all_goals simp

@[simp] theorem kvnewRun_standing (s : State) (us : List Nat) (d : Reg) (pd : Option Nat) (w : List Word) :
    (kvnewRun s us d pd w).standing = s.standing := by
  unfold kvnewRun; dsimp only; split <;> simp

/-! ### The operations of Machine/Tokens.lean -/

@[simp] theorem State.enqueue_standing (s : State) (core lead : Nat) (ctrl : Word) (msg : List Word) :
    (s.enqueue core lead ctrl msg).standing = s.standing := by
  simp [State.enqueue]

@[simp] theorem State.take_standing (s : State) (draw core lead : Nat) (dst : Reg) (ctrl : Word) (draft : Option (Word × Word))
    (w : WordAt) :
    (s.take draw core lead dst ctrl draft w).standing = s.standing := by
  unfold State.take; dsimp only; split <;> simp

@[simp] theorem State.setQuota_standing (s : State) (own v tier reg n : Nat) : (s.setQuota own v tier reg n).standing = s.standing := by
  unfold State.setQuota
  repeat' split
  all_goals simp

/-- The state that a read of bytes leaves, however it ends. -/
def FlatRead.state : FlatRead → State
  | .ok s _ => s
  | .fault s _ => s
  | .poison s => s

@[simp] theorem FlatRead.state_ok (s : State) (bs : List Byte) : (FlatRead.ok s bs).state = s := rfl
@[simp] theorem FlatRead.state_fault (s : State) (va : Nat) : (FlatRead.fault s va).state = s := rfl
@[simp] theorem FlatRead.state_poison (s : State) : (FlatRead.poison s).state = s := rfl

/-- A read that goes on from a read keeps what both keep. -/
theorem FlatRead.bind_standing (r : FlatRead) (f : State → List Byte → FlatRead)
    (h : ∀ s bs, (f s bs).state.standing = s.standing) : (r.bind f).state.standing = r.state.standing := by
  cases r with
  | ok s bs => exact h s bs
  | fault s va => rfl
  | poison s => rfl

@[simp] theorem State.readFlat_standing (v n : Nat) : ∀ (va : Nat) (s : State), (s.readFlat v va n).state.standing = s.standing := by
  induction n with
  | zero => intro va s; rfl
  | succ n ih =>
    intro va s
    unfold State.readFlat
    dsimp only
    split
    · rfl
    · split
      · simp
      · rw [FlatRead.bind_standing _ _ (fun _ _ => rfl), ih]; simp

theorem State.action_standing (s : State) (g : GrammarSlot) (q y tok : Nat) (f : State → Action → FlatRead)
    (h : ∀ s a, (f s a).state.standing = s.standing) : (s.action g q y tok f).state.standing = s.standing := by
  unfold State.action
  rw [FlatRead.bind_standing, State.readFlat_standing]
  intro s1 cs
  rw [FlatRead.bind_standing _ _ (fun _ _ => h _ _), State.readFlat_standing]

/-- The state that a lane of GSTEP leaves, however it ends. -/
def StepLane.state : StepLane → State
  | .ok s _ _ => s
  | .full s => s
  | .fault s _ => s
  | .poison s => s

theorem State.stepLane_standing (s : State) (g : GrammarSlot) (tok : Nat) (b : List Word) :
    (s.stepLane g tok b).state.standing = s.standing := by
  unfold State.stepLane
  split
  · rfl
  · generalize hr : State.action s g _ _ _ _ = r
    have h : r.state.standing = s.standing := hr ▸ State.action_standing _ _ _ _ _ _ (fun _ _ => rfl)
    dsimp only
    repeat' split
    all_goals exact h

/-- The state that a grammar word leaves, however it ends. -/
def GOut.state : GOut → State
  | .done s _ => s
  | .fault s _ => s
  | .trap s _ _ => s

@[simp] theorem GOut.state_done (s : State) (res : List (Nat × List Word × Option Bool)) : (GOut.done s res).state = s := rfl
@[simp] theorem GOut.state_fault (s : State) (va : Nat) : (GOut.fault s va).state = s := rfl
@[simp] theorem GOut.state_trap (s : State) (c : Cause) (lane : Option Nat) : (GOut.trap s c lane).state = s := rfl

theorem State.stepLanes_standing (core : Nat) (ls : List (Nat × Word × List Word)) : ∀ s : State,
    (s.stepLanes core ls).state.standing = s.standing := by
  induction ls with
  | nil => intro s; rfl
  | cons l ls ih =>
    intro s
    obtain ⟨u, tok, b⟩ := l
    unfold State.stepLanes
    split
    · rfl
    next g _ =>
      have h := s.stepLane_standing g tok.toNat b
      split
      all_goals rename_i e; rw [e] at h
      · exact h
      · exact h
      · exact h
      next s1 b1 rej =>
        have h1 := ih s1
        split
        next e1 => rw [e1] at h1; exact h1.trans h
        next => exact h1.trans h

theorem State.allowedFrom_standing (g : GrammarSlot) (b : List Word) (n : Nat) : ∀ (tok : Nat) (s : State),
    (s.allowedFrom g b tok n).state.standing = s.standing := by
  induction n with
  | zero => intro tok s; rfl
  | succ n ih =>
    intro tok s
    unfold State.allowedFrom
    rw [FlatRead.bind_standing, State.action_standing _ _ _ _ _ _ (fun _ _ => rfl)]
    intro s1 x
    rw [FlatRead.bind_standing _ _ (fun _ _ => rfl), ih]

theorem State.maskChunk_standing (s : State) (core : Nat) (g : GrammarSlot) (b : List Word) (chunk : Nat) :
    (s.maskChunk core g b chunk).state.standing = s.standing := by
  unfold State.maskChunk
  dsimp only
  split
  · rfl
  · rw [FlatRead.bind_standing _ _ (fun _ _ => rfl), State.allowedFrom_standing]

theorem State.maskSum_standing (s : State) (core : Nat) (g : GrammarSlot) (b : List Word) :
    (s.maskSum core g b).state.standing = s.standing := by
  unfold State.maskSum
  dsimp only
  split
  · rfl
  · rw [FlatRead.bind_standing _ _ (fun _ _ => rfl), State.allowedFrom_standing]

theorem State.bind1_standing (core slot va : Nat) (s : State) (v : Nat) (d : Die) (answer : State → Nat → FlatRead)
    (h : ∀ s n, (answer s n).state.standing = s.standing) :
    (State.bindSlot.bind1 core slot va s v d answer).state.standing = s.standing := by
  unfold State.bindSlot.bind1
  split
  · simp [h]
  · rw [FlatRead.bind_standing, State.readFlat_standing]
    intro s1 bs
    split <;> simp [h]

theorem State.bindSlot_standing (s : State) (core slot va : Nat) : (s.bindSlot core slot va).state.standing = s.standing := by
  unfold State.bindSlot
  dsimp only
  repeat' split
  · rfl
  · exact State.bind1_standing _ _ _ _ _ _ _ (fun _ _ => rfl)
  · exact State.bind1_standing _ _ _ _ _ _ _ (fun _ _ => rfl)

@[simp] theorem State.grammar_standing (s : State) (core : Nat) (us : List Nat) (w : GrammarWord) :
    (s.grammar core us w).state.standing = s.standing := by
  cases w with
  | bind d pd slot va =>
    have h := s.bindSlot_standing core slot va
    dsimp only [State.grammar]
    split
    all_goals rename_i e; rw [e] at h; exact h
  | step d pd lanes =>
    dsimp only [State.grammar]
    split
    · rfl
    · exact State.stepLanes_standing ..
  | mask d pd b chunk =>
    dsimp only [State.grammar]
    split
    · rfl
    next g _ =>
      have h := s.maskChunk_standing core g b chunk.toNat
      split
      all_goals rename_i e; rw [e] at h
      · exact h
      · exact h
      next s1 m =>
        have h1 := s1.maskSum_standing core g b
        split
        all_goals rename_i e1; rw [e1] at h1; exact h1.trans h

@[simp] theorem State.retryGrammar_standing (s : State) (draw core lead : Nat) (w : GrammarWord) (place : WordAt) :
    (s.retryGrammar draw core lead w place).standing = s.standing := by
  unfold State.retryGrammar
  dsimp only
  generalize hr : s.grammar core _ w = r
  have h : r.state.standing = s.standing := hr ▸ s.grammar_standing ..
  cases r with
  | done s1 res => simpa using h
  | fault s1 va =>
    dsimp only
    split
    next s2 e e1 => simpa [State.openX_standing e1] using h
    next => simpa using h
  | trap s1 cause lane => simpa using h

@[simp] theorem State.resolveAll_standing (s : State) (draw cl e : Nat) : (s.resolveAll draw cl e).standing = s.standing := by
  simp [State.resolveAll]

@[simp] theorem State.abortGrammar_standing (s : State) (draw cl e : Nat) : (s.abortGrammar draw cl e).standing = s.standing := by
  simp [State.abortGrammar]

/-! ### The operations of Machine/Graph.lean -/

@[simp] theorem State.readImage_standing (s : State) (v va : Nat) : (s.readImage v va).1.standing = s.standing := by
  unfold State.readImage
  have h := s.readFlat_standing v 64 va
  split
  all_goals rename_i e; rw [e] at h
  · exact h
  · exact h
  next s1 hd =>
    dsimp only
    split
    · exact h
    · have h1 := s1.readFlat_standing v (512 * fld hd 0 4) (va + 64)
      split
      all_goals rename_i e1; rw [e1] at h1; exact h1.trans h

@[simp] theorem State.setGslot_standing (s : State) (v n : Nat) (x : GraphSlot) : (s.setGslot v n x).standing = s.standing := by rfl

@[simp] theorem State.atBar_standing (s t : State) (h : t.standing = s.standing) : (s.atBar t).standing = s.standing := by
  simp [State.atBar, h]

@[simp] theorem State.graphLoad_standing (s : State) (vf slot : Nat) (va : DWord) :
    (s.graphLoad vf slot va).standing = s.standing := by rfl

@[simp] theorem State.graphUnload_standing (s : State) (vf slot : Nat) : (s.graphUnload vf slot).standing = s.standing := by rfl

@[simp] theorem State.trigger_standing (s : State) (v slot patch : Nat) : (s.trigger v slot patch).standing = s.standing := by
  simp [State.trigger]

@[simp] theorem State.graphStat_standing (s : State) (vf slot : Nat) (v : DWord) : (s.graphStat vf slot v).standing = s.standing := by
  simp [State.graphStat]

@[simp] theorem State.forgetPasses_standing (s : State) (v slot : Nat) : (s.forgetPasses v slot).standing = s.standing := by rfl

@[simp] theorem State.stopSlot_standing (s : State) (v slot err node : Nat) : (s.stopSlot v slot err node).standing = s.standing := by rfl

@[simp] theorem State.readyNodes_standing (v slot : Nat) (ns : List Nat) :
    ∀ s : State, (s.readyNodes v slot ns).standing = s.standing := by
  induction ns with
  | nil => intro s; rfl
  | cons n ns ih => intro s; simp [State.readyNodes, ih]

@[simp] theorem State.readPatches_standing (v nn n : Nat) : ∀ (k va : Nat) (s : State),
    (s.readPatches v nn n k va).1.standing = s.standing := by
  induction n with
  | zero => intro k va s; rfl
  | succ n ih =>
    intro k va s
    unfold State.readPatches
    have h := s.readFlat_standing v 16 va
    split
    all_goals rename_i e; rw [e] at h
    · exact h
    · exact h
    next s1 bs =>
      dsimp only
      split
      · exact h
      split
      · exact h
      · exact (ih _ _ s1).trans h

@[simp] theorem State.startRun_standing (s : State) (v slot : Nat) (ps : List (Nat × Nat × DWord)) :
    (s.startRun v slot ps).standing = s.standing := by
  simp [State.startRun]

@[simp] theorem State.settleRun_standing (s : State) (v slot : Nat) : (s.settleRun v slot).standing = s.standing := by
  unfold State.settleRun; split <;> simp

@[simp] theorem State.nodeDone_standing (s : State) (v slot node : Nat) : (s.nodeDone v slot node).standing = s.standing := by
  unfold State.nodeDone
  dsimp only
  repeat' split
  all_goals simp

@[simp] theorem State.nodeFailed_standing (s : State) (v slot node : Nat) : (s.nodeFailed v slot node).standing = s.standing := by
  unfold State.nodeFailed; dsimp only; split <;> simp

/-! ### The operations of Machine/Schedule.lean -/

@[simp] theorem State.captureBytes_standing (draw v n : Nat) : ∀ (va : Nat) (s : State),
    (s.captureBytes draw v va n).1.standing = s.standing := by
  induction n with
  | zero => intro va s; rfl
  | succ n ih =>
    intro va s
    unfold State.captureBytes
    have h := s.readFlat_standing v 1 va
    dsimp only
    rw [ih]
    split
    all_goals rename_i e; rw [e] at h; exact h

@[simp] theorem State.capture_standing (s : State) (draw v va packets : Nat) : (s.capture draw v va packets).1.standing = s.standing := by
  simp [State.capture]

@[simp] theorem State.asOf_standing (s : State) (l : Launch) : (s.asOf l).standing = s.standing := by rfl

@[simp] theorem State.turnRounds_standing (s : State) : (s.turnRounds).standing = s.standing := by rfl

@[simp] theorem State.spend_standing (s : State) (order : List Cand) (c : Cand) : (s.spend order c).standing = s.standing := by rfl

@[simp] theorem State.openLaunch_standing (s : State) (draw : Nat) (c : Cand) : (s.openLaunch draw c).1.standing = s.standing := by
  unfold State.openLaunch
  dsimp only
  split <;> simp

@[simp] theorem State.place_standing (s : State) (draw : Nat) (c : Cand) (core : Nat) : (s.place draw c core).standing = s.standing := by
  unfold State.place
  dsimp only
  split <;> simp

@[simp] theorem State.startCore_standing (s : State) (k : Nat) : (s.startCore k).standing = s.standing := by
  unfold State.startCore
  dsimp only
  repeat' split
  all_goals simp

@[simp] theorem State.freeCore_standing (s : State) (k : Nat) : (s.freeCore k).standing = s.standing := by rfl

@[simp] theorem State.settleCtx_standing (s : State) (v : Nat) : (s.settleCtx v).standing = s.standing := by
  simp [State.settleCtx]

@[simp] theorem State.rerouteCluster_standing (s : State) (cl : Nat) : (s.rerouteCluster cl).standing = s.standing := by
  unfold State.rerouteCluster
  dsimp only
  split
  · rfl
  · rw [foldl_standing _ (fun s r => by simp), foldl_standing _ (fun s e => by split <;> simp)]
    rfl

@[simp] theorem State.dropHandlers_standing (s : State) (l : Nat) : (s.dropHandlers l).standing = s.standing := by
  simp [State.dropHandlers]

@[simp] theorem State.removeLaunch_standing (s : State) (l : Nat) : (s.removeLaunch l).standing = s.standing := by
  simp [State.removeLaunch]

@[simp] theorem State.tearReq_standing (s : State) (draw k : Nat) (r : Req) : (s.tearReq draw k r).standing = s.standing := by
  unfold State.tearReq; split <;> simp

@[simp] theorem State.dropPoolLanes_standing (s : State) (k : Nat) : (s.dropPoolLanes k).standing = s.standing := by rfl

@[simp] theorem State.tearCore_standing (draw : Nat) (s : State) (k : Nat) : (State.tearCore draw s k).standing = s.standing := by
  simp [State.tearCore]

@[simp] theorem State.tearLaunch_standing (s : State) (draw l : Nat) : (s.tearLaunch draw l).standing = s.standing := by
  unfold State.tearLaunch; split <;> simp

/-! ### The operations of Machine/Registers.lean -/

@[simp] theorem State.onPart_standing (s : State) (p : Nat) (f : Part → Part) : (s.onPart p f).standing = s.standing := by
  unfold State.onPart; split <;> simp

@[simp] theorem State.onPartOf_standing (s : State) (v : Nat) (f : Part → Part) : (s.onPartOf v f).standing = s.standing := by
  unfold State.onPartOf; split <;> simp

@[simp] theorem State.writeTrapbase_standing (s : State) (draw v : Nat) (b : DWord) :
    (s.writeTrapbase draw v b).standing = s.standing := by rfl

@[simp] theorem State.writePerfsel_standing (s : State) (v n : Nat) (w : Word) : (s.writePerfsel v n w).standing = s.standing := by rfl

@[simp] theorem State.writePretimers_standing (s : State) (v : Nat) (w : Word) : (s.writePretimers v w).standing = s.standing := by rfl

@[simp] theorem State.writeClhandler_standing (s : State) (k : Nat) (v : Word) : (s.writeClhandler k v).standing = s.standing := by
  unfold State.writeClhandler
  dsimp only
  repeat' split
  all_goals simp

@[simp] theorem State.sysTrigger_standing (s : State) (v : Nat) (w : DWord) : (s.sysTrigger v w).standing = s.standing := by
  simp [State.sysTrigger]

@[simp] theorem State.sysWrite_standing (s : State) (draw k n : Nat) (w : DWord) : (s.sysWrite draw k n w).standing = s.standing := by
  simp [State.sysWrite]

@[simp] theorem State.remember_standing (s : State) (k uid n : Nat) : (s.remember k uid n).standing = s.standing := by rfl

/-! ### The operations of Machine/Context.lean -/

@[simp] theorem State.forceHalt_standing (s : State) (v : Nat) : (s.forceHalt v).standing = s.standing := by
  simp [State.forceHalt]

@[simp] theorem State.softRequest_standing (s : State) (v : Nat) : (s.softRequest v).standing = s.standing := by
  simp [State.softRequest]

@[simp] theorem State.dropSave_standing (s : State) (v : Nat) : (s.dropSave v).standing = s.standing := by
  unfold State.dropSave; split <;> simp

@[simp] theorem State.failCut_standing (s : State) (v : Nat) : (s.failCut v).standing = s.standing := by
  unfold State.failCut; split <;> simp

@[simp] theorem State.killCtx_standing (s : State) (draw v : Nat) : (s.killCtx draw v).standing = s.standing := by
  simp [State.killCtx]

@[simp] theorem State.takeOut_standing (s : State) (v : Nat) : (s.takeOut v).standing = s.standing := by rfl

@[simp] theorem State.closeIdle_standing (s : State) (v cl : Nat) : (s.closeIdle v cl).standing = s.standing := by
  simp [State.closeIdle]

@[simp] theorem State.saveAt_standing (s : State) (draw v : Nat) (p : Part) (cores : List Nat) (cs : List SavedCore) (off : Nat)
    (lens : List Nat) : (s.saveAt draw v p cores cs off lens).standing = s.standing := by
  simp [State.saveAt]

@[simp] theorem State.restoreCore_standing (s : State) (first : Nat) (x : SavedCore) : (s.restoreCore first x).standing = s.standing := by
  simp [State.restoreCore]

theorem State.placeSaved_standing {part : Nat} {sv : Saved} (cs : List SavedCore) : ∀ {s : State} {m : List (Nat × Nat)}
    {r : State × List (Nat × Nat)}, State.placeSaved part sv cs s m = some r → r.1.standing = s.standing := by
  induction cs with
  | nil => intro s m r h; cases h; rfl
  | cons c cs ih =>
    intro s m r h
    unfold State.placeSaved at h
    dsimp only at h
    split at h
    · exact ih h
    repeat' split at h
    · cases h
    · cases h
    · cases h
    · simpa using ih h

@[simp] theorem State.putLanes_standing (s : State) (v : Nat) (m : List (Nat × Nat)) (ls : List (Nat × PoolLane)) :
    (s.putLanes v m ls).standing = s.standing :=
  foldl_standing _ (fun s p => by split <;> simp) ls s

@[simp] theorem State.putMsgs_standing (s : State) (ms : List (Nat × Nat × XqMsg)) : (s.putMsgs ms).standing = s.standing := by
  simp [State.putMsgs]

theorem State.resume_standing {s t : State} {v : Nat} (h : s.resume v = some t) : t.standing = s.standing := by
  unfold State.resume at h
  split at h
  · cases h
  split at h
  · split at h
    · cases h
    next s1 m e => cases h; simpa using State.placeSaved_standing _ e
  · cases h

/-! ### The operations of Machine/MemoryEvents.lean -/

@[simp] theorem State.moveLine_standing (s : State) (old new : Nat) : (s.moveLine old new).standing = s.standing := by
  simp [State.moveLine]

@[simp] theorem State.endMigration_standing (s : State) (m : Migration) : (s.endMigration m).standing = s.standing := by
  simp [State.endMigration]

/-! ### The operations of Machine/Checkpoint.lean -/

@[simp] theorem State.startCut_standing (s : State) (part : Nat) : (s.startCut part).standing = s.standing := by
  unfold State.startCut; split <;> simp

@[simp] theorem State.abortCkpt_standing (s : State) (part : Nat) : (s.abortCkpt part).standing = s.standing := by
  unfold State.abortCkpt; split <;> simp

@[simp] theorem State.finishCkpt_standing (s : State) (part : Nat) : (s.finishCkpt part).standing = s.standing := by
  unfold State.finishCkpt; split <;> simp

@[simp] theorem State.pieceDrained_standing (s : State) (part i : Nat) : (s.pieceDrained part i).standing = s.standing := by
  unfold State.pieceDrained
  repeat' split
  all_goals simp

@[simp] theorem State.tearContext_standing (s : State) (draw v : Nat) : (s.tearContext draw v).standing = s.standing := by
  simp [State.tearContext]

@[simp] theorem State.writePieces_standing (xs : List Piece) :
    ∀ (bs : List Byte) (s : State), (State.writePieces xs bs s).standing = s.standing := by
  induction xs with
  | nil => intro bs s; rfl
  | cons x xs ih => intro bs s; simp [State.writePieces, ih]

@[simp] theorem State.installVf_standing (s : State) (v : Nat) (m : VF) : (s.installVf v m).standing = s.standing := by rfl

@[simp] theorem State.installSave_standing (s : State) (draw part v : Nat) (sv : Saved) :
    (s.installSave draw part v sv).standing = s.standing := by
  unfold State.installSave
  repeat' split
  all_goals simp

@[simp] theorem State.installImage_standing (s : State) (draw part : Nat) (m : CkImage) (bytes : List Byte) :
    (s.installImage draw part m bytes).standing = s.standing := by
  simp [State.installImage]

@[simp] theorem State.restoreCkpt_standing (s : State) (draw part : Nat) : (s.restoreCkpt draw part).standing = s.standing := by
  unfold State.restoreCkpt
  dsimp only
  repeat' split
  all_goals simp

/-! ### The operations of Machine/PageService.lean -/

@[simp] theorem State.migStart_standing (s : State) (v page pa tier : Nat) : (s.migStart v page pa tier).1.standing = s.standing := by
  unfold State.migStart
  dsimp only
  repeat' split
  all_goals simp

@[simp] theorem State.abortAll_standing (s : State) (draw cl e : Nat) : (s.abortAll draw cl e).standing = s.standing := by
  simp [State.abortAll]

@[simp] theorem State.serveEntry_standing (s : State) (draw cl e : Nat) (g : BitVec 8) (resolve : Bool) :
    (s.serveEntry draw cl e g resolve).1.standing = s.standing := by
  unfold State.serveEntry; split <;> simp

/-! ### The operations of Machine/Snapshots.lean -/

@[simp] theorem State.spawnSlice_standing (core parent e slice done n : Nat) : ∀ (k m : Nat) (warp : Option Nat) (s : State),
    (s.spawnSlice core parent e slice done n k m warp).1.standing = s.standing := by
  induction n with
  | zero => intro k m warp s; rfl
  | succ n ih =>
    intro k m warp s
    unfold State.spawnSlice
    dsimp only
    repeat' split
    all_goals simp [ih]

@[simp] theorem State.spawnSlices_standing (core parent e done n : Nat) (sls : List Nat) : ∀ (k : Nat) (s : State),
    (s.spawnSlices core parent e done n sls k).1.standing = s.standing := by
  induction sls with
  | nil => intro k s; rfl
  | cons sl sls ih => intro k s; simp [State.spawnSlices, ih]

@[simp] theorem State.spawnThread_standing (s : State) (core u e n done : Nat) (far : Bool) :
    (s.spawnThread core u e n done far).1.standing = s.standing := by
  simp [State.spawnThread]

/-! ### The operations of Machine/System.lean -/

@[simp] theorem State.haltStep_standing (s : State) (draw v step : Nat) : (s.haltStep draw v step).standing = s.standing := by
  unfold State.haltStep; split <;> simp

@[simp] theorem State.lateJob_standing (s : State) (core lead : Nat) (job : LateJob) :
    (s.lateJob core lead job).standing = s.standing := by
  unfold State.lateJob; split <;> simp

@[simp] theorem State.runLate_standing (s : State) (core : Nat) : (s.runLate core).standing = s.standing :=
  foldl_standing _ (fun s u => by split <;> simp) _ s

/-! ### The operations of Machine/Device.lean -/

@[simp] theorem State.copyImage_standing (s : State) (draw : Nat) (p : Part) : (s.copyImage draw p).standing = s.standing := by
  unfold State.copyImage; split <;> simp

@[simp] theorem State.scrubCluster_standing (s : State) (cl : Nat) : (s.scrubCluster cl).standing = s.standing := by
  simp [State.scrubCluster]

@[simp] theorem State.flatPut_standing (s : State) (v va : Nat) (b : Byte) : (s.flatPut v va b).1.standing = s.standing := by
  unfold State.flatPut; dsimp only; split <;> simp

@[simp] theorem State.flatPutAll_standing (v : Nat) (bs : List Byte) : ∀ (va : Nat) (s : State),
    (s.flatPutAll v va bs).1.standing = s.standing := by
  induction bs with
  | nil => intro va s; rfl
  | cons b bs ih => intro va s; simp [State.flatPutAll, ih]

@[simp] theorem State.flatRead_standing (s : State) (v addr len : Nat) : (s.flatRead v addr len).1.standing = s.standing := by
  unfold State.flatRead
  have h := s.readFlat_standing v len addr
  split
  all_goals rename_i e; rw [e] at h; exact h

@[simp] theorem State.spdm_standing (s : State) (code : BitVec 8) (n : Nat) (req : List Byte) :
    (s.spdm code n req).standing = s.standing := by
  simp [State.spdm]

@[simp] theorem State.spdmError_standing (s : State) (code data : BitVec 8) : (s.spdmError code data).standing = s.standing := by
  simp [State.spdmError]

/-! ### The operations of Machine/HostLink.lean -/

theorem State.harespAct_standing {s t : State} {part kind arg : Nat} {k : HaKind} (h : s.harespAct part kind arg k = some t) :
    t.standing = s.standing := by
  unfold State.harespAct at h
  repeat' split at h
  all_goals cases h
  all_goals simp

@[simp] theorem State.answer_standing (s : State) (part kind arg : Nat) (tag : BitVec 16) :
    (s.answer part kind arg tag).standing = s.standing := by
  unfold State.answer
  split
  · rfl
  split
  · rfl
  split
  next t e => simpa using State.harespAct_standing e
  next => rfl

@[simp] theorem State.writeHead_standing (s : State) (part : Nat) (v : Word) : (s.writeHead part v).standing = s.standing := by
  unfold State.writeHead
  dsimp only
  repeat' split
  all_goals simp

@[simp] theorem State.writeReg_standing (s : State) (draw : Nat) (r : RegTarget) (v : DWord) :
    (s.writeReg draw r v).standing = s.standing := by
  unfold State.writeReg
  repeat' split
  all_goals simp

/-! ### The operations of Machine/Fetch.lean -/

@[simp] theorem State.takeRun_standing (s : State) (core : Nat) (run : List Nat) (head : Bool) (warp : Nat) (pc : Word) (glen : Nat) :
    (s.takeRun core run head warp pc glen).standing = s.standing := by rfl

@[simp] theorem State.beginGroup_standing (s : State) (core : Nat) (run : List Nat) (head : Bool) (warp : Nat) (pc : Word)
    (glen : Nat) (d : Nat) :
    (s.beginGroup core run head warp pc glen d).standing = s.standing := by rfl

@[simp] theorem State.takeFe_standing (s : State) (core : Nat) (pc : Word) : (s.takeFe core pc).standing = s.standing := by rfl

@[simp] theorem State.beginFe_standing (s : State) (core : Nat) (pc : Word) (d : Nat) :
    (s.beginFe core pc d).standing = s.standing := by rfl

/-! ### The operations of Machine/Moves.lean -/

@[simp] theorem State.placeAt_standing (s : State) (pc : Word) : (s.placeAt pc).standing = s.standing := by
  simp [State.placeAt]

@[simp] theorem State.markPlan_standing (s : State) (core : Nat) (p : Plan) : (s.markPlan core p).standing = s.standing := by rfl

@[simp] theorem State.finishCore_standing (s : State) (k : Nat) : (s.finishCore k).standing = s.standing := by
  simp [State.finishCore]

@[simp] theorem State.cycle_standing (s : State) : (s.cycle).standing = s.standing := by
  simp [State.cycle]

/-! ### The parts of an instruction word -/

/-- What holds of the value that a part of a word is done with; of a trap or a wait it asks nothing. -/
def Res.Post {α : Type} (p : α → Prop) : Res α → Prop
  | .ok a => p a
  | _ => True

@[simp] theorem Res.post_ok {α : Type} (p : α → Prop) (a : α) : (Res.ok a).Post p ↔ p a := Iff.rfl
@[simp] theorem Res.post_trap {α : Type} (p : α → Prop) (t : TrapInfo) : (Res.trap t : Res α).Post p := trivial
@[simp] theorem Res.post_wait {α : Type} (p : α → Prop) (u : Bool) : (Res.wait u : Res α).Post p := trivial
@[simp] theorem Res.post_waitAll {α : Type} (p : α → Prop) : (Res.waitAll : Res α).Post p := trivial
@[simp] theorem Res.post_bind {α β : Type} (p : β → Prop) (r : Res α) (f : α → Res β) :
    (r.bind f).Post p ↔ r.Post (fun a => (f a).Post p) := by cases r <;> rfl
@[simp] theorem Res.post_map {α β : Type} (p : β → Prop) (r : Res α) (f : α → β) :
    (r.map f).Post p ↔ r.Post (fun a => p (f a)) := by cases r <;> rfl
@[simp] theorem Res.post_ite {α : Type} (p : α → Prop) (c : Prop) [Decidable c] (r q : Res α) :
    (if c then r else q).Post p ↔ if c then r.Post p else q.Post p := by split <;> rfl
@[simp] theorem Res.post_of_forall {α : Type} {p : α → Prop} (h : ∀ a, p a) (r : Res α) : r.Post p := by cases r <;> simp [h]

/-- A part of a word that is done leaves the device standing as it stood. -/
def Res.Keeps (s : State) (r : Res State) : Prop := r.Post (fun t => t.standing = s.standing)

theorem Res.Keeps.trans {s s1 : State} {r : Res State} (h : r.Keeps s1) (e : s1.standing = s.standing) : r.Keeps s := by
  unfold Res.Keeps at *
  rwa [← e]

theorem forEach_post {α σ : Type} {p : σ → Prop} {f : α → σ → Res σ} (h : ∀ a s, p s → (f a s).Post p) (l : List α) :
    ∀ s, p s → (forEach f l s).Post p := by
  induction l with
  | nil => intro s hs; exact hs
  | cons a l ih =>
    intro s hs
    unfold forEach
    have ha := h a s hs
    cases hr : f a s with
    | ok t => rw [hr] at ha; exact ih t ha
    | trap | wait | waitAll => trivial

theorem Res.post_iff {α : Type} {p : α → Prop} {r : Res α} : r.Post p ↔ ∀ a, r = .ok a → p a := by
  cases r with
  | ok a => simp
  | trap | wait | waitAll => simp

/-- What a part is done with holds if it holds whatever the parts before it found. -/
theorem Res.post_after {α β : Type} {q : β → Prop} {r : Res α} {f : α → Res β} (hf : ∀ a, (f a).Post q) : (r.bind f).Post q := by
  cases r with
  | ok a => exact hf a
  | trap | wait | waitAll => trivial

theorem Res.Post.bind {α β : Type} {p : α → Prop} {q : β → Prop} {r : Res α} {f : α → Res β} (hr : r.Post p)
    (hf : ∀ a, p a → (f a).Post q) : (r.bind f).Post q := by
  cases r with
  | ok a => exact hf a hr
  | trap | wait | waitAll => trivial

section
variable {f : Form} {s : State} {srcs dsts : List Reg}

theorem warpWordS_keeps {body : State → List Nat → Res State} (h : ∀ s1 act, (body s1 act).Keeps s1) :
    (warpWordS f s srcs dsts body).Keeps s := by
  refine Res.post_iff.2 fun t e => ?_
  obtain ⟨-, -, -, hb, -⟩ := warpWordS_eq_ok e
  exact Res.post_iff.1 ((h _ _).trans (s.setCore_standing ..)) t hb

theorem warpWord_keeps {body : Core → List Nat → Res Core} : (warpWord f s srcs dsts body).Keeps s :=
  warpWordS_keeps fun s1 act => by simp [Res.Keeps]

theorem feWordS_keeps {body : State → FrontEnd → Res State} (h : ∀ s1 x, (body s1 x).Keeps s1) :
    (feWordS f s srcs dsts body).Keeps s := by
  refine Res.post_after fun _ => ?_
  dsimp only
  split
  · trivial
  · split
    · exact (h _ _).trans (s.setCore_standing ..)
    · trivial

theorem feWord_keeps {body : FrontEnd → Res FrontEnd} : (feWord f s srcs dsts body).Keeps s :=
  feWordS_keeps fun s1 x => by simp [Res.Keeps]

theorem bothWordS_keeps {wb : State → List Nat → Res State} {fb : State → FrontEnd → Res State}
    (hw : ∀ s1 act, (wb s1 act).Keeps s1) (hf : ∀ s1 x, (fb s1 x).Keeps s1) : (bothWordS f s srcs dsts wb fb).Keeps s := by
  unfold bothWordS
  split
  · exact feWordS_keeps hf
  · exact warpWordS_keeps hw

theorem bothWord_keeps {wb : Core → List Nat → Res Core} {fb : FrontEnd → Res FrontEnd} : (bothWord f s srcs dsts wb fb).Keeps s := by
  unfold bothWord
  split
  · exact feWord_keeps
  · exact warpWord_keeps

end

/-- An outcome that goes on leaves the device standing as it stood. -/
def Keeps (s : State) : Host.Outcome State Fault Refusal → Prop
  | .next t => t.standing = s.standing
  | _ => True

@[simp] theorem keeps_next (s t : State) : Keeps s (.next t) ↔ t.standing = s.standing := Iff.rfl
@[simp] theorem keeps_fault (s : State) (x : Fault) : Keeps s (.fault x) := trivial
@[simp] theorem keeps_ite (s : State) (p : Prop) [Decidable p] (o q : Host.Outcome State Fault Refusal) :
    Keeps s (if p then o else q) ↔ if p then Keeps s o else Keeps s q := by split <;> rfl

theorem finish_keeps {s : State} {r : Res State} (h : r.Keeps s) : Keeps s (finish s r) := by
  cases r with
  | ok t => simpa [finish] using Res.post_iff.1 h t rfl
  | trap | wait | waitAll => simp [finish]

theorem finishQuiet_keeps {s : State} {r : Res State} (h : r.Keeps s) : Keeps s (finishQuiet s r) := by
  cases r with
  | ok t => simpa [finishQuiet] using Res.post_iff.1 h t rfl
  | trap | wait | waitAll => simp [finishQuiet, finish]

theorem intWord_keeps {f s d srcs warp front} : (intWord f s d srcs warp front).Keeps s := bothWord_keeps
theorem binWord_keeps {f s d a b op} : (binWord f s d a b op).Keeps s := intWord_keeps
theorem unWord_keeps {f s d a op} : (unWord f s d a op).Keeps s := intWord_keeps
theorem modWord_keeps {f s d srcs warp front} : (modWord f s d srcs warp front).Keeps s := intWord_keeps
theorem floatWord_keeps {f s p d srcs val} : (floatWord f s p d srcs val).Keeps s := warpWord_keeps
theorem arithWord_keeps {s d a b op} : (arithWord s d a b op).Keeps s := floatWord_keeps
theorem pickWord_keeps {s d a b max} : (pickWord s d a b max).Keeps s := floatWord_keeps
theorem specialWord_keeps {k s d a} : (specialWord k s d a).Keeps s := floatWord_keeps
theorem pairWord_keeps {s d a b op} : (pairWord s d a b op).Keeps s := floatWord_keeps
theorem crossWord_keeps {f : Form} {s d srcs pd pre val} : (crossWord f s d srcs pd pre val).Keeps s := by
  unfold crossWord; exact warpWord_keeps
theorem moveWord_keeps {s : State} {d a b srcs namer} : (moveWord s d a b srcs namer).Keeps s := by
  unfold moveWord; exact crossWord_keeps

theorem acceptWord_keeps {s act m} : (acceptWord s act m).Keeps s := by
  unfold acceptWord Res.Keeps
  dsimp only
  repeat' split
  all_goals simp

theorem memWord_keeps {f s idx ok m} : (memWord f s idx ok m).Keeps s := by
  exact Res.post_after fun _ => Res.post_after fun _ => warpWordS_keeps fun _ _ => acceptWord_keeps

theorem loadWord_keeps {s : State} {d buf idx f sz space} : (loadWord s d buf idx f sz space).Keeps s := by
  unfold loadWord; exact memWord_keeps
theorem storeWord_keeps {s : State} {d buf idx f sz space} : (storeWord s d buf idx f sz space).Keeps s := by
  unfold storeWord; exact memWord_keeps
theorem atomWord_keeps {s : State} {d buf idx f sz spaces returns acq rel} :
    (atomWord s d buf idx f sz spaces returns acq rel).Keeps s := by
  unfold atomWord; exact memWord_keeps
theorem orderWord_keeps {s ok acq} : (orderWord s ok acq).Keeps s := bothWord_keeps

theorem barWord_keeps {s a srcs dsts wb fb} : (barWord s a srcs dsts wb fb).Keeps s :=
  bothWordS_keeps
    (fun s1 act => by
      dsimp only
      split
      · trivial
      · simp [Res.Keeps])
    (fun s1 x => by
      dsimp only
      split
      · trivial
      · simp [Res.Keeps])

theorem engineWord_keeps {s : State} {f node srcs dsts block dst val feVal feOk mk follows} :
    (engineWord s f node srcs dsts block dst val feVal feOk mk follows).Keeps s := by
  unfold engineWord
  refine Res.post_after fun _ => Res.post_after fun _ => bothWordS_keeps (fun s1 act => ?_) (fun s1 x => ?_)
  all_goals
    dsimp only
    repeat' split
    all_goals simp [Res.Keeps]

theorem engineSrc_keeps {s f node a mk} : (engineSrc s f node a mk).Keeps s := engineWord_keeps
theorem commandWord_keeps {s : State} {f node a kind} : (commandWord s f node a kind).Keeps s := by
  unfold commandWord; exact engineWord_keeps

theorem mxWord_keeps {f s dsts ok bad} {body : State → List Nat → Res State} (h : ∀ s1 act, (body s1 act).Keeps s1) :
    (mxWord f s dsts ok bad body).Keeps s := by
  unfold mxWord
  refine Res.post_after fun _ => Res.post_after fun _ => ?_
  split
  · trivial
  · exact warpWordS_keeps fun s1 act => Res.post_after fun _ => h s1 act

theorem postMatrix_keeps {s act f op after stores} : (postMatrix s act f op after stores).Keeps s := by
  unfold postMatrix
  dsimp only
  split
  · trivial
  · simp [Res.Keeps]

theorem latchWord_keeps {s : State} {f a mask n extra rows op} : (latchWord s f a mask n extra rows op).Keeps s := by
  unfold latchWord
  refine mxWord_keeps fun s1 act => ?_
  dsimp only
  split
  · trivial
  · exact postMatrix_keeps

theorem hdrWarp_keeps {s wait a b y} : (hdrWarp s wait a b y).Keeps s := by
  unfold hdrWarp
  dsimp only
  repeat' split
  all_goals simp [Res.Keeps]

theorem withTarget_keeps {s off} {f : Nat → Res State} (h : ∀ p, (f p).Keeps s) : (withTarget s off f).Keeps s := by
  unfold withTarget
  split
  · trivial
  · exact h _

theorem directBranch_keeps {s off takenW takenF} : (directBranch s off takenW takenF).Keeps s := withTarget_keeps fun _ => bothWord_keeps
theorem indirectBranch_keeps {s a} : (indirectBranch s a).Keeps s := Res.post_after fun _ => bothWord_keeps

theorem State.tailThread_keeps {s : State} {u : Nat} : (s.tailThread u).Keeps s := by
  unfold State.tailThread
  dsimp only
  split
  · trivial
  · simp [Res.Keeps]

theorem forEach_keeps {α : Type} {f : α → State → Res State} (h : ∀ a s, (f a s).Keeps s) (l : List α) (s : State) :
    (forEach f l s).Keeps s := by
  have step (a : α) (t : State) (ht : t.standing = s.standing) : (f a t).Keeps s := (h a t).trans ht
  unfold Res.Keeps at step ⊢
  exact forEach_post step l s rfl

theorem tdropRun_keeps {s us a} : (tdropRun s us a).Keeps s := by
  unfold tdropRun
  dsimp only
  split
  · trivial
  · refine Res.post_after fun _ => ?_
    split <;> simp

theorem tinvRun_keeps {s us a b} : (tinvRun s us a b).Keeps s := by
  unfold tinvRun
  dsimp only
  split
  · trivial
  · refine Res.post_after fun _ => ?_
    split <;> simp

theorem State.thalo_post (s : State) (act : List Nat) (a b lane : Nat) :
    (s.thalo act a b lane).Post (fun r => r.1.standing = s.standing) := by
  unfold State.thalo
  dsimp only
  split
  · trivial
  · refine Res.post_after fun _ => ?_
    split <;> simp

theorem poolWord_keeps {s : State} {f d a n pd pe op} : (poolWord s f d a n pd pe op).Keeps s := by
  unfold poolWord
  refine Res.post_after fun _ => Res.post_after fun _ => warpWordS_keeps fun s1 act => ?_
  dsimp only
  split
  · exact rfl
  · unfold Res.Keeps
    rw [Res.post_map]
    refine Res.post_of_forall (fun c1 => ?_) _
    rw [foldl_standing _ (fun s u => by split <;> simp)]
    simp

theorem xqWord_keeps {s : State} {f ctrl blk write h} : (xqWord s f ctrl blk write h).Keeps s := by
  unfold xqWord
  refine Res.post_after fun _ => Res.post_after fun _ => warpWordS_keeps fun s1 act => ?_
  split
  · exact rfl
  · dsimp only
    split
    · trivial
    · simp [Res.Keeps]

theorem quotaWord_keeps {s d a wr} : (quotaWord s d a wr).Keeps s := by
  unfold quotaWord
  refine Res.post_after fun _ => Res.post_after fun _ => warpWordS_keeps fun s1 act => ?_
  split
  · exact rfl
  · dsimp only
    repeat' split
    all_goals simp [Res.Keeps]

theorem State.issueGrammar_keeps {s : State} {act : List Nat} {w : GrammarWord} : (s.issueGrammar act w).Keeps s := by
  unfold State.issueGrammar
  have h := s.grammar_standing s.cur.core act w
  dsimp only
  split
  all_goals rename_i e; rw [e] at h
  next s1 res => simpa [Res.Keeps] using h
  next s1 va =>
    split
    next s2 x e1 => simpa [Res.Keeps, State.openX_standing e1] using h
    next => trivial
  next => trivial

theorem grammarWord_keeps {s : State} {f d a nd na w} : (grammarWord s f d a nd na w).Keeps s := by
  unfold grammarWord
  refine Res.post_after fun _ => Res.post_after fun _ => warpWordS_keeps fun s1 act => ?_
  dsimp only
  split
  · exact rfl
  · exact Res.post_after fun x => Res.post_after fun c => State.issueGrammar_keeps.trans (s1.setCore_standing ..)

theorem migWord_keeps {s : State} {sel d a b rel} {body : State → Nat → Nat → Nat → State × Word}
    (h : ∀ s1 x y z, (body s1 x y z).1.standing = s1.standing) : (migWord s sel d a b rel body).Keeps s := by
  unfold migWord
  refine warpWordS_keeps fun s1 act => ?_
  split
  · exact rfl
  · dsimp only
    split
    · trivial
    · simp [Res.Keeps, h]

theorem snapWord_keeps {f s srcs ok} {body : State → List Nat → Res State} (h : ∀ s1 act, (body s1 act).Keeps s1) :
    (snapWord f s srcs ok body).Keeps s :=
  Res.post_after fun _ => Res.post_after fun _ => warpWordS_keeps h

theorem snapCore_keeps {f : Form} {s srcs ok body} : (snapCore f s srcs ok body).Keeps s :=
  snapWord_keeps fun s1 act => by simp [Res.Keeps]

theorem State.spawnAll_keeps {k d e n far done} (act : List Nat) (s : State) : (State.spawnAll k d e n far done act s).Keeps s :=
  forEach_keeps (fun u s => by simp [Res.Keeps]) act s

theorem spawnWord_keeps {s : State} {d a n far} : (spawnWord s d a n far).Keeps s := by
  unfold spawnWord
  refine snapWord_keeps fun s1 act => Res.post_after fun _ => Res.post_after fun c0 => Res.post_after fun s3 => ?_
  rw [Res.post_map]
  simpa [Res.Keeps] using State.spawnAll_keeps act (s1.setCore s.cur.core c0)

theorem tretWord_keeps {s : State} {sel d a b mode} : (tretWord s sel d a b mode).Keeps s := by
  unfold tretWord
  refine Res.post_after fun _ => ?_
  dsimp only
  split
  · trivial
  · refine Res.post_after fun _ => warpWordS_keeps fun s1 act => Res.post_after fun _ => ?_
    repeat' split
    all_goals simp

theorem onceWord_keeps {f : Form} {s srcs d ok bad x fx wide cycles} {body : State → Nat → State × DWord}
    (h : ∀ s1 n, (body s1 n).1.standing = s1.standing) : (onceWord f s srcs d ok bad x fx body wide cycles).Keeps s := by
  unfold onceWord
  refine Res.post_after fun _ => Res.post_after fun _ => bothWordS_keeps (fun s1 act => ?_) (fun s1 y => ?_)
  · split
    · exact rfl
    · dsimp only
      split
      · trivial
      · simp [Res.Keeps, h]
  · dsimp only
    split
    · trivial
    · simp [Res.Keeps, h]

theorem ckptWord_keeps {s : State} {sel d mid} {op : State → Nat → State} (h : ∀ s1 p, (op s1 p).standing = s1.standing) :
    (ckptWord s sel d op mid).Keeps s := by
  unfold ckptWord
  refine bothWordS_keeps (fun s1 us => ?_) (fun s1 y => ?_)
  · dsimp only
    split
    · exact rfl
    · refine Res.post_after fun c => ?_
      dsimp only
      split <;> simp [h]
  · dsimp only
    split <;> simp [Res.Keeps, h]

theorem onReq_keeps {s : State} {core id : Nat} {ok : Req → Bool} {f : Req → State} (h : ∀ r, (f r).standing = s.standing) :
    Keeps s (onReq s core id ok f) := by
  unfold onReq
  repeat' split
  all_goals simp [h]

/-! ### Every instruction -/

theorem getAt_mem {α : Type} (l : List α) (n : Nat) (d : α) : getAt l n d = d ∨ getAt l n d ∈ l := by
  induction l generalizing n with
  | nil => exact .inl rfl
  | cons a l ih =>
    cases n with
    | zero => exact .inr List.mem_cons_self
    | succ n => exact (ih n).imp id (List.mem_cons_of_mem a)

theorem pickFree_mem {α : Type} {draw : Nat} {l : List α} {a : α} (h : pickFree draw l = some a) : a ∈ l := by
  unfold pickFree at h
  split at h
  · cases h
  · cases h; exact List.mem_cons_self
  next x xs _ =>
    cases h
    exact (getAt_mem (x :: xs) _ x).elim (fun e => by rw [e]; exact List.mem_cons_self) id

theorem next_keeps {s t : State} (h : t.standing = s.standing) : Keeps s (.next t) := (keeps_next s t).2 h

theorem execHdr_keeps (wait : BitVec 12) (setA setB : BitVec 4) (y : Bool) (s : State) : Keeps s (execHdr wait setA setB y s) := by
  unfold execHdr
  refine finishQuiet_keeps ?_
  split
  · exact feWord_keeps
  · exact hdrWarp_keeps

theorem execExit_keeps (lk : Link) (s : State) : Keeps s (execExit lk s) := by
  unfold execExit
  refine finish_keeps (bothWordS_keeps (fun s1 act => ?_) fun s1 x => ?_)
  all_goals
    split
    · trivial
    · simp [Res.Keeps]

theorem execTail_keeps (lk : Link) (s : State) : Keeps s (execTail lk s) := by
  unfold execTail
  refine finish_keeps (warpWordS_keeps fun s1 act => ?_)
  dsimp only
  split
  · trivial
  · have h := forEach_keeps (f := State.tailThread) (fun u t => State.tailThread_keeps) act s1
    unfold Res.Keeps at h ⊢
    simpa using h

theorem execYield_keeps (lk : Link) (l : BitVec 8) (s : State) : Keeps s (execYield lk l s) := by
  unfold execYield
  refine finish_keeps (warpWordS_keeps fun s1 act => ?_)
  dsimp only
  split
  · trivial
  · simp [Res.Keeps]

theorem execDqput_keeps (i : BitVec 2) (a b : Reg) (s : State) : Keeps s (execDqput i a b s) := by
  unfold execDqput
  refine finish_keeps (feWordS_keeps fun s1 x => ?_)
  dsimp only
  repeat' split
  all_goals simp [Res.Keeps]

theorem execExt_keeps (c3 : Reg) (rm : BitVec 3) (sr sat : Bool) (g sel : BitVec 4) (s : State) :
    Keeps s (execExt c3 rm sr sat g sel s) := by
  unfold execExt
  dsimp only
  repeat' split
  all_goals simp

theorem execPref_keeps (lk : Link) (buf : BitVec 5) (idx : Reg) (sz : BitVec 3) (s : State) : Keeps s (execPref lk buf idx sz s) := by
  unfold execPref
  refine finish_keeps (warpWordS_keeps fun s1 act => ?_)
  dsimp only
  repeat' split
  all_goals simp [Res.Keeps]

theorem execBufset_keeps (i : BitVec 2) (d a b : Reg) (s : State) : Keeps s (execBufset i d a b s) := by
  unfold execBufset
  refine finish_keeps (feWordS_keeps fun s1 x => ?_)
  dsimp only
  repeat' split
  all_goals simp [Res.Keeps]

theorem execFrecXlate_keeps (lk : Link) (d : Reg) (s : State) : Keeps s (execFrecXlate lk d s) := by
  unfold execFrecXlate
  refine finish_keeps (Res.post_after fun _ => Res.post_after fun _ => warpWordS_keeps fun s1 act => forEach_keeps (fun u s2 => ?_) act s1)
  dsimp only
  split
  · trivial
  · simp [Res.Keeps]

theorem execQpush_keeps (i : BitVec 2) (a b : Reg) (s : State) : Keeps s (execQpush i a b s) := by
  unfold execQpush
  refine finish_keeps (feWordS_keeps fun s1 x => ?_)
  dsimp only
  repeat' split
  all_goals simp [Res.Keeps]

theorem execAcq_keeps (lk : Link) (s : State) : Keeps s (execAcq lk s) := by
  unfold execAcq
  refine finish_keeps ?_
  have h : (orderWord s Core.loadsDone true).Keeps s := orderWord_keeps
  unfold Res.Keeps at h ⊢
  simpa using h

theorem execFence_keeps (lk : Link) (s : State) : Keeps s (execFence lk s) := by
  unfold execFence
  refine finish_keeps ?_
  have h : (orderWord s Core.released true).Keeps s := orderWord_keeps
  unfold Res.Keeps at h ⊢
  simpa using h

theorem execMresv_keeps (lk : Link) (acc : BitVec 3) (a : Reg) (s : State) : Keeps s (execMresv lk acc a s) := by
  unfold execMresv
  refine finish_keeps (mxWord_keeps fun s1 act => ?_)
  dsimp only
  split <;> simp [Res.Keeps]

theorem execMma_keeps (lk : Link) (acc : BitVec 3) (mode : BitVec 2) (f z : Bool) (t : BitVec 4) (s : State) :
    Keeps s (execMma lk acc mode f z t s) := by
  unfold execMma
  refine finish_keeps (mxWord_keeps fun s1 act => ?_)
  split
  · trivial
  · exact postMatrix_keeps

theorem execMst_keeps (lk : Link) (acc : BitVec 3) (mode : BitVec 2) (f : Bool) (a : Reg) (l : Bool) (t : BitVec 4) (s : State) :
    Keeps s (execMst lk acc mode f a l t s) := by
  unfold execMst
  refine finish_keeps (mxWord_keeps fun s1 act => ?_)
  dsimp only
  split
  · trivial
  · refine postMatrix_keeps.trans ?_
    split <;> simp

theorem execMfree_keeps (lk : Link) (acc : BitVec 3) (s : State) : Keeps s (execMfree lk acc s) := by
  unfold execMfree
  refine finish_keeps (mxWord_keeps fun s1 act => ?_)
  dsimp only
  split <;> simp [Res.Keeps]

theorem execTreg_keeps (lk : Link) (d a : Reg) (s : State) : Keeps s (execTreg lk d a s) := by
  unfold execTreg
  refine finish_keeps (bothWordS_keeps (fun s1 act => ?_) fun s1 x => ?_)
  all_goals
    repeat' split
    all_goals simp [Res.Keeps]

theorem execTdrop_keeps (lk : Link) (a : Reg) (s : State) : Keeps s (execTdrop lk a s) := by
  unfold execTdrop
  refine finish_keeps (bothWordS_keeps (fun s1 act => ?_) fun s1 x => tdropRun_keeps)
  split
  · exact rfl
  · exact tdropRun_keeps

theorem execTfetch_keeps (lk : Link) (a b : Reg) (s : State) : Keeps s (execTfetch lk a b s) := by
  unfold execTfetch
  refine finish_keeps (bothWordS_keeps (fun s1 act => ?_) fun s1 x => ?_)
  all_goals
    dsimp only
    repeat' split
    all_goals simp [Res.Keeps]

theorem execThalo_keeps (lk : Link) (d a b : Reg) (s : State) : Keeps s (execThalo lk d a b s) := by
  unfold execThalo
  refine finish_keeps (bothWordS_keeps (fun s1 act => ?_) fun s1 x => ?_)
  · split
    · exact rfl
    · refine (State.thalo_post ..).bind fun r hr => ?_
      simp [hr]
  · have h := State.thalo_post s1 [] ((x.read s.cur.draw a).toNat % 2 ^ 32) ((x.read s.cur.draw b).toNat % 2 ^ 32) 0
    simpa [Res.Keeps] using h

theorem execTinv_keeps (lk : Link) (a b : Reg) (s : State) : Keeps s (execTinv lk a b s) := by
  unfold execTinv
  refine finish_keeps (bothWordS_keeps (fun s1 act => ?_) fun s1 x => tinvRun_keeps)
  split
  · exact rfl
  · exact tinvRun_keeps

theorem execKvnewPool_keeps (lk : Link) (d a : Reg) (pd : BitVec 3) (pe : Bool) (s : State) : Keeps s (execKvnewPool lk d a pd pe s) := by
  unfold execKvnewPool
  refine finish_keeps (Res.post_after fun _ => Res.post_after fun _ => warpWordS_keeps fun s1 act => ?_)
  split
  · exact rfl
  · simp [Res.Keeps]

theorem execKvnewDrop_keeps (lk : Link) (d a : Reg) (pd : BitVec 3) (pe : Bool) (s : State) : Keeps s (execKvnewDrop lk d a pd pe s) := by
  unfold execKvnewDrop
  refine finish_keeps (Res.post_after fun _ => Res.post_after fun _ => warpWordS_keeps fun s1 act => ?_)
  split
  · exact rfl
  · simp [Res.Keeps]

theorem execKvforkCow_keeps (lk : Link) (d : Reg) (pd : BitVec 3) (pe : Bool) (s : State) : Keeps s (execKvforkCow lk d pd pe s) := by
  unfold execKvforkCow
  refine finish_keeps (Res.post_after fun _ => Res.post_after fun _ => warpWordS_keeps fun s1 act => ?_)
  dsimp only
  repeat' split
  all_goals simp [Res.Keeps]

theorem execTrap_keeps (lk : Link) (a : Reg) (s : State) : Keeps s (execTrap lk a s) := by
  unfold execTrap
  refine finish_keeps (bothWordS_keeps (fun s1 act => ?_) fun s1 x => ?_)
  · split
    · exact rfl
    · trivial
  · trivial

theorem execSyswr_keeps (lk : Link) (a b : Reg) (s : State) : Keeps s (execSyswr lk a b s) := by
  unfold execSyswr
  refine finish_keeps (bothWordS_keeps (fun s1 act => ?_) fun s1 x => ?_)
  all_goals
    dsimp only
    repeat' split
    all_goals simp [Res.Keeps]

theorem execPerf_keeps (lk : Link) (d a : Reg) (s : State) : Keeps s (execPerf lk d a s) := by
  unfold execPerf
  refine finish_keeps (onceWord_keeps fun s1 n => ?_)
  simp

theorem execHaltctx_keeps (lk : Link) (d a : Reg) (s : State) : Keeps s (execHaltctx lk d a s) := by
  unfold execHaltctx
  refine finish_keeps (onceWord_keeps fun s1 n => ?_)
  simp

theorem execWatchdog_keeps (core uid : Nat) (s : State) : Keeps s (execWatchdog core uid s) := by
  unfold execWatchdog
  dsimp only
  repeat' split
  all_goals simp

theorem execSleepWake_keeps (core uid : Nat) (s : State) : Keeps s (execSleepWake core uid s) := by
  unfold execSleepWake
  dsimp only
  repeat' split
  all_goals simp

theorem execOfferTimeout_keeps (core uid : Nat) (s : State) : Keeps s (execOfferTimeout core uid s) := by
  unfold execOfferTimeout
  dsimp only
  repeat' split
  all_goals simp

theorem execTeardownComplete_keeps (launch : Nat) (s : State) : Keeps s (execTeardownComplete launch s) := by
  unfold execTeardownComplete
  repeat' split
  all_goals simp

theorem execMigrationLineCopy_keeps (die entry : Nat) (s : State) : Keeps s (execMigrationLineCopy die entry s) := by
  unfold execMigrationLineCopy
  dsimp only
  repeat' split
  all_goals simp

theorem execBarrierRecheck_keeps (core barrier : Nat) (s : State) : Keeps s (execBarrierRecheck core barrier s) := by
  unfold execBarrierRecheck
  dsimp only
  repeat' split
  all_goals simp

theorem execJacquardWordApply_keeps (cluster : Nat) (s : State) : Keeps s (execJacquardWordApply cluster s) := by
  unfold execJacquardWordApply
  repeat' split
  all_goals simp

theorem execEngineLaunch_keeps (cluster : Nat) (s : State) : Keeps s (execEngineLaunch cluster s) := by
  unfold execEngineLaunch
  dsimp only
  repeat' split
  all_goals simp

theorem execEngineLaunchCompletion_keeps (cluster slot : Nat) (s : State) : Keeps s (execEngineLaunchCompletion cluster slot s) := by
  unfold execEngineLaunchCompletion
  dsimp only
  repeat' split
  all_goals simp

theorem execMatrixWordApply_keeps (core : Nat) (s : State) : Keeps s (execMatrixWordApply core s) := by
  unfold execMatrixWordApply
  split
  next s1 e => simpa using State.matrixMoves_standing (pickFree_mem e)
  next => simp

theorem execMatrixPassGrant_keeps (cluster : Nat) (s : State) : Keeps s (execMatrixPassGrant cluster s) := by
  unfold execMatrixPassGrant
  dsimp only
  repeat' split
  all_goals simp

theorem execMatrixPassComplete_keeps (cluster : Nat) (s : State) : Keeps s (execMatrixPassComplete cluster s) := by
  unfold execMatrixPassComplete
  dsimp only
  repeat' split
  all_goals simp

theorem execLatchLoadComplete_keeps (core : Nat) (s : State) : Keeps s (execLatchLoadComplete core s) := by
  unfold execLatchLoadComplete
  repeat' split
  all_goals simp

theorem execMstCredit_keeps (core id : Nat) (s : State) : Keeps s (execMstCredit core id s) := by
  unfold execMstCredit
  dsimp only
  repeat' split
  all_goals simp

theorem execBrocadeSweep_keeps (n : Nat) (s : State) : Keeps s (execBrocadeSweep n s) := by
  unfold execBrocadeSweep
  repeat' split
  all_goals simp

theorem execTinvSliceApply_keeps (core uid slice : Nat) (s : State) : Keeps s (execTinvSliceApply core uid slice s) := by
  unfold execTinvSliceApply
  repeat' split
  all_goals simp

theorem execTwillChase_keeps (die : Nat) (s : State) : Keeps s (execTwillChase die s) := by
  unfold execTwillChase
  dsimp only
  repeat' split
  all_goals simp

theorem execPoolLaneOperation_keeps (vf pool : Nat) (s : State) : Keeps s (execPoolLaneOperation vf pool s) := by
  unfold execPoolLaneOperation
  repeat' split
  all_goals simp

theorem execGraphLoadComplete_keeps (vf slot : Nat) (s : State) : Keeps s (execGraphLoadComplete vf slot s) := by
  unfold execGraphLoadComplete
  dsimp only
  repeat' split
  all_goals simp

theorem execRunStart_keeps (vf slot : Nat) (s : State) : Keeps s (execRunStart vf slot s) := by
  unfold execRunStart
  dsimp only
  repeat' split
  all_goals simp

theorem execSchedulerDispatch_keeps (s : State) : Keeps s (execSchedulerDispatch s) := by
  unfold execSchedulerDispatch
  dsimp only
  repeat' split
  all_goals simp

theorem execLaunchComplete_keeps (launch : Nat) (s : State) : Keeps s (execLaunchComplete launch s) := by
  unfold execLaunchComplete
  dsimp only
  repeat' split
  all_goals simp

theorem execSliceExpiry_keeps (vf : Nat) (s : State) : Keeps s (execSliceExpiry vf s) := by
  unfold execSliceExpiry
  dsimp only
  repeat' split
  all_goals simp

theorem execGraceExpiry_keeps (vf : Nat) (s : State) : Keeps s (execGraceExpiry vf s) := by
  unfold execGraceExpiry
  dsimp only
  repeat' split
  all_goals simp

theorem execKillExpiry_keeps (vf : Nat) (s : State) : Keeps s (execKillExpiry vf s) := by
  unfold execKillExpiry
  dsimp only
  repeat' split
  all_goals simp

theorem execContextSave_keeps (vf : Nat) (s : State) : Keeps s (execContextSave vf s) := by
  unfold execContextSave
  dsimp only
  repeat' split
  all_goals simp

theorem execContextResume_keeps (vf : Nat) (s : State) : Keeps s (execContextResume vf s) := by
  unfold execContextResume
  split
  next s1 e => simpa using State.resume_standing e
  next => simp

theorem execCheckpointSweep_keeps (part : Nat) (s : State) : Keeps s (execCheckpointSweep part s) := by
  unfold execCheckpointSweep
  dsimp only
  repeat' split
  all_goals simp

theorem execPieceReserveCopy_keeps (part piece : Nat) (s : State) : Keeps s (execPieceReserveCopy part piece s) := by
  unfold execPieceReserveCopy
  repeat' split
  all_goals simp

theorem execCheckpointDrain_keeps (part : Nat) (s : State) : Keeps s (execCheckpointDrain part s) := by
  unfold execCheckpointDrain
  dsimp only
  repeat' split
  all_goals simp

theorem execQuantumScrub_keeps (q : Nat) (s : State) : Keeps s (execQuantumScrub q s) := by
  unfold execQuantumScrub
  dsimp only
  repeat' split
  all_goals simp

theorem execUnallocatedEncoding_keeps (packet : Bool) (slot : Nat) (s : State) : Keeps s (execUnallocatedEncoding packet slot s) := by
  unfold execUnallocatedEncoding
  repeat' split
  all_goals simp

theorem execMessageEnqueued_keeps (core uid : Nat) (s : State) : Keeps s (execMessageEnqueued core uid s) := by
  unfold execMessageEnqueued
  repeat' split
  all_goals simp

theorem execPcfg_keeps (part : Nat) (record : List (BitVec 8)) (s : State) : Keeps s (execPcfg part record s) := by
  unfold execPcfg
  dsimp only
  repeat' split
  all_goals simp

theorem execQmove_keeps (q target : Nat) (s : State) : Keeps s (execQmove q target s) := by
  unfold execQmove
  dsimp only
  repeat' split
  all_goals simp

theorem execQuantumOnline_keeps (q part : Nat) (s : State) : Keeps s (execQuantumOnline q part s) := by
  unfold execQuantumOnline
  dsimp only
  repeat' split
  all_goals simp

theorem execMemoryRelease_keeps (part : Nat) (cxl : Bool) (unit count : Nat) (s : State) :
    Keeps s (execMemoryRelease part cxl unit count s) := by
  unfold execMemoryRelease
  dsimp only
  repeat' split
  all_goals simp

theorem execFwupdate_keeps (image : List (BitVec 8)) (s : State) : Keeps s (execFwupdate image s) := by
  unfold execFwupdate
  repeat' split
  all_goals simp

theorem execHostCxlMemWrite_keeps (pf : Bool) (vf addr : Nat) (bytes : List (BitVec 8)) (s : State) :
    Keeps s (execHostCxlMemWrite pf vf addr bytes s) := by
  unfold execHostCxlMemWrite
  dsimp only
  repeat' split
  all_goals simp

theorem execHostCxlMemRead_keeps (pf : Bool) (vf addr len : Nat) (s : State) : Keeps s (execHostCxlMemRead pf vf addr len s) := by
  unfold execHostCxlMemRead
  dsimp only
  repeat' split
  all_goals simp

theorem execClhandlerWrite_keeps (core uid : Nat) (fe : Bool) (v : BitVec 32) (s : State) :
    Keeps s (execClhandlerWrite core uid fe v s) := by
  unfold execClhandlerWrite
  dsimp only
  repeat' split
  all_goals simp

theorem execPerfselWrite_keeps (vf n : Nat) (v : BitVec 32) (s : State) : Keeps s (execPerfselWrite vf n v s) := by
  unfold execPerfselWrite
  repeat' split
  all_goals simp

theorem execUncorrectableError_keeps (pa : Nat) (s : State) : Keeps s (execUncorrectableError pa s) := by
  unfold execUncorrectableError
  repeat' split
  all_goals simp

theorem execGetMeasurements_keeps (index : Nat) (s : State) : Keeps s (execGetMeasurements index s) := by
  unfold execGetMeasurements
  repeat' split
  all_goals simp

theorem execOtherHostWrite_keeps (pa : Nat) (bytes : List (BitVec 8)) (s : State) : Keeps s (execOtherHostWrite pa bytes s) := by
  unfold execOtherHostWrite
  repeat' split
  all_goals simp

theorem execControllerDma_keeps (part addr : Nat) (xfer : DmaXfer) (s : State) : Keeps s (execControllerDma part addr xfer s) := by
  unfold execControllerDma
  dsimp only
  repeat' split
  all_goals simp

theorem execNvmeCommand_keeps (part nsid : Nat) (s : State) : Keeps s (execNvmeCommand part nsid s) := by
  unfold execNvmeCommand
  repeat' split
  all_goals simp

theorem execReport_keeps (s : State) : Keeps s (execReport s) := by
  unfold execReport
  repeat' split
  all_goals simp

/-- Start-up, RETRAIN, CLOCK_STEP and a reset apart, no instruction changes what stands of the device. -/
theorem exec_keeps (i : Instr) (s : State) (hp : ∀ b, i ≠ .powerOn b) (hr : i ≠ .retrain) (hd : i ≠ .deviceReset)
    (hc : ∀ up, i ≠ .clockStep up) :
    Keeps s (exec i s) := by
  cases i with
  | powerOn b => exact absurd rfl (hp b)
  | retrain => exact absurd rfl hr
  | deviceReset => exact absurd rfl hd
  | clockStep up => exact absurd rfl (hc up)
  | hdr => exact execHdr_keeps ..
  | nop | icmp | wdog => exact finish_keeps bothWord_keeps
  | bra | brc => exact finish_keeps directBranch_keeps
  | call => exact finish_keeps (withTarget_keeps fun _ => bothWord_keeps)
  | brx | ret => exact finish_keeps indirectBranch_keeps
  | exit lk => exact execExit_keeps lk ..
  | tail lk => exact execTail_keeps lk ..
  | prio | sleep | dqtake | join | leave | gbar | gfire | gsig | fcmp | cvtf | seed | rand | wdogSet =>
    exact finish_keeps warpWord_keeps
  | yield lk => exact execYield_keeps lk ..
  | dqput i => exact execDqput_keeps i ..
  | movi | sel | imad => exact finish_keeps intWord_keeps
  | movh | bfi => exact finish_keeps modWord_keeps
  | iaddi | popc | clz | brev | iabs => exact finish_keeps unWord_keeps
  | iadd | isub | imul | imulh | and | or | xor | andn | shl | shr | sar | rot | imin | imax | umin | umax | lea | idivs | bfx
  | bfxs => exact finish_keeps binWord_keeps
  | fadd | fsub | fmul => exact finish_keeps arithWord_keeps
  | ffma | fabs | cvtfi | cvtif | cvtsr | hfma2 | hmax2 => exact finish_keeps floatWord_keeps
  | fmin | fmax => exact finish_keeps pickWord_keeps
  | frcp | frsq | fsqrt | fex2 | flg2 | ftanh | fsin | fcos => exact finish_keeps specialWord_keeps
  | hadd2 | hmul2 => exact finish_keeps pairWord_keeps
  | ext => exact execExt_keeps ..
  | perm | bcast => exact finish_keeps moveWord_keeps
  | scan | redl | vote | matchLanes | elect | lanemask => exact finish_keeps crossWord_keeps
  | ld | lds | ldw => exact finish_keeps loadWord_keeps
  | st | sts | stw => exact finish_keeps storeWord_keeps
  | pref lk => exact execPref_keeps lk ..
  | bufset i => exact execBufset_keeps i ..
  | frec | qpop => exact finish_keeps (Res.post_after fun _ => Res.post_after fun _ => warpWord_keeps)
  | frecXlate lk => exact execFrecXlate_keeps lk ..
  | migctlStart | migctlQuery | migctlResolve | migctlAbort | migctlInvpg =>
    exact finish_keeps (migWord_keeps fun s1 x y z => by simp)
  | qpush i => exact execQpush_keeps i ..
  | atom | atomAcq | atomRel | atomnr | satom => exact finish_keeps atomWord_keeps
  | cas => exact finish_keeps memWord_keeps
  | acq lk => exact execAcq_keeps lk ..
  | rel => exact finish_keeps orderWord_keeps
  | fence lk => exact execFence_keeps lk ..
  | bwait | binit | barrive | bexpect | btest => exact finish_keeps barWord_keeps
  | ndef | nedge => exact finish_keeps engineSrc_keeps
  | nfire | nwait => exact finish_keeps engineWord_keeps
  | cpy | gath | scat => exact finish_keeps commandWord_keeps
  | mresv lk => exact execMresv_keeps lk ..
  | mldb | mgath | mtrn => exact finish_keeps latchWord_keeps
  | mma lk => exact execMma_keeps lk ..
  | mzero | mscale => exact finish_keeps (mxWord_keeps fun _ _ => postMatrix_keeps)
  | mst lk => exact execMst_keeps lk ..
  | mfree lk => exact execMfree_keeps lk ..
  | treg lk => exact execTreg_keeps lk ..
  | tdrop lk => exact execTdrop_keeps lk ..
  | tfetch lk => exact execTfetch_keeps lk ..
  | thalo lk => exact execThalo_keeps lk ..
  | tinv lk => exact execTinv_keeps lk ..
  | tlook | sysrd => exact finish_keeps (bothWordS_keeps (fun s1 act => by simp [Res.Keeps]) fun s1 x => by simp [Res.Keeps])
  | snap | rest | drop | hinfo | offer | hwait | hkill => exact finish_keeps snapCore_keeps
  | spawn | spawnFar => exact finish_keeps spawnWord_keeps
  | recruit | hend => exact finish_keeps (Res.post_after fun _ => snapCore_keeps)
  | kvnewSeq | kvapp | kvfork | kvfree | kvfreeTrunc | kvwalk | kvinvSet | kvinvClr | rspan => exact finish_keeps poolWord_keeps
  | kvnewPool lk => exact execKvnewPool_keeps lk ..
  | kvnewDrop lk => exact execKvnewDrop_keeps lk ..
  | kvforkCow lk => exact execKvforkCow_keeps lk ..
  | xqsend | xqrecv | xqrecvDraft => exact finish_keeps xqWord_keeps
  | gstep | gstepBind | gmask => exact finish_keeps grammarWord_keeps
  | kvquotaRd | kvquotaWr => exact finish_keeps quotaWord_keeps
  | trap lk => exact execTrap_keeps lk ..
  | tretRetry | tretNext | tretEnd => exact finish_keeps tretWord_keeps
  | syswr lk => exact execSyswr_keeps lk ..
  | perf lk => exact execPerf_keeps lk ..
  | haltctx lk => exact execHaltctx_keeps lk ..
  | ckptCut | ckptQuery | ckptAbort | ckptRestore => exact finish_keeps (ckptWord_keeps fun s1 p => by simp)
  | watchdog => exact execWatchdog_keeps ..
  | sleepWake => exact execSleepWake_keeps ..
  | offerTimeout => exact execOfferTimeout_keeps ..
  | teardownComplete => exact execTeardownComplete_keeps ..
  | loadDataArrival | storeRegistration | storeGrant | translationWalk => exact onReq_keeps fun r => by simp
  | atomicPerformance | atomicResultArrival => exact onReq_keeps fun r => by split <;> simp
  | migrationLineCopy => exact execMigrationLineCopy_keeps ..
  | barrierRecheck => exact execBarrierRecheck_keeps ..
  | jacquardWordApply => exact execJacquardWordApply_keeps ..
  | engineLaunch => exact execEngineLaunch_keeps ..
  | engineLaunchCompletion => exact execEngineLaunchCompletion_keeps ..
  | matrixWordApply => exact execMatrixWordApply_keeps ..
  | matrixPassGrant => exact execMatrixPassGrant_keeps ..
  | matrixPassComplete => exact execMatrixPassComplete_keeps ..
  | latchLoadComplete => exact execLatchLoadComplete_keeps ..
  | mstCredit => exact execMstCredit_keeps ..
  | brocadeSweep => exact execBrocadeSweep_keeps ..
  | tinvSliceApply => exact execTinvSliceApply_keeps ..
  | twillChase => exact execTwillChase_keeps ..
  | poolLaneOperation => exact execPoolLaneOperation_keeps ..
  | graphLoadComplete => exact execGraphLoadComplete_keeps ..
  | runStart => exact execRunStart_keeps ..
  | schedulerDispatch => exact execSchedulerDispatch_keeps ..
  | launchComplete => exact execLaunchComplete_keeps ..
  | sliceExpiry => exact execSliceExpiry_keeps ..
  | graceExpiry => exact execGraceExpiry_keeps ..
  | killExpiry => exact execKillExpiry_keeps ..
  | contextSave => exact execContextSave_keeps ..
  | contextResume => exact execContextResume_keeps ..
  | checkpointSweep => exact execCheckpointSweep_keeps ..
  | pieceReserveCopy => exact execPieceReserveCopy_keeps ..
  | checkpointDrain => exact execCheckpointDrain_keeps ..
  | quantumScrub => exact execQuantumScrub_keeps ..
  | unallocatedEncoding => exact execUnallocatedEncoding_keeps ..
  | messageEnqueued => exact execMessageEnqueued_keeps ..
  | graphloadLoad | graphloadUnload | triggerWrite | graphstatWrite | harespResolve | harespAbort | harespMakeCopy
  | harespStartRun | harespDiscardRun | harespPieceDrained | haqheadWrite | pretimersWrite | registerWrite | getCertificate
  | challenge | unsupportedRequest | pcieLinkError | getVersion | getCapabilities | negotiateAlgorithms | getDigests =>
    exact next_keeps (by simp)
  | pcfg => exact execPcfg_keeps ..
  | qmove => exact execQmove_keeps ..
  | quantumOnline => exact execQuantumOnline_keeps ..
  | memoryRelease => exact execMemoryRelease_keeps ..
  | fwupdate => exact execFwupdate_keeps ..
  | hostCxlMemWrite => exact execHostCxlMemWrite_keeps ..
  | hostCxlMemRead => exact execHostCxlMemRead_keeps ..
  | clhandlerWrite => exact execClhandlerWrite_keeps ..
  | perfselWrite => exact execPerfselWrite_keeps ..
  | uncorrectableError => exact execUncorrectableError_keeps ..
  | getMeasurements => exact execGetMeasurements_keeps ..
  | otherHostWrite => exact execOtherHostWrite_keeps ..
  | controllerDma => exact execControllerDma_keeps ..
  | nvmeCommand => exact execNvmeCommand_keeps ..
  | report => exact execReport_keeps ..

/-! ### The statement -/

theorem State.standing_eq_iff {s t : State} : t.standing = s.standing ↔
    t.boot = s.boot ∧ t.devcap = s.devcap ∧ t.variant = s.variant ∧ t.clockMHz = s.clockMHz := by
  unfold State.standing
  simp only [Prod.mk.injEq]

theorem exec_standing {i : Instr} {s t : State} (h : exec i s = .next t) (hp : ∀ b, i ≠ .powerOn b) (hr : i ≠ .retrain)
    (hd : i ≠ .deviceReset) (hc : ∀ up, i ≠ .clockStep up) :
    t.boot = s.boot ∧ t.devcap = s.devcap ∧ t.variant = s.variant ∧ t.clockMHz = s.clockMHz := by
  have hk := exec_keeps i s hp hr hd hc
  rw [h, keeps_next] at hk
  exact State.standing_eq_iff.1 hk

/-- A start that comes after start-up does nothing (R405). -/
theorem exec_powerOn_of_ne_off {s : State} (h : s.boot ≠ .off) (b : BootOutcome) : exec (.powerOn b) s = .next s := if_pos h

theorem exec_powerOn_next {s t : State} {b : BootOutcome} (h : exec (.powerOn b) s = .next t) :
    (s.boot ≠ .off → t.boot = s.boot) ∧ t.variant = s.variant ∧ (t.clockMHz = s.clockMHz ∨ t.clockMHz = 525) := by
  by_cases hb : s.boot = .off
  · change execPowerOn b s = .next t at h
    unfold execPowerOn at h
    rw [if_neg (not_not_intro hb)] at h
    dsimp only at h
    split at h <;> cases h <;> simp [hb]
  · rw [exec_powerOn_of_ne_off hb] at h
    cases h
    simp

theorem exec_retrain_next {s t : State} (h : exec .retrain s = .next t) :
    t.boot = s.boot ∧ t.variant = s.variant ∧ t.clockMHz = s.clockMHz := by
  change execRetrain s = .next t at h
  unfold execRetrain at h
  split at h <;> cases h
  · exact ⟨rfl, rfl, rfl⟩
  · exact ⟨rfl, rfl, rfl⟩

theorem exec_deviceReset_next {s t : State} (h : exec .deviceReset s = .next t) : t.variant = s.variant ∧ t.clockMHz = 1050 := by
  cases h
  exact ⟨rfl, rfl⟩

theorem exec_clockStep_next {s t : State} {up : Bool} (h : exec (.clockStep up) s = .next t) :
    t.boot = s.boot ∧ t.devcap = s.devcap ∧ t.variant = s.variant ∧
      (525 ≤ s.clockMHz → s.clockMHz ≤ 1050 → 525 ≤ t.clockMHz ∧ t.clockMHz ≤ 1050) := by
  change execClockStep up s = .next t at h
  unfold execClockStep at h
  split at h <;> cases h
  · refine ⟨rfl, rfl, rfl, fun lo hi => ?_⟩
    dsimp only
    split
    · exact ⟨Nat.le_min.2 ⟨by omega, by omega⟩, Nat.min_le_left ..⟩
    · exact ⟨Nat.le_max_left .., Nat.max_le.2 ⟨by omega, by omega⟩⟩
  · exact ⟨rfl, rfl, rfl, And.intro⟩

theorem exec_boot {i : Instr} {s t : State} (h : exec i s = .next t) (hp : ∀ b, i ≠ .powerOn b) (hd : i ≠ .deviceReset) :
    t.boot = s.boot ∧ (i ≠ .retrain → t.devcap = s.devcap) := by
  by_cases hr : i = .retrain
  · subst hr
    exact ⟨(exec_retrain_next h).1, absurd rfl⟩
  · by_cases hc : ∃ up, i = .clockStep up
    · obtain ⟨up, rfl⟩ := hc
      obtain ⟨hb, hcap, -⟩ := exec_clockStep_next h
      exact ⟨hb, fun _ => hcap⟩
    · obtain ⟨hb, hcap, -⟩ := exec_standing h hp hr hd (fun up e => hc ⟨up, e⟩)
      exact ⟨hb, fun _ => hcap⟩

theorem exec_boot_of_ne_off {i : Instr} {s t : State} (h : exec i s = .next t) (hd : i ≠ .deviceReset) (hs : s.boot ≠ .off) :
    t.boot = s.boot := by
  by_cases hp : ∃ b, i = .powerOn b
  · obtain ⟨b, rfl⟩ := hp
    exact (exec_powerOn_next h).1 hs
  · exact (exec_boot h (fun b e => hp ⟨b, e⟩) hd).1

theorem exec_variant_clock {i : Instr} {s t : State} (h : exec i s = .next t) :
    t.variant = s.variant ∧ (525 ≤ s.clockMHz → s.clockMHz ≤ 1050 → 525 ≤ t.clockMHz ∧ t.clockMHz ≤ 1050) := by
  by_cases hp : ∃ b, i = .powerOn b
  · obtain ⟨b, rfl⟩ := hp
    obtain ⟨-, hv, hc⟩ := exec_powerOn_next h
    exact ⟨hv, by omega⟩
  by_cases hr : i = .retrain
  · subst hr
    obtain ⟨-, hv, hc⟩ := exec_retrain_next h
    exact ⟨hv, by omega⟩
  by_cases hd : i = .deviceReset
  · subst hd
    obtain ⟨hv, hc⟩ := exec_deviceReset_next h
    exact ⟨hv, by omega⟩
  by_cases hc : ∃ up, i = .clockStep up
  · obtain ⟨up, rfl⟩ := hc
    obtain ⟨-, -, hv, hc⟩ := exec_clockStep_next h
    exact ⟨hv, hc⟩
  obtain ⟨-, -, hv, hcl⟩ :=
    exec_standing h (fun b e => hp ⟨b, e⟩) hr hd (fun up e => hc ⟨up, e⟩)
  exact ⟨hv, by omega⟩

/-- A step in the safe state leaves all as it is, or serves the first of the inputs still to be taken. -/
theorem step_of_safe {s t : State} {stage code unit : Word} (h : step s = .next t) (hs : s.boot = .safe stage code unit) :
    t = s ∨ ∃ i s1, s.inputs.head? = some i ∧ s1.standing = s.standing ∧ exec i s1 = .next t := by
  have hm : s.moves = (s.inputs.take 1).map .event := by simp [State.moves, hs]
  simp only [step, stepOnce, hm] at h
  cases hi : s.inputs with
  | nil => rw [hi] at h; cases h; exact .inl rfl
  | cons i is =>
    rw [hi] at h
    simp only [List.take_succ_cons, List.take_zero, List.map_cons, List.map_nil, doMove] at h
    refine .inr ⟨i, ?_⟩
    split at h
    · exact ⟨_, rfl, State.standing_mk .., h⟩
    · exact ⟨_, rfl, State.standing_mk .., h⟩

/-- Settles O60: every instruction but start-up, RETRAIN, CLOCK_STEP and a reset leaves start-up, DEVCAP, the variant and the clock as
they are, and those four are taken one by one. -/
theorem theSafeStateIsLeftByResetAlone : Obligations.TheSafeStateIsLeftByResetAlone := by
  unfold Obligations.TheSafeStateIsLeftByResetAlone
  refine ⟨fun i s t h hd => ⟨fun stage code unit hs => ?_, fun hs => ?_, fun hp => exec_boot h hp hd⟩,
    fun i s t h => exec_variant_clock h, fun s t stage code unit h hs hi => ?_⟩
  · exact (exec_boot_of_ne_off h hd (by simp [hs])).trans hs
  · exact (exec_boot_of_ne_off h hd (by simp [hs])).trans hs
  · obtain rfl | ⟨i, s1, hhead, hstand, he⟩ := step_of_safe h hs
    · exact ⟨hs, rfl⟩
    · obtain ⟨hb, -, hv, -⟩ := State.standing_eq_iff.1 hstand
      have hd : i ≠ .deviceReset := fun e => hi (by rw [hhead, e])
      exact ⟨(exec_boot_of_ne_off he hd (by simp [hb, hs])).trans (hb.trans hs), (exec_variant_clock he).1.trans hv⟩

end Sys2Proof.Machine
end

section
/-! PROOFS (start-up, the safe state, attestation and errors of the device: O58, O51). -/

namespace Sys2Proof.Machine

open Sys2Proof Sys2Proof.Claims

/-! ### Start-up -/

/-- What POWER_ON leaves of a device that was off: start-up, DEVCAP and the clock are set, and nothing else changes (R405). -/
theorem exec_powerOn_of_off {s : State} (h : s.boot = .off) (b : BootOutcome) :
    ∃ boot w clock, boot ≠ .off ∧ exec (.powerOn b) s = .next { s with boot := boot, devcap := w, clockMHz := clock } := by
  change ∃ boot w clock, _ ∧ execPowerOn b s = _
  unfold execPowerOn
  rw [if_neg (not_not_intro h)]
  dsimp only
  split
  · exact ⟨.running, _, s.clockMHz, nofun, rfl⟩
  · exact ⟨.safe .., _, 525, nofun, rfl⟩

/-- The first step after reset is the start-up, with a free outcome. -/
theorem step_reset : step State.reset =
    exec (.powerOn (bootOutcome (Config.freeBoot 0))) { State.reset with cur := { Cur.idle with draw := 0 }, draws := 1 } := rfl

theorem Memory.wf_nil : Memory.wf [] := ⟨.nil, List.forall_mem_nil _⟩

theorem reset_memoriesWf : State.reset.memoriesWf :=
  ⟨Memory.wf_nil, Memory.wf_nil, List.forall_mem_nil _, List.forall_mem_nil _, List.forall_mem_nil _⟩

/-- Settles O58: the one move of the reset machine is its start-up, and a start-up touches neither memories nor threads. -/
theorem resetAwaitsPowerOn : Obligations.ResetAwaitsPowerOn := by
  unfold Obligations.ResetAwaitsPowerOn
  refine ⟨reset_memoriesWf, rfl, rfl, rfl, fun a => ⟨rfl, rfl, rfl⟩, fun k => ⟨rfl, rfl, rfl⟩, ⟨_, rfl, step_reset⟩, ?_⟩
  obtain ⟨boot, w, clock, hb, he⟩ := exec_powerOn_of_off
    (s := { State.reset with cur := { Cur.idle with draw := 0 }, draws := 1 }) rfl (bootOutcome (Config.freeBoot 0))
  exact ⟨_, step_reset.trans he, hb, reset_memoriesWf, rfl, rfl⟩

theorem bootFailed_eq_some_iff {b : BootOutcome} {n : Nat} : bootFailed b = some (n, n) ↔ stageFailed b n := by
  unfold bootFailed stageFailed
  cases b.firmwareOk <;> cases b.bistOk <;> cases b.linksOk <;> cases b.imagesOk <;> simp [eq_comm]

theorem bootFailed_eq_none_or (b : BootOutcome) : bootFailed b = none ∨ ∃ n, bootFailed b = some (n, n) := by
  unfold bootFailed
  repeat' split
  all_goals simp

theorem bootFailed_eq_none {b : BootOutcome} (h : ∀ n, ¬ stageFailed b n) : bootFailed b = none :=
  (bootFailed_eq_none_or b).resolve_right fun ⟨n, e⟩ => h n (bootFailed_eq_some_iff.1 e)

theorem getLsbD_allOnes_of_lt {n i : Nat} (h : i < n) : (BitVec.allOnes n).getLsbD i = true := by
  rw [BitVec.getLsbD_allOnes, decide_eq_true h]

/-- DEVCAP as it is built, bit by bit: the variant's, without the stacks and ports that did not train (R3, R405). -/
theorem builtCap_trained {v : Nat} {hbm : BitVec 12} {ports : BitVec 4} {f g : Nat → Bool} (hf : ∀ i < 12, f i = hbm.getLsbD i)
    (hg : ∀ i < 4, g i = ports.getLsbD i) : trainedCap v f g (builtCap (variantCap v) hbm ports) := by
  intro i hi
  change (variantCap v &&& (255#8 ++ hbm ++ 255#8 ++ ports)).getLsbD i = ((variantCap v).getLsbD i && _ && _)
  have h1 (j : Nat) (h : j < 8) : (255#8).getLsbD j = true := getLsbD_allOnes_of_lt h
  simp only [BitVec.getLsbD_and, BitVec.getLsbD_append]
  rcases (by omega : i < 4 ∨ 4 ≤ i ∧ i < 12 ∨ 12 ≤ i ∧ i < 24 ∨ 24 ≤ i) with h | h | h | h
  · simp [h, hg i h, show ¬ 12 ≤ i by omega]
  · simp [show ¬ i < 4 by omega, show ¬ 12 ≤ i by omega, show i - 4 < 8 by omega, h1 (i - 4) (by omega)]
  · simp [show ¬ i < 4 by omega, h, show ¬ i - 4 < 8 by omega, show i - 4 - 8 = i - 12 by omega, show i - 12 < 12 by omega,
      hf (i - 12) (by omega)]
  · simp [show ¬ i < 4 by omega, show ¬ i < 24 by omega, show ¬ i - 4 < 8 by omega, show ¬ i - 4 - 8 < 12 by omega,
      h1 (i - 4 - 8 - 12) (by omega)]

theorem exec_powerOn_running {s : State} {b : BootOutcome} (hs : s.boot = .off) (hb : ∀ n, ¬ stageFailed b n) :
    exec (.powerOn b) s =
      .next { s with boot := .running, devcap := builtCap (variantCap s.variant) b.hbmStacks b.cxlPorts } := by
  change execPowerOn b s = _
  unfold execPowerOn
  rw [if_neg (not_not_intro hs), bootFailed_eq_none hb]

theorem exec_powerOn_failed {s : State} {b : BootOutcome} {n : Nat} (hs : s.boot = .off) (hb : stageFailed b n) :
    exec (.powerOn b) s = .next { s with
      boot := .safe (BitVec.ofNat 32 n) (BitVec.ofNat 32 n) b.failingUnit, clockMHz := 525
      devcap := builtCap (variantCap s.variant) (if n < 3 then 0xFFF#12 else b.hbmStacks) (if n < 4 then 0xF#4 else b.cxlPorts) } := by
  change execPowerOn b s = _
  unfold execPowerOn
  rw [if_neg (not_not_intro hs), bootFailed_eq_some_iff.2 hb]
  rfl

/-! ### The safe state's mailbox and a reset -/

theorem imageGood_eq_true_iff {bs : List Byte} : imageGood bs = true ↔ imagePasses bs := by
  simp [imageGood, imagePasses]

theorem exec_fwupdate_of_safe {s : State} {stage code unit : Word} (hs : s.boot = .safe stage code unit) (bs : List Byte) :
    exec (.fwupdate bs) s = .next (s.send (.mailbox (imageGood bs) 0)) := by
  change execFwupdate bs s = _
  unfold execFwupdate
  rw [hs]

theorem exec_report_of_safe {s : State} {stage code unit : Word} (hs : s.boot = .safe stage code unit) :
    exec .report s = .next (s.send (.selfTest stage code unit s.devcap)) := by
  change execReport s = _
  unfold execReport
  rw [hs]

theorem exec_retrain_of_safe {s : State} {stage code unit : Word} (hs : s.boot = .safe stage code unit) :
    ∃ w hbms ports, exec .retrain s = .next { s with devcap := w, out := s.out ++ [.mailbox true 0] } ∧
      trainedCap s.variant hbms ports w := by
  refine ⟨_, _, _, ?_, builtCap_trained (hbm := (Config.freeWord s.cur.draw 0 406).extractLsb' 0 12)
    (ports := (Config.freeWord s.cur.draw 0 406).extractLsb' 12 4) (fun i _ => rfl) (fun i _ => rfl)⟩
  change execRetrain s = _
  unfold execRetrain
  rw [hs]
  rfl

/-- Outside the safe state its mailbox does nothing (R405; log 94). -/
theorem exec_mailbox_of_not_safe {s : State} (hs : ∀ stage code unit, s.boot ≠ .safe stage code unit) :
    exec .report s = .next s ∧ exec .retrain s = .next s ∧ ∀ bs, exec (.fwupdate bs) s = .next s := by
  change execReport s = _ ∧ execRetrain s = _ ∧ ∀ bs, execFwupdate bs s = _
  unfold execReport execRetrain execFwupdate
  cases hb : s.boot with
  | safe stage code unit => exact absurd hb (hs stage code unit)
  | off | running => exact ⟨rfl, rfl, fun _ => rfl⟩

theorem foldl_write_wf (f : Nat → Byte) (cs m : Memory) (h : m.wf) :
    Memory.wf (cs.foldl (fun (n : Memory) c => n.write c.1 (f c.1)) m) := by
  induction cs generalizing m with
  | nil => exact h
  | cons c cs ih => exact ih _ (Memory.write_wf m c.1 (f c.1) h)

theorem read_foldl_write (f : Nat → Byte) (cs m : Memory) (a : Nat) (h : ∀ c ∈ cs, c.1 ≠ a) :
    Memory.read (cs.foldl (fun (n : Memory) c => n.write c.1 (f c.1)) m) a = m.read a := by
  induction cs generalizing m with
  | nil => rfl
  | cons c cs ih =>
    rw [List.foldl_cons, ih _ (fun x hx => h x (List.mem_cons_of_mem c hx)),
      Memory.read_write_ne _ _ (h c List.mem_cons_self).symm]

theorem scrambled_wf (draw : Nat) (m : Memory) : (scrambled draw m).wf :=
  foldl_write_wf (fun a => (Config.freeWord draw a 405).setWidth 8) m [] Memory.wf_nil

/-- A byte that was never written reads 0 after a reset too. -/
theorem read_scrambled {draw : Nat} {m : Memory} {a : Nat} (h : ∀ c ∈ m, c.1 ≠ a) : (scrambled draw m).read a = 0#8 :=
  read_foldl_write (fun a => (Config.freeWord draw a 405).setWidth 8) m [] a h

theorem exec_deviceReset (s : State) : exec .deviceReset s = .next { State.reset with
    variant := s.variant, devcap := capOf s.variant, mem := scrambled s.cur.draw s.mem, hostMem := s.hostMem, images := s.images
    out := s.out, agenda := s.agenda, draws := s.draws } := rfl

theorem exec_clockStep (s : State) (up : Bool) : exec (.clockStep up) s = .next (if s.boot = .running then
    { s with clockMHz := if up = true then Nat.min 1050 (s.clockMHz + 50) else Nat.max 525 (s.clockMHz - 50) } else s) := by
  change execClockStep up s = _
  unfold execClockStep
  cases hb : s.boot with
  | running => rfl
  | off | safe stage code unit => simp

/-! ### Attestation -/

theorem State.spdm_of_off {s : State} (h : s.boot = .off) (code : BitVec 8) (n : Nat) (req : List Byte) : s.spdm code n req = s := if_pos h

theorem State.spdm_of_ne_off {s : State} (h : s.boot ≠ .off) (code : BitVec 8) (n : Nat) (req : List Byte) :
    s.spdm code n req = { s with out := s.out ++ [.spdm code (Config.spdmBytes n req)] } := if_neg h

theorem State.spdmError_of_off {s : State} (h : s.boot = .off) (code data : BitVec 8) : s.spdmError code data = s := if_pos h

theorem State.spdmError_of_ne_off {s : State} (h : s.boot ≠ .off) (code data : BitVec 8) :
    s.spdmError code data = { s with out := s.out ++ [.spdm 0x7F#8 [code, data]] } := if_neg h

theorem exec_getMeasurements_of_off {s : State} (h : s.boot = .off) (n : Nat) : exec (.getMeasurements n) s = .next s := by
  change execGetMeasurements n s = _
  unfold execGetMeasurements
  simp only [State.spdm_of_off h, State.spdmError_of_off h]
  repeat' split
  all_goals rfl

theorem exec_getMeasurements_part {s : State} (h : s.boot ≠ .off) {n : Nat} {p : Part} (hp : AMap.look s.parts n = some p) :
    exec (.getMeasurements (16 + n)) s =
      .next { s with out := s.out ++ [.spdm 0x60#8 (Config.spdmBytes 6 (BitVec.ofNat 8 (16 + n) :: p.image))] } := by
  change execGetMeasurements (16 + n) s = _
  unfold execGetMeasurements
  rw [if_neg (by omega), if_pos (by omega), Nat.add_sub_cancel_left, hp]
  exact congrArg _ (State.spdm_of_ne_off h ..)

theorem exec_getMeasurements_of_ne_off {s : State} (h : s.boot ≠ .off) (n : Nat) :
    ∃ body, exec (.getMeasurements n) s = .next { s with out := s.out ++
      [.spdm (if n = 1 ∨ n = 2 ∨ (16 ≤ n ∧ AMap.has s.parts (n - 16) = true) then 0x60#8 else 0x7F#8) body] } := by
  by_cases h12 : n = 1 ∨ n = 2
  · refine ⟨Config.spdmBytes 6 (leBytes n 1), ?_⟩
    rw [if_pos (h12.imp id .inl)]
    change execGetMeasurements n s = _
    unfold execGetMeasurements
    rw [if_pos h12, State.spdm_of_ne_off h]
  by_cases hp : 16 ≤ n ∧ AMap.has s.parts (n - 16) = true
  · obtain ⟨k, rfl⟩ := Nat.exists_eq_add_of_le hp.1
    have hk := hp.2
    rw [Nat.add_sub_cancel_left] at hk
    obtain ⟨p, e⟩ := Option.isSome_iff_exists.1 hk
    rw [if_pos (.inr (.inr hp))]
    exact ⟨_, exec_getMeasurements_part h e⟩
  · refine ⟨[0x01#8, 0#8], ?_⟩
    rw [if_neg (fun o => o.elim (fun e => h12 (.inl e)) (fun o => o.elim (fun e => h12 (.inr e)) hp))]
    change execGetMeasurements n s = _
    unfold execGetMeasurements
    have hnone : (if 16 ≤ n then AMap.look s.parts (n - 16) else none) = none := by
      split
      next h16 => exact Option.not_isSome_iff_eq_none.1 fun hs => hp ⟨h16, hs⟩
      next => rfl
    rw [if_neg h12, hnone, State.spdmError_of_ne_off h]

theorem exec_spdm_of_off {s : State} {i : Instr} {code : BitVec 8} (hi : spdmCode s i = some code) (h : s.boot = .off) :
    exec i s = .next s := by
  cases i with
  | getVersion | getCapabilities | negotiateAlgorithms | getDigests | getCertificate | challenge =>
    exact congrArg _ (State.spdm_of_off h ..)
  | unsupportedRequest c => exact congrArg _ (State.spdmError_of_off h ..)
  | getMeasurements n => exact exec_getMeasurements_of_off h n
  | _ => exact nomatch hi

theorem exec_spdm_of_ne_off {s : State} {i : Instr} {code : BitVec 8} (hi : spdmCode s i = some code) (h : s.boot ≠ .off) :
    ∃ body, exec i s = .next { s with out := s.out ++ [.spdm code body] } ∧
      (∀ c, i = .unsupportedRequest c → body = [0x07#8, c]) ∧
      ∀ n p, i = .getMeasurements (16 + n) → AMap.look s.parts n = some p →
        body = Config.spdmBytes 6 (BitVec.ofNat 8 (16 + n) :: p.image) := by
  cases i with
  | getVersion | getCapabilities | negotiateAlgorithms | getDigests | getCertificate | challenge =>
    cases hi
    exact ⟨_, congrArg _ (State.spdm_of_ne_off h ..), nofun, nofun⟩
  | unsupportedRequest c =>
    cases hi
    exact ⟨_, congrArg _ (State.spdmError_of_ne_off h ..), fun _ e => by cases e; rfl, nofun⟩
  | getMeasurements n =>
    cases hi
    obtain ⟨body, e⟩ := exec_getMeasurements_of_ne_off h n
    refine ⟨body, e, nofun, fun k p hk hp => ?_⟩
    cases hk
    rw [exec_getMeasurements_part h hp] at e
    injection e with e
    have hout := List.append_cancel_left (congrArg State.out e)
    injection hout with hmessage
    injection hmessage with _ hbody
    exact hbody.symm
  | _ => exact nomatch hi

/-! ### Errors and writes from outside -/

/-- A partition once a link error has met it: a running checkpoint has failed with ERR 5 (R397). -/
def Part.linkFailed (p : Part) : Part :=
  if p.ckState = 1 ∨ p.ckState = 2 ∨ p.ckState = 5 then { p with ckState := 4, ckErr := 5, pieces := [], ckImage := none } else p

/-- What PCIE_LINK_ERROR does for one entry of the partitions. -/
def State.linkError (s : State) (e : Nat × Part) : State :=
  if e.2.ckState = 1 ∨ e.2.ckState = 2 ∨ e.2.ckState = 5 then s.failCkpt e.1 5 else s

theorem exec_pcieLinkError (s : State) : exec .pcieLinkError s = .next (s.parts.foldl State.linkError s) := rfl

theorem State.linkError_frame (s : State) (e : Nat × Part) : { s.linkError e with parts := s.parts } = s := by
  unfold State.linkError State.failCkpt
  repeat' split
  all_goals rfl

theorem State.look_linkError {s : State} {e : Nat × Part} (h : AMap.look s.parts e.1 = some e.2) (n : Nat) :
    AMap.look (s.linkError e).parts n = if n = e.1 then some e.2.linkFailed else AMap.look s.parts n := by
  unfold State.linkError Part.linkFailed State.failCkpt
  rw [h]
  by_cases hn : n = e.1
  · subst hn
    split
    · simp [State.setPart]
    · simpa using h
  · rw [if_neg hn]
    split
    · exact AMap.look_put_ne _ _ (Ne.symm hn)
    · rfl

theorem State.foldl_linkError_frame (l : List (Nat × Part)) (s : State) : { l.foldl State.linkError s with parts := s.parts } = s := by
  induction l generalizing s with
  | nil => rfl
  | cons e l ih =>
    have h1 := ih (s.linkError e)
    have h2 := s.linkError_frame e
    calc { l.foldl State.linkError (s.linkError e) with parts := s.parts }
      _ = { { l.foldl State.linkError (s.linkError e) with parts := (s.linkError e).parts } with parts := s.parts } := rfl
      _ = { s.linkError e with parts := s.parts } := by rw [h1]
      _ = s := h2

theorem State.look_foldl_linkError (l : List (Nat × Part)) (s : State) (hd : (l.map (fun e => e.1)).Nodup)
    (hl : ∀ e ∈ l, AMap.look s.parts e.1 = some e.2) (n : Nat) : AMap.look (l.foldl State.linkError s).parts n =
      if n ∈ l.map (fun e => e.1) then (AMap.look s.parts n).map Part.linkFailed else AMap.look s.parts n := by
  induction l generalizing s with
  | nil => rfl
  | cons e l ih =>
    obtain ⟨hnot, hd⟩ := List.nodup_cons.1 hd
    have he := hl e List.mem_cons_self
    have hlook := State.look_linkError he
    have hne (e' : Nat × Part) (h : e' ∈ l) : e'.1 ≠ e.1 := fun x => hnot (List.mem_map.2 ⟨e', h, x⟩)
    rw [List.foldl_cons, ih (s.linkError e) hd (fun e' h => by rw [hlook, if_neg (hne e' h)]; exact hl e' (List.mem_cons_of_mem e h)),
      hlook]
    by_cases hn : n = e.1
    · subst hn
      simp [hnot, he]
    · simp only [List.map_cons, List.mem_cons, hn, false_or, if_false]

theorem AMap.look_of_mem {α : Type} {m : AMap α} (hd : (m.map (fun e => e.1)).Nodup) {e : Nat × α} (h : e ∈ m) :
    m.look e.1 = some e.2 := by
  induction m with
  | nil => cases h
  | cons x m ih =>
    obtain ⟨hnot, htail⟩ := List.nodup_cons.1 hd
    rcases List.mem_cons.1 h with rfl | h
    · exact if_pos rfl
    · exact (if_neg fun heq => hnot (List.mem_map.2 ⟨e, h, heq.symm⟩)).trans (ih htail h)

theorem AMap.look_eq_none {α : Type} {m : AMap α} {n : Nat} (h : n ∉ m.map (fun e => e.1)) : m.look n = none := by
  induction m with
  | nil => rfl
  | cons x m ih =>
    obtain ⟨hne, hm⟩ := not_or.1 (fun o => h (List.mem_cons.2 o))
    simp [AMap.look, Ne.symm hne, ih hm]

theorem physOk_iff {pa : Nat} : physOk pa = true ↔ pa < 768 * 2 ^ 30 ∨ (2 ^ 48 ≤ pa ∧ pa < 2 ^ 48 + 2 ^ 44) := by
  unfold physOk
  simp only [Bool.or_eq_true, Bool.and_eq_true, decide_eq_true_eq]

/-- The state after an error at a physical address (R402). -/
def State.struck (s : State) (pa : Nat) : State :=
  { s with poison := AMap.put s.poison (pa / 16) 0#16, brocade := s.brocade.map (BLine.strike s.cur.draw pa) }

theorem exec_uncorrectableError_of_ok {s : State} {pa : Nat} (h : physOk pa = true) :
    exec (.uncorrectableError pa) s = .next (s.struck pa) := by
  change execUncorrectableError pa s = _
  unfold execUncorrectableError
  rw [h]
  rfl

theorem exec_uncorrectableError_of_not_ok {s : State} {pa : Nat} (h : ¬ physOk pa = true) :
    exec (.uncorrectableError pa) s = .fault (.noSuchAddress pa) := by
  change execUncorrectableError pa s = _
  unfold execUncorrectableError
  rw [Bool.eq_false_iff.2 h]
  rfl

@[simp] theorem BLine.strike_pa (draw pa : Nat) (l : BLine) : (l.strike draw pa).pa = l.pa := by
  unfold BLine.strike; dsimp only; split <;> rfl
@[simp] theorem BLine.strike_dirty (draw pa : Nat) (l : BLine) : (l.strike draw pa).dirty = l.dirty := by
  unfold BLine.strike; dsimp only; split <;> rfl
@[simp] theorem BLine.strike_data (draw pa : Nat) (l : BLine) : (l.strike draw pa).data = l.data := by
  unfold BLine.strike; dsimp only; split <;> rfl

/-- The line that holds the dirty sector of a physical address. -/
def State.dirtyLine (s : State) (a : Nat) : Option BLine :=
  s.brocade.find? (fun l => l.pa == some (a / 64 * 64) && l.dirty.getLsbD (a % 64 / 16))

theorem State.physByte_eq (s : State) (a : Nat) :
    s.physByte a = match s.dirtyLine a with | some l => getAt l.data (a % 64) 0#8 | none => s.mem.read a := by
  unfold State.physByte State.dirtyLine
  rfl

theorem State.physPoison_eq (s : State) (a : Nat) : s.physPoison a =
    match s.dirtyLine a with | some l => l.poison.getLsbD (a % 64 / 16) | none => AMap.has s.poison (a / 16) := by
  unfold State.physPoison State.dirtyLine
  rfl

/-- A line met by an error keeps the poison of every sector but the one that was met. -/
theorem BLine.strike_poison (draw pa : Nat) (l : BLine) (j : Nat) (h : l.pa = some (pa / 64 * 64) → j ≠ pa % 64 / 16) :
    (l.strike draw pa).poison.getLsbD j = l.poison.getLsbD j := by
  unfold BLine.strike
  dsimp only
  split
  next hc =>
    simp only [Bool.and_eq_true, beq_iff_eq] at hc
    have hj := h hc.1.1
    have hbit : (1#4 <<< (pa % 64 / 16)).getLsbD j = false := by
      simp only [BitVec.getLsbD_shiftLeft, BitVec.getLsbD_one]
      by_cases hlt : j < pa % 64 / 16
      · simp [hlt]
      · simp [show j - pa % 64 / 16 ≠ 0 by omega]
    rw [BitVec.getLsbD_or, hbit, Bool.or_false]
  next => rfl

theorem State.dirtyLine_struck (s : State) (pa a : Nat) :
    (s.struck pa).dirtyLine a = (s.dirtyLine a).map (BLine.strike s.cur.draw pa) := by
  unfold State.dirtyLine State.struck
  rw [List.find?_map]
  congr 2
  funext l
  simp

theorem State.physByte_struck (s : State) (pa a : Nat) : (s.struck pa).physByte a = s.physByte a := by
  rw [State.physByte_eq, State.physByte_eq, State.dirtyLine_struck]
  cases s.dirtyLine a with
  | none => rfl
  | some l => exact congrArg (fun d => getAt d (a % 64) 0#8) (BLine.strike_data ..)

theorem State.physPoison_struck_ne (s : State) {pa a : Nat} (h : a / 16 ≠ pa / 16) : (s.struck pa).physPoison a = s.physPoison a := by
  rw [State.physPoison_eq, State.physPoison_eq, State.dirtyLine_struck]
  cases hl : s.dirtyLine a with
  | none =>
    change AMap.has (AMap.put s.poison (pa / 16) 0#16) (a / 16) = _
    rw [AMap.has_put, decide_eq_false (Ne.symm h), Bool.false_or]
  | some l =>
    refine BLine.strike_poison _ _ _ _ fun hpa hj => ?_
    have hfound := List.find?_some hl
    simp only [Bool.and_eq_true, beq_iff_eq] at hfound
    have hline : a / 64 * 64 = pa / 64 * 64 := Option.some.inj (hfound.1.symm.trans hpa)
    omega

theorem State.physPoison_struck_self (s : State) {pa : Nat}
    (h : ∀ l ∈ s.brocade, l.pa = some (pa / 64 * 64) → l.dirty.getLsbD (pa % 64 / 16) = false) :
    (s.struck pa).physPoison pa = true := by
  have hnone : s.dirtyLine pa = none := by
    refine List.find?_eq_none.2 fun l hl => ?_
    simp only [Bool.and_eq_true, beq_iff_eq]
    rintro ⟨hpa, hd⟩
    rw [h l hl hpa] at hd
    exact nomatch hd
  rw [State.physPoison_eq, State.dirtyLine_struck, hnone]
  change AMap.has (AMap.put s.poison (pa / 16) 0#16) (pa / 16) = true
  rw [AMap.has_put, decide_eq_true rfl, Bool.true_or]

/-- Another host's write to the shared CXL devices (R401). -/
theorem exec_otherHostWrite_of_cxl {s : State} {pa : Nat} {bs : List Byte} (lo : 2 ^ 48 ≤ pa) (hi : pa + bs.length ≤ 2 ^ 48 + 2 ^ 44) :
    exec (.otherHostWrite pa bs) s = .next { s with mem := s.mem.putBytes pa bs } := by
  have hnone : (List.range bs.length).find? (fun i => !(physOk (pa + i)) || decide (pa + i < 2 ^ 48)) = none := by
    refine List.find?_eq_none.2 fun i h => ?_
    have hlt := List.mem_range.1 h
    have hok : physOk (pa + i) = true := physOk_iff.2 (.inr (by omega))
    rw [hok, Bool.not_true, Bool.false_or, decide_eq_true_eq]
    omega
  change execOtherHostWrite pa bs s = _
  unfold execOtherHostWrite
  rw [hnone]

/-- Where the first byte is not in the shared CXL devices, it decides. -/
theorem exec_otherHostWrite_of_not_cxl {s : State} {pa : Nat} {bs : List Byte} (hne : bs ≠ []) (h : physOk pa = false ∨ pa < 2 ^ 48) :
    exec (.otherHostWrite pa bs) s = if physOk pa then .next s else .fault (.noSuchAddress pa) := by
  obtain ⟨b, bs, rfl⟩ := List.exists_cons_of_ne_nil hne
  have hfirst : (List.range (b :: bs).length).find? (fun i => !(physOk (pa + i)) || decide (pa + i < 2 ^ 48)) = some 0 := by
    rw [List.length_cons, List.range_succ_eq_map, List.find?_cons_of_pos]
    simpa using h
  change execOtherHostWrite pa (b :: bs) s = _
  unfold execOtherHostWrite
  rw [hfirst]
  rfl

theorem getAt_eq_getD {α : Type} (l : List α) (n : Nat) (d : α) : getAt l n d = l.getD n d := by
  induction l generalizing n with
  | nil => rfl
  | cons a l ih =>
    cases n with
    | zero => rfl
    | succ n => exact ih n

theorem read_putBytes_written (m : Memory) (a : Nat) (bs : List Byte) (x : Nat) : (m.putBytes a bs).read x = written m.read a bs x := by
  rw [Memory.read_putBytes, written, getAt_eq_getD]

/-! ### The statement -/

/-- Settles O51, clause by clause: each of the device's own instructions has an equation of its own above. -/
theorem theDeviceStartsAndReports : Obligations.TheDeviceStartsAndReports := by
  unfold Obligations.TheDeviceStartsAndReports
  refine ⟨fun s b hs => ⟨fun hb => ?_, fun n hb => ?_⟩, fun s b hs => exec_powerOn_of_ne_off hs b, fun s stage code unit hs => ?_,
    fun s hs => exec_mailbox_of_not_safe hs, fun s => ?_, exec_clockStep, fun i s code hi => ?_, fun s hd => ?_, fun s pa h => ?_,
    fun s pa h => ?_, fun s pa bs => ⟨fun lo hi => ?_, fun hne h => ?_, fun hne h => ?_⟩⟩
  · exact ⟨_, exec_powerOn_running hs hb, builtCap_trained (fun _ _ => rfl) (fun _ _ => rfl)⟩
  · refine ⟨_, exec_powerOn_failed hs hb, builtCap_trained (fun i hi => ?_) (fun i hi => ?_)⟩
    · split
      next h => rw [decide_eq_true h, Bool.true_or]; exact (getLsbD_allOnes_of_lt hi).symm
      next h => simp [h]
    · split
      next h => rw [decide_eq_true h, Bool.true_or]; exact (getLsbD_allOnes_of_lt hi).symm
      next h => simp [h]
  · refine ⟨exec_report_of_safe hs, exec_retrain_of_safe hs, fun bs => ⟨fun h => ?_, fun h => ?_⟩⟩
    · rw [exec_fwupdate_of_safe hs, imageGood_eq_true_iff.2 h]; rfl
    · rw [exec_fwupdate_of_safe hs, Bool.eq_false_iff.2 fun hg => h (imageGood_eq_true_iff.1 hg)]; rfl
  · exact ⟨_, exec_deviceReset s, scrambled_wf .., fun a h => read_scrambled h⟩
  · exact ⟨fun h => exec_spdm_of_ne_off hi h, fun h => exec_spdm_of_off hi h⟩
  · refine ⟨_, exec_pcieLinkError s, State.foldl_linkError_frame .., fun n => ?_⟩
    rw [State.look_foldl_linkError s.parts s hd (fun e he => AMap.look_of_mem hd he)]
    split
    · rfl
    next hn => rw [AMap.look_eq_none hn]; rfl
  · exact ⟨_, exec_uncorrectableError_of_ok (physOk_iff.2 h), s.physByte_struck pa, fun a ha => s.physPoison_struck_ne ha,
      s.physPoison_struck_self, rfl⟩
  · exact exec_uncorrectableError_of_not_ok (fun hok => h (physOk_iff.1 hok))
  · exact ⟨_, exec_otherHostWrite_of_cxl lo hi, rfl, read_putBytes_written _ pa bs⟩
  · rw [exec_otherHostWrite_of_not_cxl hne (.inr (by omega)), if_pos (physOk_iff.2 (.inl h))]
  · have hno : physOk pa = false := Bool.eq_false_iff.2 fun hok => h (physOk_iff.1 hok)
    rw [exec_otherHostWrite_of_not_cxl hne (.inl hno), hno]
    rfl

end Sys2Proof.Machine
end

section
/-! PROOFS (graphs, contexts and checkpoints: O46, O47). Both statements fail in one clause: a state for each, and what the model
does with it. -/

namespace Sys2Proof.Machine

open Sys2Proof Sys2Proof.Claims

/-! ### A graph load that a performance counter sees -/

/-- The bytes of a valid entry that names the next table, and of a writable leaf of 2 MiB in HBM (R177). -/
def tableEntry (pa : Nat) : List Byte := leBytes (2 ^ 63 + 2 ^ 62 + pa) 8
def hugeLeaf (pa : Nat) : List Byte := leBytes (2 ^ 63 + 2 ^ 62 + 2 ^ 61 + pa) 8

/-- VF 0 maps its first 2 MiB, loads slot 0 from an image at address 0 whose first sector is poisoned, and counts line fills from
HBM in counter 0 (R95, R177, R375). -/
def countedLoad : State :=
  { State.reset with
    boot := .running
    mem := ((Memory.putBytes [] 0x10000 (tableEntry 0x12000)).putBytes 0x12000 (tableEntry 0x14000)).putBytes 0x14000 (hugeLeaf 0x200000)
    poison := [(0x20000, 0#16)]
    parts := [(0, ⟨[], 0, 0, 1#64, [0xFFFFFFFFFFFFFFFF#64], [], 0#64, 0#64, 0, 0#32, [], 0, 0, 64, 0#64, 0#64, [], 0, none, 0, 0, 0, [], [],
      0#16, 0#32, []⟩)]
    vfs := [(0, { VF.reset with
      ptroot := 0x10001#64, perfsel := [(0, 0x80000007#32)], slots := [(0, { GraphSlot.reset with loading := some 0 })] })] }

theorem coherent_of_brocade_nil {s : State} (h : s.brocade = []) : Coherent s := by
  constructor <;> simp [h]

theorem countedLoad_walk : countedLoad.walk 0 0 false = .ok 0x200000 := by decide

theorem countedLoad_unread : Loads countedLoad 0 0 (.inr 0xFFFF) := by
  refine .unread fun hgood => ?_
  obtain ⟨pa, hwalk, hclean⟩ := hgood 0 (by decide)
  obtain rfl : 0x200000 = pa := Xlate.ok.inj (countedLoad_walk.symm.trans hwalk)
  exact absurd hclean (by decide)

/-- Loading fills one line, which counter 0 counts. -/
theorem countedLoad_counts : ∃ t, exec (.graphLoadComplete 0 0) countedLoad = .next t ∧ AMap.lookD (t.vf 0).perfcnt 0 0#64 = 1#64 :=
  ⟨_, rfl, by decide⟩

/-- Refutes O46: the clause on GRAPH_LOAD_COMPLETE fixes the VFs after the load but for the slot, where the load's line fills may
also count in the VF's performance counters (R375), as they do for the image of `countedLoad`. -/
theorem not_graphsRun : ¬ Obligations.GraphsRun := by
  unfold Obligations.GraphsRun
  rintro ⟨-, -, -, hload, -⟩
  obtain ⟨t, ht, -, hvfs⟩ := hload countedLoad 0 0 0 (.inr 0xFFFF) rfl (coherent_of_brocade_nil rfl) countedLoad_unread
  obtain ⟨u, hu, hcount⟩ := countedLoad_counts
  obtain rfl : t = u := Host.Outcome.next.inj (ht.symm.trans hu)
  rw [State.vf, hvfs] at hcount
  exact absurd hcount (by decide)

/-! ### A forced halt that completes a group's phase -/

/-- Thread 0 waits in the GBAR at PC 0, and its helper's arrival alone is lacking to its group (R106, R111, R304). -/
def barrierWaiter : Thread := { Thread.blank with hold := .gbar 0 0#32 4#32 (some 0#32), team := some ⟨0, 1, none, []⟩ }
def barrierHelper : Thread := { Thread.blank with helper := some ⟨0, 0, 0, []⟩ }
def barrierCore : Core :=
  { Core.reset with
    launch := some 0, started := true, threads := [(0, barrierWaiter), (helperUid 0 0, barrierHelper)]
    groups := [(0, ⟨[(0, some 0#32), (helperUid 0 0, none)], 0#32, []⟩)] }

/-- The context of VF 0, on that core alone, has been asked to halt (R365). -/
def haltingAtBarrier : State :=
  { State.reset with
    boot := .running
    vfs := [(0, { VF.reset with ctx := 2, rung := 1 })]
    launches := [(0, ⟨0, 0, 0, probeHeader, [], [], [], [], [], [], 0, [(0, 0)], 0, false⟩)]
    cores := [(0, barrierCore)] }

theorem AMap.lookD_cons {α : Type} (x y : Nat) (v d : α) (m : AMap α) :
    AMap.lookD ((x, v) :: m) y d = if x = y then v else AMap.lookD m y d := by
  by_cases h : x = y <;> simp [AMap.lookD, AMap.look, h]

theorem haltingAtBarrier_core (k : Nat) : haltingAtBarrier.core k = if 0 = k then barrierCore else Core.reset :=
  AMap.lookD_cons ..

theorem haltingAtBarrier_vf (v : Nat) : haltingAtBarrier.vf v = if 0 = v then { VF.reset with ctx := 2, rung := 1 } else VF.reset :=
  AMap.lookD_cons ..

theorem haltingAtBarrier_listsOnce : ListsOnce haltingAtBarrier where
  cores := by decide
  launches := by decide
  dies := by decide
  pools v := by rw [haltingAtBarrier_vf]; split <;> decide
  threads k := by rw [haltingAtBarrier_core]; split <;> decide
  clusters _ := ⟨.nil, .nil, .nil⟩

theorem barrierCore_th (u : Nat) :
    barrierCore.th u = if 0 = u then barrierWaiter else if helperUid 0 0 = u then barrierHelper else Thread.blank := by
  rw [Core.th, barrierCore, AMap.lookD_cons, AMap.lookD_cons]
  rfl

/-- No thread is parked. -/
theorem haltingAtBarrier_parkedPlaces : parkedPlaces haltingAtBarrier 0 := by
  intro k _ u n r hparked
  have hnone : ((haltingAtBarrier.core k).th u).hold ≠ .parked n r := by
    rw [haltingAtBarrier_core]
    split
    · rw [barrierCore_th]
      split
      · nofun
      · split <;> nofun
    · nofun
  exact absurd hparked hnone

/-- The forced halt ends the helper, which completes the phase: the waiting thread goes on after its GBAR. -/
theorem haltingAtBarrier_passes : ∃ t, exec (.graceExpiry 0) haltingAtBarrier = .next t ∧
    AMap.has (t.core 0).threads 0 = true ∧ ((t.core 0).th 0).pc = 4#32 :=
  ⟨_, rfl, by decide, by decide⟩

/-- In a halted core the thread that waited in the GBAR at PC 0 stands at PC 0. -/
theorem pc_of_haltedCore {d : Core} (h : HaltedCore barrierCore d) (hd : AMap.has d.threads 0 = true) : (d.th 0).pc = 0#32 := by
  obtain ⟨hold, pc, yc, hnotes, -, hplace, -⟩ := h.threads 0 hd
  have hpc : (d.th 0).pc = pc := congrArg Thread.pc hnotes
  obtain ⟨hsame, -⟩ | ⟨-, hback, -⟩ := hplace
  · exact hpc.trans hsame
  · exact hpc.trans (Option.some.inj hback).symm

/-- Refutes O47: where the forced halt ends a helper whose arrival alone is lacking to a phase, a thread that waits for that phase
goes on after its GBAR (R106, R111), and the clause on GRACE_EXPIRY has it stand at the GBAR, as for `haltingAtBarrier`. -/
theorem not_contextsAndCheckpointsMove : ¬ Obligations.ContextsAndCheckpointsMove := by
  unfold Obligations.ContextsAndCheckpointsMove
  rintro ⟨-, -, hgrace, -⟩
  obtain ⟨t, ht, hhalt⟩ := hgrace haltingAtBarrier 0 rfl rfl haltingAtBarrier_listsOnce haltingAtBarrier_parkedPlaces
  obtain ⟨u, hu, hlisted, hpast⟩ := haltingAtBarrier_passes
  obtain rfl : t = u := Host.Outcome.next.inj (ht.symm.trans hu)
  have hcore : HaltedCore barrierCore (t.core 0) := (hhalt.cores 0).1 ⟨0, _, rfl, rfl, rfl⟩
  rw [pc_of_haltedCore hcore hlisted] at hpast
  exact absurd hpast (by decide)

end Sys2Proof.Machine
end
